-- ==== Sys2Proof/Word.lean ====
section
/-! DEFINITION. The word types, the sparse table type and the names shared by commands and state. -/

namespace Sys2Proof

/-- One byte. -/
abbrev Byte := BitVec 8

/-- A sparse table: pairs of index and value, indices strictly rising, an index that is not listed
holding the table's own default. -/
abbrev Tab (α : Type) := List (Nat × α)

/-- Message opcodes: the CXL.mem messages of Table 6-1, the responses of R139, and the other channels
of Table 1-6. -/
inductive Op where
  /-- M2S Req read (MemRd and the other Req opcodes that expect data). -/
  | memRd
  /-- M2S Req that expects no data, other than the two below (MemInv). -/
  | memInv
  | memClnEvct
  | biConflict
  | memWr
  | memWrPtl
  | birspI
  | birspS
  | birspE
  /-- S2M DRS. -/
  | memData
  | cmp
  | cmpS
  | cmpE
  | biConflictAck
  | bisnpInv
  | bisnpData
  | bisnpCur
  | ioPosted
  | ioNonPosted
  | ioCompletion
  /-- A CXL.cache request of a device to its host. -/
  | cacheD2H
  /-- A CXL.cache request (snoop) of a host to its device. -/
  | cacheH2D
  /-- A CXL.cache response or data message, which answers a request of either direction. -/
  | cacheRsp
  /-- MGMT class: Nib and MCTP packets. -/
  | mctp
  /-- MGMT class: a reserved kind (Table 11-5). -/
  | mgmtOther
  | apply
  | restore
  | timeInfo
  | user
  deriving DecidableEq, Repr

/-- MetaValue of a CXL.mem message, or MetaField No-Op (Table 6-1). -/
inductive MetaV where
  | noOp | i | s | a
  deriving DecidableEq, Repr

/-- Colour a meter gave a request (R194). -/
inductive Colour where
  | green | yellow | red
  deriving DecidableEq, Repr

/-- Who a request came from, and to whom its completion returns (R19, R141, R164). -/
inductive Requester where
  /-- A host on logical upstream port u. -/
  | host (u : BitVec 7)
  /-- A scribe engine: instance, queue, descriptor index and line number. -/
  | engine (inst : BitVec 10) (q : BitVec 2) (index : BitVec 16) (line : Nat)
  /-- A proxy slice, for the line of this shared address. -/
  | slice (k : BitVec 3) (sa : BitVec 48)
  /-- Another switch: crossbar port of arrival and source FEID. -/
  | fabric (xp : BitVec 6) (feid : BitVec 16)
  /-- A device below a downstream port. -/
  | device (u : BitVec 7)
  | mgmt
  deriving DecidableEq, Repr

/-- One message of the fabric (R20, R90). -/
structure Msg where
  op : Op
  mv : MetaV
  /-- Message class of Table 1-6, 0 MGMT to 7 USER. -/
  mclass : BitVec 3
  /-- Service class. -/
  sclass : BitVec 3
  /-- Destination FEID. -/
  feid : BitVec 16
  req : Requester
  /-- Crossbar port at which the message entered. -/
  inXp : BitVec 6
  /-- The requester's own tag. -/
  tag : BitVec 16
  binding : BitVec 13
  /-- Counted in the binding's outstanding count at this switch (R76). -/
  counted : Bool
  dev : BitVec 64
  /-- Shared address of a proxied line (R141). -/
  sa : BitVec 48
  proxy : Bool
  data : BitVec 512
  /-- Byte enables of a partial write. -/
  mask : BitVec 64
  /-- Payload bytes the message carries. -/
  len : Nat
  poison : Bool
  /-- DevLoad of an S2M response, carried unchanged (08 R206). -/
  devLoad : BitVec 2
  /-- Logical device of a CXL.io, CXL.cache or back-invalidation message below a downstream port, as its vPPB is bound (10
  R241). -/
  ld : Option (BitVec 4)
  colour : Colour
  /-- Rule epoch of the protection check (R217). -/
  epoch : BitVec 32
  /-- Weft hop count (R264). -/
  hops : BitVec 4
  /-- Fabric time of the decode. -/
  born : BitVec 64
  /-- Migration slot and write-phase counter that counts this write (R83). -/
  phase : Option (BitVec 4 × Bool)
  deriving DecidableEq, Repr

/-- A payload slot of a Weft flit (R258, R260). -/
inductive WSlot where
  | empty
  /-- First slot of a message on a virtual channel, with the slots it takes in all. -/
  | start (vc : BitVec 3) (m : Msg) (slots : Nat)
  /-- A further slot of the channel's message, with its 16 bytes. -/
  | cont (vc : BitVec 3) (bytes : BitVec 128)
  deriving DecidableEq, Repr

/-- What a partner sends in TRAIN flits (Table 11-7), but for `seen`. -/
structure WeftPeer where
  serial : BitVec 64
  session : BitVec 32
  link : BitVec 3
  vcCount : BitVec 4
  fec : Bool
  rxNext : BitVec 12
  rxValid : Bool
  vcSlots : Tab (BitVec 32)
  freed : Tab (BitVec 32)
  deriving DecidableEq, Repr

/-- The sideband of a Weft flit (Table 11-3). -/
inductive Sideband where
  | none
  | snap (vc : BitVec 3) (g : BitVec 32) (occupancy : BitVec 17)
  | time (stamp : BitVec 48) (id : BitVec 8)
  | echo (stamp : BitVec 48) (id : BitVec 8)
  deriving DecidableEq, Repr

/-- A SEQ or NOP flit (Tables 11-2, 11-3): `seq` is none for NOP. -/
structure WFlit where
  seq : Option (BitVec 12)
  ack : BitVec 12
  ackV : Bool
  nak : Bool
  replay : Bool
  slots : List WSlot
  /-- A start bit stands outside the valid slots. -/
  badStart : Bool
  cr0 : Option (BitVec 3 × BitVec 13)
  cr1 : Option (BitVec 3 × BitVec 13)
  side : Sideband
  deriving DecidableEq, Repr

/-- What comes to a Weft receiver: symbols of its four lanes as they arrive, with the messages that the start slots of the
flits in them begin; or what the coding layer found at a flit position (R250, R266, R274). -/
inductive WeftRx where
  /-- Symbols of the lanes as wired, first to last. -/
  | line (sym : List (List (BitVec 10))) (msgs : List Msg)
  /-- The flit fails CRC or its sync pattern. -/
  | bad
  | flit (f : WFlit)
  | train (p : WeftPeer) (seen : Bool)
  deriving DecidableEq, Repr

/-- A CXL.mem request as a PBR link carries it (03 R75): destination and source PIDs in place of a FEID. -/
structure PbrMsg where
  op : Op
  mv : MetaV
  dpid : BitVec 12
  spid : BitVec 12
  tag : BitVec 16
  dev : BitVec 64
  data : BitVec 512
  mask : BitVec 64
  poison : Bool
  deriving DecidableEq, Repr

/-- A transport of Nib and MCTP messages (Table 13-2). -/
inductive Transport where
  | i3c (port : BitVec 1)
  /-- PCIe VDM of a logical upstream port. -/
  | vdm (u : BitVec 7)
  /-- VC0 of a Weft link. -/
  | weft (n : BitVec 3)
  deriving DecidableEq, Repr

/-- A requester of Nib commands (R320): one mailbox, or one EID on one transport. -/
inductive ReqSrc where
  | mailbox (m : BitVec 2)
  | mctp (t : Transport) (eid : BitVec 8)
  deriving DecidableEq, Repr

/-- The requester of a Nib command and the tag it chose (R317). -/
structure Req where
  src : ReqSrc
  tag : BitVec 16
  deriving DecidableEq, Repr

/-- Outcome of an ECC check: the spec's codes either deliver the word, correct it, or report it
uncorrectable; the word is laid out as mem.last_hard (15 R356, R505). -/
inductive Ecc where
  | ok
  | corrected (word : BitVec 64)
  | ue (word : BitVec 64)
  deriving DecidableEq, Repr

/-- A list of the cell buffer that the audit walk finds broken, and its good cells before the break; of a free list, the
cells that the break cuts off (05 R131, R133). -/
inductive BrokenList where
  /-- A VOQ's buffer segment. -/
  | voq (k : BitVec 18) (good : BitVec 20)
  /-- The acknowledgement window of an (input, output) pair. -/
  | window (input output_ : BitVec 6) (good : BitVec 7)
  /-- A bank's free list. -/
  | free (bank : BitVec 4) (cut : BitVec 16)
  deriving DecidableEq, Repr

/-- Outcome of the check of a word that a command names itself (15 R356). -/
inductive EccKind where
  | ok | corrected | ue
  deriving DecidableEq, Repr

/-- Uncorrectable reads that a decode is the first to meet (R211, R222, R370): the protection entry whose read fails, if
one does, the binding's bucket state, and an entry of a heddle bank or the page cache by section type and record index;
`word` is the word that failed. -/
structure DecodeUe where
  prot : Option (BitVec 14)
  meter : Bool
  heddle : Option (BitVec 16 × BitVec 32)
  word : BitVec 64
  deriving DecidableEq, Repr

/-- What the surroundings of a command decide: whether the colophon append it needs is programmed and read back equal
(R458), which fuse burn fails to verify (0 none, 1 the first, 2 the last; R446), and the bytes the random source draws
(R454). -/
structure Env where
  append : Bool
  fuse : BitVec 2
  random : BitVec 384
  deriving DecidableEq, Repr

/-- Every append and burn succeeds; the random bytes read 0. -/
def Env.good : Env := { append := true, fuse := 0, random := 0 }

/-- A token (19 R449, Table 19-3). -/
structure Token where
  magic : BitVec 32
  version : BitVec 16
  kind : BitVec 8
  signer : BitVec 8
  serial : BitVec 64
  nonce : BitVec 384
  arg : BitVec 512
  reserved : BitVec 256
  r : BitVec 384
  s : BitVec 384
  deriving DecidableEq, Repr

/-- What a measurement of an attached device found (R462): whether it speaks SPDM, whether it finished in time, whether
its signature verifies, the digest of its measurement blocks and of its certificate chain, and its version and identity. -/
structure Measured where
  spdm : Bool
  timely : Bool
  sigOk : Bool
  subject : BitVec 384
  cert : BitVec 384
  version : BitVec 8
  vendor : BitVec 16
  device : BitVec 16
  count : BitVec 8
  deriving DecidableEq, Repr

/-- Where a refilled chunk's bad cell lies: in which of the chunk's messages, and whether in its header bytes (05 R130). -/
structure CellPlace where
  inHeader : Bool
  which : BitVec 6
  deriving DecidableEq, Repr

/-- What the checks of a CXL flit find: its CRC, the MAC that covers it, and how many messages of the replay buffer it
acknowledges (04 R105, 10 R242). -/
structure FlitCheck where
  crcOk : Bool
  macOk : Bool
  acks : BitVec 16
  deriving DecidableEq, Repr

/-- Whether a response's data is poisoned, and its DevLoad (08 R206). -/
structure RspMark where
  poison : Bool
  devLoad : BitVec 2
  deriving DecidableEq, Repr

/-- What a device bound to a vPPB is: cache-capable (10 R227), and its slot's control named to this vPPB (10 R246). -/
structure BindMark where
  cache : Bool
  owner : Bool
  deriving DecidableEq, Repr

/-- An IDE_KM message of a host to the responder of its upstream port: the streams are 0 link IDE for CXL.cachemem and 1 the
PCIe link stream (10 R242). -/
inductive IdeKm where
  | query
  | keyProg (stream : BitVec 1) (key : BitVec 256)
  | keySetGo (stream : BitVec 1)
  | keySetStop (stream : BitVec 1)
  deriving DecidableEq, Repr

/-- A register of the virtual switch that a CXL.io read names (10 R239, R244, R245, Table 10-1): an HDM decoder of the
upstream port, or a slot register or AER register of the vPPB the message goes through. -/
inductive SwitchReg where
  | hdmDecoder (k : BitVec 4) (offset : BitVec 8)
  | slotCapabilities
  | slotControl
  | slotStatus
  | aer
  deriving DecidableEq, Repr

/-- Where a CXL.io or CXL.cache message goes at its port: through a vPPB, or the LD it comes from, by number; or, a read, to
a register of the virtual switch seen at a vPPB. -/
inductive IoVia where
  | vppb (v : BitVec 4)
  | reg (v : BitVec 4) (r : SwitchReg)
  deriving DecidableEq, Repr

/-- An SPDM request of a kind that R463's capabilities answer. -/
inductive SpdmReq where
  | version | capabilities | algorithms | digests
  | certificate (offset length : BitVec 16)
  | challenge (nonce : BitVec 256)
  | measurements (index : BitVec 8) (nonce : BitVec 256)
  | keyExchange (nonce : BitVec 256)
  | endSession
  /-- IDE_KM for the IDE streams of logical upstream port u (10 R242). -/
  | ideKm (u : BitVec 7) (msg : IdeKm)
  deriving DecidableEq, Repr

/-- What the surroundings of a boot decide (20 R478): whether a pin or the first power brought it, the straps, the 25 MHz and 100 MHz
inputs present, the health tests, the rails, whether the key store verifies, which records of the colophon ring do not, and
whether the boot's appends succeed. -/
structure BootIn where
  /-- RESET_L or WRESET_L was released, rather than a command's reset being due. -/
  pin : Bool
  powerOn : Bool
  addr : BitVec 3
  recovery : Bool
  planHold : Bool
  ref25 : BitVec 2
  refs : BitVec 3
  entropyOk : Bool
  railsOk : Bool
  keyStoreOk : Bool
  /-- Sequence numbers of the ring's records that do not verify (19 R461). -/
  ringBad : List (BitVec 64)
  appendOk : Bool
  /-- Slots whose short pin is closed (18 R441). -/
  seated : BitVec 24
  deriving DecidableEq, Repr

/-- An MCTP packet (13 R314): source and destination EID, message tag and tag owner, packet sequence, first and last. -/
structure Packet where
  src : BitVec 8
  dst : BitVec 8
  tag : BitVec 3
  owner : Bool
  seq : BitVec 2
  som : Bool
  eom : Bool
  bytes : List Byte
  deriving DecidableEq, Repr

/-- An MCTP control message: Set Endpoint ID, or another one (13 R314). -/
inductive McControl where
  | setEid (eid : BitVec 8)
  | getEid
  | other (command : BitVec 8)
  deriving DecidableEq, Repr

/-- The FM API client: an MCTP source (13 R316). -/
structure FmSrc where
  t : Transport
  eid : BitVec 8
  deriving DecidableEq, Repr

/-- Physical Port Control (13 R316). -/
inductive PortControl where
  | assertPerst | deassertPerst | resetPpb
  deriving DecidableEq, Repr

/-- A command tunnelled to a multi-logical device (13 R316). -/
inductive Tunnelled where
  | ldInfo | ldAllocations
  /-- Set LD Allocations, with the LD count and sizes it asks for. -/
  | setLdAllocations (sizes : List (BitVec 64))
  /-- A dynamic-capacity management command. -/
  | dcd (command : BitVec 8)
  /-- Any other command. -/
  | other
  deriving DecidableEq, Repr

/-- Return code of an FM API command (13 R316, 10 R227). -/
inductive FmRet where
  | success | invalid | unsupported | resources | pending
  deriving DecidableEq, Repr

/-- Rows of the FM API, as a response names them (13 R316). -/
inductive FmCmd where
  | identify | portState | portControl | ppbConfig | switchInfo | bind | unbind | aer | tunnel | ldConfig | ldMemory
  | unsupported
  deriving DecidableEq, Repr

end Sys2Proof
end

