-- ==== Sys2Proof/Syntax.lean ====
section
/-! DEFINITION. The commands of the block: one constructor for each row of spec/opcode_table.json, with the row's
operands. A command that an owner sends carries its requester and the payload fields of its table, reserved fields left
out; an event carries what the outside decides: which resource it concerns, and what the surroundings saw. -/

namespace Sys2Proof

/-- A command or event of the device. -/
inductive Instr where
  /-- HOST_REQUEST_DECODE (R71): A CXL.mem M2S Req or RwD taken at an upstream port is decoded through window,
  binding, extent and page entry, checked, metered and enqueued toward its xp. -/
  | hostRequestDecode (u : BitVec 7) (op : Op) (mv : MetaV) (hpa : BitVec 64) (tag : BitVec 16) (data : BitVec 512)
      (mask : BitVec 64) (poison : Bool) (ue : DecodeUe)
  /-- PAGE_ENTRY_FETCH_DONE (R69): A page entry read from HBM after a page-cache miss returns, replaces the
  cache line and lets decode continue. -/
  | pageEntryFetchDone (page : BitVec 23) (first second : Ecc) (ue : DecodeUe)
  /-- CXL_FLIT_RECEIVE (R105): A flit received at a CXL port is checked by CRC and FEC and split into messages,
  whose cells may then be written. -/
  | cxlFlitReceive (u : BitVec 7) (corrected : Bool) (check : FlitCheck) (hasMsg : Bool) (pbr : Option PbrMsg)
  /-- CXL_RESPONSE_RECEIVE (R19): A response received at an egress port is matched through its tag map to
  requester, binding and tag and returned. -/
  | cxlResponseReceive (u : BitVec 7) (tag : BitVec 16) (op : Op) (mv : MetaV) (data : BitVec 512) (mark : RspMark)
  /-- CXL_IO_MESSAGE (R61): A CXL.io or CXL.cache message is routed by the virtual switch's routing rather than
  through windows. -/
  | cxlIoMessage (u : BitVec 7) (via : IoVia) (op : Op) (tag : BitVec 16) (data : BitVec 512) (len : BitVec 16)
  /-- WAITING_MESSAGE_ADMIT (R118): A message waiting in its ingress receive buffer is admitted once Table 5-1
  allows, and link credit for it returns. -/
  | waitingMessageAdmit (input : BitVec 6) (mclass : BitVec 3)
  /-- SHAPER_PASS (R195): The head of a binding's shaper list passes once its bucket covers its length and is
  placed by Table 5-1. -/
  | shaperPass (binding : BitVec 13)
  /-- BUCKET_REFILL (R200): At every weave-frame boundary each binding's committed, peak and shaper buckets
  refill. -/
  | bucketRefill (ue : Option (BitVec 13 × BitVec 64))
  /-- TRAF_SET_APPLY (R202): An accepted traffic set takes effect at the first weave-frame boundary after its
  acceptance. -/
  | trafSetApply
  /-- QUEUE_SAMPLE (R207): At each sample time the depth and head delay of every output and service class are
  sampled. -/
  | queueSample (xp : BitVec 6)
  /-- SAMPLE_WINDOW_END (R207): At the end of a 256-sample window the last, maximum and mean are latched into
  the xp's registers. -/
  | sampleWindowEnd (xp : BitVec 6)
  /-- SLOT_MATCH (R100): For each slot on a plane, woven pairs are fixed and the shuttle matcher fills the rest
  in three request-grant-accept iterations. -/
  | slotMatch (plane : BitVec 1)
  /-- CELL_ARRIVAL (R97): A cell arriving at an output is ECC-checked, acknowledged, resequenced and moved into
  egress staging. -/
  | cellArrival (src dst : BitVec 6) (seq : BitVec 12) (header payload : Ecc) (inHeader : Bool)
  /-- CELL_ACK_RECEIVE (R97): An acknowledgement frees the cell's buffer at the input and ends its charge. -/
  | cellAckReceive (src dst : BitVec 6) (seq : BitVec 12)
  /-- CELL_RESEND_TIMEOUT (R97): A cell unacknowledged for 32 cell times is resent with the same seq, on the
  other plane if it is up. -/
  | cellResendTimeout (src dst : BitVec 6) (seq : BitVec 12)
  /-- EGRESS_SELECT (R205): Once per message slot an output's transmitter picks the next message by promotion
  and rank and packs it. -/
  | egressSelect (xp : BitVec 6) (credits : BitVec 8)
  /-- URGENT_PROMOTION (R102): A starvation timer reaching its limit promotes its queue to urgent for one
  quantum. -/
  | urgentPromotion (atOutput : Bool) (xp peer : BitVec 6) (sclass : BitVec 3)
  /-- PLANE_SYMPTOM (R109): A symptom on an UP plane starts the at-most-8 µs path to its declaration as lost. -/
  | planeSymptom (plane : BitVec 1) (cause : BitVec 2)
  /-- PLANE_SELF_CHECK (R109): Every 8 µs check cells cross every input-output path of each plane in idle slots.
  -/
  | planeSelfCheck (plane : BitVec 1) (passed : Bool)
  /-- PLANE_DOWN (R110): A plane is declared lost: inputs stop using it, unacknowledged cells are resent on the
  other plane and PLANE_LOSS is indexed. -/
  | planeDown (plane : BitVec 1)
  /-- PLANE_CHECK_END (R112): The post-reset one-frame self-check ends, putting the plane in STANDBY or leaving
  it DOWN with check_fail. -/
  | planeCheckEnd (plane : BitVec 1) (passed : Bool)
  /-- PLANE_REJOIN_WRITE (R112): A write of xbar.plane_ctl.rejoin requests a STANDBY plane to rejoin at the next
  frame boundary. -/
  | planeRejoinWrite (plane : BitVec 1)
  /-- PLANE_REJOINED (R112): At the frame boundary after rejoin the plane carries traffic again and XBAR-0x0002
  is raised. -/
  | planeRejoined (plane : BitVec 1)
  /-- LOOM_LINK_SYMPTOM (R113): A retry failure, lane unlock or tile reset on a loom die-to-die link starts its
  30 µs failure timer. -/
  | loomLinkSymptom (loom : BitVec 3)
  /-- LOOM_LINK_DOWN (R113): The loom link is declared failed: its seven outputs are HELD, LOOM_LINK is indexed
  and XBAR-0x0020 raised. -/
  | loomLinkDown (loom : BitVec 3)
  /-- LOOM_LINK_RETRY (R113): A failed loom link retries its retrain every 1 ms. -/
  | loomLinkRetry (loom : BitVec 3)
  /-- LOOM_LINK_UP (R113): A failed loom link retrains and its outputs with live external links enter RESUMING.
  -/
  | loomLinkUp (loom : BitVec 3)
  /-- RESUME_COMPLETE (R122): An output in RESUMING whose VOQs have all drained past their marks returns to UP.
  -/
  | resumeComplete (xp : BitVec 6)
  /-- RESERVOIR_REFILL (R128): A reservoir segment's head chunk is moved back into the buffer message by message
  when room allows. -/
  | reservoirRefill (input output_ : BitVec 6) (mclass sclass : BitVec 3) (header payload : Ecc) (place : CellPlace)
  /-- AUDIT_PASS_START (R131): An audit pass starts with a new colour and begins walking every list. -/
  | auditPassStart
  /-- AUDIT_RUN (R133): A write of buf.audit_ctl.run starts an audit pass at once if none is running. -/
  | auditRun
  /-- AUDIT_WALK_DONE (R131): The audit walk completes and the sweep of every cell's metadata begins. -/
  | auditWalkDone (broken : List BrokenList)
  /-- AUDIT_SWEEP_DONE (R131): The sweep completes, having reclaimed every cell without the pass colour. -/
  | auditSweepDone
  /-- AGE_CHECK (R134): At least every 100 µs VOQ head stamps are compared with fabric time and over-age head
  messages discarded. -/
  | ageCheck
  /-- PROXY_REQUEST (R152): A proxy slice takes a REQ for a shared line and acts by the line state table, or
  parks it. -/
  | proxyRequest (k : BitVec 3)
  /-- PARKED_TAKE_TRACKER (R149): A parked message takes a freed tracker in park order. -/
  | parkedTakeTracker (k : BitVec 3)
  /-- DIRECTORY_FILL (R146): A snoop-filter set read after a directory-cache miss returns and is merged and
  installed. -/
  | directoryFill (sa : BitVec 48) (ecc : Ecc)
  /-- BIRSP_RECEIVE (R152): A BIRsp is counted in its round; the last one lets the tracker's read or forward
  proceed. -/
  | birspReceive (k : BitVec 3)
  /-- HOLDER_WRITEBACK (R150): A write from a recorded holder takes a writeback slot and is applied on arrival.
  -/
  | holderWriteback (k : BitVec 3)
  /-- BICONFLICT (R151): A BIConflict is answered within 1 µs with BIConflictAck without a tracker. -/
  | biconflict (k : BitVec 3)
  /-- PROXY_BACKING_RESPONSE (R152): The backing device's response completes the tracker toward the host and
  ends it, releasing the line's wait list. -/
  | proxyBackingResponse (k : BitVec 3)
  /-- BI_TIMEOUT (R154): A BISnp unanswered for bi_timeout raises PRXY-0x0010 and makes the host depart. -/
  | biTimeout (sa : BitVec 48) (u : BitVec 7)
  /-- SWEEP_DONE (R154): The departure sweep completes, clears the departed bit and raises PRXY-0x0012. -/
  | sweepDone
  /-- DOORBELL (R170): A write of a queue doorbell publishes new descriptors, or puts the queue in ERROR on
  overrun. -/
  | doorbell (inst_ : BitVec 10) (q : BitVec 2) (producer : BitVec 16)
  /-- QUEUE_ENABLE_WRITE (R170): A write of a queue's enable starts the queue or stops it and resets its indices
  and ERROR. -/
  | queueEnableWrite (inst_ : BitVec 10) (q : BitVec 2) (value : BitVec 32)
  /-- DESCRIPTOR_FETCH_DONE (R171): A descriptor fetch completes and the descriptor becomes ready. -/
  | descriptorFetchDone (half : BitVec 1)
  /-- DESCRIPTOR_DISPATCH (R162): A ready descriptor is given a free channel on the eligible engine with fewest
  busy channels. -/
  | descriptorDispatch
  /-- LINE_ISSUE (R163): An engine issues the next line of one busy channel in rotation, taking a token for
  writes. -/
  | lineIssue (engine_ : BitVec 4) (ue : DecodeUe)
  /-- LINE_COMPLETE (R173): A line's completion returns to the engine, and a descriptor whose lines are all done
  has its record written. -/
  | lineComplete (half : BitVec 1)
  /-- MIGRATION_SPAN_OPEN (R84): The engine opens a span of the migrating page and flips the phase bit, then
  waits for prior-phase writes. -/
  | migrationSpanOpen (slot_ : BitVec 4)
  /-- MIGRATION_SPAN_CLOSE (R84): When a span's writes complete the watermark advances and the stall queue is
  released to the new side. -/
  | migrationSpanClose (slot_ : BitVec 4)
  /-- TOKEN_REFILL (R174): Every 4 µs each instance's token bucket is refilled by its share up to its burst. -/
  | tokenRefill
  /-- FREEZE_COMPLETE (R167): A FREEZING instance with no line in flight and all due completions written becomes
  FROZEN. -/
  | freezeComplete (inst_ : BitVec 10)
  /-- INSTANCE_RESET_WRITE (R182): A write of inst.ctl.reset starts a reset of the instance. -/
  | instanceResetWrite (inst_ : BitVec 10)
  /-- INSTANCE_RESET_COMPLETE (R182): The instance's in-flight lines reach 0, its state is cleared and
  SCRB-0x0030 raised. -/
  | instanceResetComplete (inst_ : BitVec 10)
  /-- ENGINE_FAULT (R176): An engine's internal uncorrectable error completes its descriptors with ENGINE_FAULT
  and resets it. -/
  | engineFault (engine_ : BitVec 4)
  /-- MBOX_T2O_SEND (R188): A write of send in the tenant mailbox sets full and raises a mailbox event to the
  fabric manager. -/
  | mboxT2oSend (inst_ : BitVec 10) (len : BitVec 9)
  /-- MBOX_O2T_ACK (R189): A write of 1 to o2t full frees the fabric manager's message slot. -/
  | mboxO2tAck (inst_ : BitVec 10)
  /-- PLAN_LOAD_BEGIN (R44): Command 0x0201 starts a plan load into the shadow. -/
  | planLoadBegin (r : Req) (kind : BitVec 16) (length : BitVec 64)
  /-- PLAN_LOAD_DATA (R44): Command 0x0202 delivers contiguous image bytes, writing PAGE records into free page
  blocks. -/
  | planLoadData (r : Req) (offset : BitVec 64) (data : List Byte)
  /-- PLAN_COMMIT (R45): Command 0x0203 starts validation, shadow fill and arming of the loaded plan. -/
  | planCommit (r : Req) (flags : BitVec 32)
  /-- PLAN_COMMIT_COMPLETE (R46): Validation ends, the PLAN record appended, and activation is armed or the plan
  rejected. -/
  | planCommitComplete (stamp : BitVec 64) (env : Env)
  /-- PLAN_ABORT (R50): Command 0x0204 abandons a staged or armed plan and frees the blocks it carried. -/
  | planAbort (r : Req) (env : Env)
  /-- PLAN_STATUS (R60): Command 0x0205 returns the plan, shadow state and current set chain. -/
  | planStatus (r : Req)
  /-- PLAN_APPLY_ALTERNATE (R60): Command 0x0206 enters a named child set of the current set. -/
  | planApplyAlternate (r : Req) (set : BitVec 16)
  /-- PLAN_RESTORE (R55): Command 0x0207 restores to set 0 or an ancestor of the current set. -/
  | planRestore (r : Req) (set : BitVec 16)
  /-- HEDDLE_READ (R503): Command 0x0208 returns records of a section as currently in force. -/
  | heddleRead (r : Req) (type : BitVec 16) (index : BitVec 32) (count : BitVec 16)
  /-- PLAN_ACTIVATION (R48): At the armed boundary every shadow bank becomes active, a rule epoch begins and
  triggers are re-evaluated. -/
  | planActivation
  /-- PLAN_PERSIST (R479): After activation of a PERSIST commit the chain is written to the unused half of the
  flash plan area. -/
  | planPersist
  /-- TRIGGER_LOOKUP (R51): A trigger condition is looked up in the current set's trigger table and a valid
  entry's set begins to apply. -/
  | triggerLookup
  /-- PATCH_APPLY_DONE (R54): An alternate's patches finish and the next queued trigger is looked up. -/
  | patchApplyDone
  /-- ALTERNATE_WEAVE_SWITCH (R51): A loaded alternate weave takes effect at the next weave-frame boundary. -/
  | alternateWeaveSwitch
  /-- APPLY_NOTICE_RECEIVE (R53): A received APPLY notice is looked up under class NOTICE unless its ID is in
  the current chain. -/
  | applyNoticeReceive (link : BitVec 3) (id : BitVec 8)
  /-- RESTORE_NOTICE_RECEIVE (R55): A RESTORE notice carrying the entering ID restores a mode-2 set to its
  parent. -/
  | restoreNoticeReceive (link : BitVec 3) (id : BitVec 8)
  /-- STABLE_PERIOD_EXPIRY (R55): A mode-1 set whose trigger resource stayed up for stable_period restores to
  its parent. -/
  | stablePeriodExpiry
  /-- ALTERNATE_RESTORED (R56): A restoration rewrites patched entries at a frame boundary, switches the weave
  and raises HEDL-0x0003. -/
  | alternateRestored
  /-- HEDDLE_WORD_RELOAD (R370): An uncorrectable heddle word is reloaded from the ACTIVE slot with chain
  patches within 10 µs. -/
  | heddleWordReload (section_ : BitVec 16) (index : BitVec 32) (offset : BitVec 28) (first second : Ecc)
  /-- BINDING_READ (R89): Command 0x0301 returns a binding's context and counts. -/
  | bindingRead (r : Req) (binding : BitVec 16)
  /-- BINDING_ACTIVATE (R77): Command 0x0302 schedules a STAGED binding to become ACTIVE at the next weave-frame
  boundary. -/
  | bindingActivate (r : Req) (binding : BitVec 16)
  /-- BINDING_ACTIVATION_BOUNDARY (R77): At the boundary a binding from BINDING_ACTIVATE enters ACTIVE with full
  buckets. -/
  | bindingActivationBoundary
  /-- BINDING_FREEZE (R77): Command 0x0303 moves an ACTIVE binding to FROZEN. -/
  | bindingFreeze (r : Req) (binding : BitVec 16)
  /-- BINDING_THAW (R77): Command 0x0304 returns a FROZEN binding to ACTIVE. -/
  | bindingThaw (r : Req) (binding : BitVec 16)
  /-- BINDING_DRAIN (R77): Command 0x0305 moves a binding to DRAINING, optionally completing held requests in
  error. -/
  | bindingDrain (r : Req) (binding : BitVec 16) (flags : BitVec 16)
  /-- BINDING_REATTACH (R89): Command 0x0306 returns a DETACHED binding to ACTIVE when its targets are up with
  recorded identities. -/
  | bindingReattach (r : Req) (binding : BitVec 16)
  /-- BINDING_SET_HOLD (R81): Command 0x0307 changes a binding's hold_limit at once. -/
  | bindingSetHold (r : Req) (binding : BitVec 16) (limit : BitVec 32)
  /-- WINDOW_READ (R89): Command 0x0308 returns a window record. -/
  | windowRead (r : Req) (port : BitVec 8) (window : BitVec 8)
  /-- DECODE_PROBE (R89): Command 0x0309 runs decode for an address without sending anything and reports the
  outcome. -/
  | decodeProbe (r : Req) (port : BitVec 8) (hpa : BitVec 64)
  /-- MIGRATION_STATUS (R89): Command 0x030A returns a migration slot's state. -/
  | migrationStatus (r : Req) (slot : BitVec 8)
  /-- HOLD_EXPIRED (R80): A binding's hold timer reaching hold_limit completes its held requests in error and
  detaches an ACTIVE binding. -/
  | holdExpired (binding : BitVec 13)
  /-- PORT_SYMPTOM (R235): An uncommanded L0 exit or flit-retry failure starts the down_detect_us wait on a CXL
  port. -/
  | portSymptom (u : BitVec 7) (retry : Bool)
  /-- PORT_DOWN_DECLARE (R236): A CXL port is declared down: output HELD, LINK_DOWN raised, PORT_DOWN indexed
  and hold timers started. -/
  | portDownDeclare (u : BitVec 7)
  /-- HOST_HOT_RESET (R235): A Hot Reset or Link Disable received on a USP declares the port down at once. -/
  | hostHotReset (u : BitVec 7)
  /-- IDE_FAIL (R243): An IDE integrity failure discards the epoch's flits and declares the port down at once.
  -/
  | ideFail (u : BitVec 7)
  /-- PORT_L0_ENTRY (R232): A CXL port's training reaches L0 and the port enters CONFIRM. -/
  | portL0Entry (u : BitVec 7) (rate : BitVec 3) (width : BitVec 5) (flit256 lopt recovered : Bool)
  /-- PORT_CONFIRM (R233): Identity read and IDE keyed, the port reaches UP and its output RESUMING, or is
  purged on a differing identity. -/
  | portConfirm (u : BitVec 7) (ident ldMap : BitVec 64) (secure : Bool)
  /-- CONFIRM_TIMEOUT (R233): A DSP or PBR port in CONFIRM for 2 ms raises PORT-0x0003. -/
  | confirmTimeout (u : BitVec 7)
  /-- PORT_TAG_TIMEOUT (R238): An egress tag outstanding beyond tag_timeout_ms completes in error and is freed.
  -/
  | portTagTimeout (u : BitVec 7) (tag : BitVec 16)
  /-- RETRAIN_TIMEOUT (R248): A commanded retrain not in L0 within 100 ms declares the port down. -/
  | retrainTimeout (u : BitVec 7)
  /-- PORT_COMMAND_COMPLETE (R248): A pending PORT_RETRAIN, PORT_DISABLE or PORT_ENABLE completes on UP or OFF,
  or after 100 ms. -/
  | portCommandComplete (u : BitVec 7)
  /-- PORT_STATUS (R248): Command 0x0401 returns a port's status, identity and counters. -/
  | portStatus (r : Req) (port half : BitVec 8)
  /-- PORT_ACCEPT_IDENTITY (R248): Command 0x0402 records the current partner identity and lets the port reach
  UP. -/
  | portAcceptIdentity (r : Req) (port half : BitVec 8)
  /-- PORT_RETRAIN (R248): Command 0x0403 performs a commanded retrain at a given rate. -/
  | portRetrain (r : Req) (port half rate : BitVec 8)
  /-- PORT_DISABLE (R248): Command 0x0404 sends Link Disable and declares the port down. -/
  | portDisable (r : Req) (port half : BitVec 8)
  /-- PORT_ENABLE (R248): Command 0x0405 lets a disabled port train again. -/
  | portEnable (r : Req) (port half : BitVec 8)
  /-- PORT_COUNTERS_CLEAR (R248): Command 0x0406 clears a port's counters. -/
  | portCountersClear (r : Req) (port half : BitVec 8)
  /-- SLOT_CONTROL_WRITE (R246): A host write to Slot Control is applied to the slot when host_hp = 1 and sets
  Command Completed. -/
  | slotControlWrite (u : BitVec 7) (via : BitVec 11) (value : BitVec 16)
  /-- HDM_DECODER_WRITE (R240): A host write to an HDM decoder field is ignored. -/
  | hdmDecoderWrite (u : BitVec 7) (decoder : BitVec 4) (offset : BitVec 8) (value : BitVec 32)
  /-- WEFT_FLIT_SEND (R257): A Weft link sends its next SEQ, NOP or TRAIN flit with acknowledgements, credits
  and sideband. -/
  | weftFlitSend (link : BitVec 3)
  /-- WEFT_FLIT_RECEIVE (R266): A received Weft flit is checked, accepted, dropped as duplicate or NAKed, and
  its acknowledgements and credits applied. -/
  | weftFlitReceive (link : BitVec 3) (fecSymbols : BitVec 16) (fecBad : BitVec 8) (rx : WeftRx)
  /-- REPLAY_TIMEOUT (R268): No acknowledgement advance for replay_timeout runs a replay round from the oldest
  unacknowledged flit. -/
  | replayTimeout (link : BitVec 3)
  /-- SNAP_SEND (R271): Every resync_us the receiver sends a SNAP for each enabled channel. -/
  | snapSend (link : BitVec 3)
  /-- TSYNC_TIME_SEND (R272): At each multiple of tsync_us each end places a TIME sideband with its departure
  stamp. -/
  | tsyncTimeSend (link : BitVec 3)
  /-- TIME_INFO_SEND (R340): Once per millisecond each switch sends TIME_INFO on every UP Weft link. -/
  | timeInfoSend
  /-- WEFT_SYMPTOM (R278): Loss of alignment or block lock or of signal puts the link in RELOCK and starts the
  40 µs wait. -/
  | weftSymptom (link : BitVec 3)
  /-- WEFT_RELOCK_DONE (R278): A link in RELOCK reacquires lock and returns to UP, counting a RECOVERY. -/
  | weftRelockDone (link : BitVec 3)
  /-- WEFT_DOWN_DECLARE (R279): A Weft link is declared down: output HELD, LINK_DOWN raised, WEFT_DOWN indexed
  and TRAIN flits sent. -/
  | weftDownDeclare (link : BitVec 3)
  /-- WEFT_TRAIN_STEP (R273): A Weft link advances through DETECT, EQUALIZE and ALIGN as signal, convergence and
  lock arrive. -/
  | weftTrainStep (link : BitVec 3)
  /-- TRAIN_TIMEOUT (R273): A Weft training state's timeout returns it to an earlier state and raises
  WEFT-0x0003. -/
  | trainTimeout (link : BitVec 3)
  /-- WEFT_PARAM_END (R276): PARAM completes and the link reaches UP under a RESUME, FRESH or NEW outcome. -/
  | weftParamEnd (link : BitVec 3)
  /-- WEFT_TAG_TIMEOUT (R281): A Weft egress tag outstanding beyond tag_timeout_ms completes in error and is
  freed. -/
  | weftTagTimeout (link : BitVec 3) (tag : BitVec 16)
  /-- WEFT_COMMAND_COMPLETE (R283): A pending WEFT_RETRAIN, WEFT_DISABLE or WEFT_ENABLE completes on UP or OFF,
  or after 200 ms. -/
  | weftCommandComplete (link : BitVec 3)
  /-- WEFT_STATUS (R282): Command 0x0501 returns a link's status, identity, sequence, credits and counters. -/
  | weftStatus (r : Req) (link : BitVec 8)
  /-- WEFT_CONFIG (R283): Command 0x0502 configures an OFF link's channels, timers and FEC. -/
  | weftConfig (r : Req) (link vcCount fec : BitVec 8) (vcSlots : BitVec 256) (replayTimeout resync tsync tagTimeout :
      BitVec 16)
  /-- WEFT_ACCEPT_IDENTITY (R283): Command 0x0503 records the current partner and lets a NEW link reach UP. -/
  | weftAcceptIdentity (r : Req) (link : BitVec 8)
  /-- WEFT_RETRAIN (R283): Command 0x0504 declares the link down with cause COMMAND and retrains it. -/
  | weftRetrain (r : Req) (link : BitVec 8)
  /-- WEFT_DISABLE (R283): Command 0x0505 declares the link down and takes it OFF. -/
  | weftDisable (r : Req) (link : BitVec 8)
  /-- WEFT_ENABLE (R283): Command 0x0506 takes an OFF link to DETECT. -/
  | weftEnable (r : Req) (link : BitVec 8)
  /-- WEFT_COUNTERS_CLEAR (R282): Command 0x0507 clears a link's counters. -/
  | weftCountersClear (r : Req) (link : BitVec 8)
  /-- REF_LOST (R287): A 100 MHz or Weft reference input without edges for 1 µs is declared lost and LANE-0x0030
  raised. -/
  | refLost (input : BitVec 2)
  /-- LANE_LOSS_OF_SIGNAL (R287): A lane seeing no transition for 100 ns reports loss of signal to its
  controller. -/
  | laneLossOfSignal (lane : BitVec 9)
  /-- LANE_CONVERGED (R292): A receiver whose taps have not moved for 2 µs has converged and its equalisation
  ends. -/
  | laneConverged (lane : BitVec 9) (ctle : BitVec 5) (h1 h2 : BitVec 8) (floatPos : BitVec 24) (rxInv : Bool)
  /-- ADAPT_AT_LIMIT (R293): A tap held at its limit for 1 ms raises LANE-0x0010 once per lane and training. -/
  | adaptAtLimit (lane : BitVec 9)
  /-- L0P_NARROW (R297): A port idle for l0p_idle_us with no woven slot narrows to x1. -/
  | l0pNarrow (u : BitVec 7) (accepted : Bool)
  /-- L0P_WIDEN (R298): A narrowed port starts widening on a queued message, a partner request or a weave load.
  -/
  | l0pWiden (u : BitVec 7) (partner : Bool)
  /-- WIDEN_FAIL (R298): Lanes not resumed within 5 µs leave the link narrower and raise LANE-0x0020. -/
  | widenFail (u : BitVec 7) (resumed : BitVec 5)
  /-- WIDEN_RETRY (R298): A failed widening is retried every 1 ms. -/
  | widenRetry (u : BitVec 7)
  /-- TEST_INJECT (R301): A write of lane.test_ctl.inject inverts one transmitted bit. -/
  | testInject (lane : BitVec 9)
  /-- LANE_MARGIN_DONE (R302): A margin scan ends, or aborts on L0 exit, and LANE_MARGIN completes with the
  steps found. -/
  | laneMarginDone (lane : BitVec 9) (left right down up : BitVec 8) (points : BitVec 16)
  /-- LANE_STATUS (R303): Command 0x0601 returns a lane's status, adaptation and preset. -/
  | laneStatus (r : Req) (lane : BitVec 16)
  /-- LANE_PRESET_SET (R291): Command 0x0602 replaces one preset record in the working copy. -/
  | lanePresetSet (r : Req) (record : BitVec 128)
  /-- LANE_TEST_START (R300): Command 0x0603 starts a PRBS test on lanes of an OFF port or link. -/
  | laneTestStart (r : Req) (lane count : BitVec 16) (mode pattern rate : BitVec 8)
  /-- LANE_TEST_STOP (R303): Command 0x0604 stops a test and returns its counts. -/
  | laneTestStop (r : Req) (lane count : BitVec 16)
  /-- LANE_MARGIN (R302): Command 0x0605 starts an eye margin scan of one lane. -/
  | laneMargin (r : Req) (lane : BitVec 16) (eye dwell : BitVec 8) (errLimit : BitVec 32)
  /-- LANE_POWER_CFG (R303): Command 0x0606 sets a port's L0p idle time. -/
  | lanePowerCfg (r : Req) (port half : BitVec 8) (idle : BitVec 16)
  /-- LANE_REF_SELECT (R287): Command 0x0607 switches a loom to the other 100 MHz input while its CXL ports are
  OFF. -/
  | laneRefSelect (r : Req) (loom ref : BitVec 8)
  /-- MAILBOX_GO (R313): A write of mbx.ctl.go accepts the command in the request buffer. -/
  | mailboxGo (m : BitVec 2)
  /-- MAILBOX_RESPONSE (R313): The device writes a response, clears busy and go, sets done and may signal MSI-X.
  -/
  | mailboxResponse (m : BitVec 2)
  /-- MAILBOX_DONE_CLEAR (R313): A write of 1 to mbx.status.done frees the mailbox. -/
  | mailboxDoneClear (m : BitVec 2)
  /-- MCTP_PACKET_RECEIVE (R314): An MCTP packet is reassembled into a message, forwarded by the bridge table or
  dropped. -/
  | mctpPacketReceive (t : Transport) (p : Packet)
  /-- MCTP_CONTROL (R314): An MCTP control message, including Set Endpoint ID, is answered on any transport. -/
  | mctpControl (t : Transport) (eid : BitVec 8) (msg : McControl)
  /-- SPDM_REQUEST (R463): An SPDM 1.3 request is answered by the device as responder with alias-signed
  responses. -/
  | spdmRequest (t : Transport) (eid : BitVec 8) (q : SpdmReq)
  /-- HW_RESPONDER_ANSWER (R504): A Nib request while firmware is not RUNNING is answered BUSY or HW_FAULT by
  the hardware responder. -/
  | hwResponderAnswer (r : Req) (opcode : BitVec 16)
  /-- PENDING_RESULT (R321): A pending command finishes, its result is stored under its ticket and a COMPLETE
  event queued. -/
  | pendingResult (ticket status : BitVec 16) (detail : BitVec 32) (payload : List Byte)
  /-- EVENT_NOTICE_SEND (R323): Coalesced EVENT_NOTICE messages and MSI-X vector 0 signal new event records. -/
  | eventNoticeSend
  /-- FW_HANG (R307): Watchdog expiry raises MGMT-0x0001 and restarts the management core from flash. -/
  | fwHang
  /-- FW_RESTART_DONE (R307): Firmware becomes RUNNING again after a restart and an FW_RESTARTED event is
  queued. -/
  | fwRestartDone
  /-- MAKER_LEVEL_EXPIRY (R310): Maker level ends after 30 min without a maker-only command. -/
  | makerLevelExpiry
  /-- REGISTER_WRITE (R9): A DCW register write without behaviour of its own is applied by its field access
  types. -/
  | registerWrite (offset : BitVec 26) (size : BitVec 7) (value : BitVec 512)
  /-- DEVICE_IDENTIFY (R329): Command 0x0101 returns identity and nominal and available capacity. -/
  | deviceIdentify (r : Req)
  /-- DEVICE_STATUS (R330): Command 0x0102 returns firmware state, degradation, uptime and event pointers. -/
  | deviceStatus (r : Req)
  /-- RESULT_FETCH (R321): Command 0x0103 returns a ticket's stored result and frees the ticket. -/
  | resultFetch (r : Req) (ticket : BitVec 16)
  /-- EVENT_READ (R330): Command 0x0104 returns event records from a sequence number. -/
  | eventRead (r : Req) (fromSeq : BitVec 32) (max_ : BitVec 16)
  /-- EVENT_ACK (R330): Command 0x0105 frees event records up to a sequence number. -/
  | eventAck (r : Req) (seq : BitVec 32)
  /-- EVENT_SUBSCRIBE (R330): Command 0x0106 adds or removes an EID for event notices. -/
  | eventSubscribe (r : Req) (eid enable : BitVec 8)
  /-- DCW_READ (R330): Command 0x0107 reads DCW registers by 8-byte accesses. -/
  | dcwRead (r : Req) (offset : BitVec 32) (count : BitVec 16)
  /-- DCW_WRITE (R330): Command 0x0108 writes DCW registers by 8-byte accesses. -/
  | dcwWrite (r : Req) (offset : BitVec 32) (values : List (BitVec 64))
  /-- FUNCTION_EXPOSE (R325): Command 0x0109 maps or unmaps a scribe VF to an instance. -/
  | functionExpose (r : Req) (port vf : BitVec 8) (inst_ : BitVec 16)
  /-- MCTP_BRIDGE_SET (R315): Command 0x010A writes an MCTP bridge table entry. -/
  | mctpBridgeSet (r : Req) (entry first last transport index : BitVec 8)
  /-- DEVICE_RESET (R484): Command 0x010B starts a cold, warm or management reset after sending its response. -/
  | deviceReset (r : Req) (type : BitVec 8)
  /-- FM_IDENTIFY_SWITCH_DEVICE (R316): FM API Identify Switch Device is answered per CXL 3.2. -/
  | fmIdentifySwitchDevice (q : FmSrc)
  /-- FM_GET_PHYSICAL_PORT_STATE (R316): FM API Get Physical Port State reports port states as port.status gives
  them. -/
  | fmGetPhysicalPortState (q : FmSrc) (us : List (BitVec 7))
  /-- FM_PHYSICAL_PORT_CONTROL (R316): FM API Physical Port Control asserts or releases a bay's PERST or resets
  a PPB as PORT_RETRAIN. -/
  | fmPhysicalPortControl (q : FmSrc) (u : BitVec 7) (op : PortControl)
  /-- FM_SEND_PPB_CONFIG_REQUEST (R316): FM API Send PPB CXL.io Configuration Request is carried out. -/
  | fmSendPpbConfigRequest (q : FmSrc) (u : BitVec 7) (write : Bool) (register : BitVec 12) (data : BitVec 32)
  /-- FM_GET_VIRTUAL_SWITCH_INFO (R316): FM API Get Virtual CXL Switch Info is answered. -/
  | fmGetVirtualSwitchInfo (q : FmSrc) (usp : BitVec 7)
  /-- FM_BIND_VPPB (R241): FM API Bind vPPB binds a vPPB to a logical DSP or LD when its command completes. -/
  | fmBindVppb (q : FmSrc) (usp : BitVec 7) (vppb : BitVec 4) (u : BitVec 7) (ld : Option (BitVec 4)) (mark : BindMark)
  /-- FM_UNBIND_VPPB (R241): FM API Unbind vPPB resolves outstanding CXL.io and CXL.cache messages through the
  vPPB. -/
  | fmUnbindVppb (q : FmSrc) (usp : BitVec 7) (vppb : BitVec 4)
  /-- FM_GENERATE_AER_EVENT (R316): FM API Generate AER Event is carried out. -/
  | fmGenerateAerEvent (q : FmSrc) (usp : BitVec 7) (vppb : BitVec 4) (error : BitVec 32) (header : BitVec 128)
  /-- FM_TUNNEL_MANAGEMENT_COMMAND (R316): FM API Tunnel Management Command carries a command to an MLD port,
  including LD and DCD management commands. -/
  | fmTunnelManagementCommand (q : FmSrc) (u : BitVec 7) (cmd : Tunnelled)
  /-- FM_SEND_LD_CONFIG_REQUEST (R316): FM API Send LD CXL.io Configuration Request is carried out. -/
  | fmSendLdConfigRequest (q : FmSrc) (u : BitVec 7) (ld : BitVec 4) (write : Bool) (register : BitVec 12) (data :
      BitVec 32)
  /-- FM_SEND_LD_MEMORY_REQUEST (R316): FM API Send LD CXL.io Memory Request is carried out. -/
  | fmSendLdMemoryRequest (q : FmSrc) (u : BitVec 7) (ld : BitVec 4) (write : Bool) (offset : BitVec 64) (data : List
      Byte)
  /-- FM_SET_LD_ALLOCATIONS (R316): A successful tunnelled Set LD Allocations records the resulting LD map as
  partner identity. -/
  | fmSetLdAllocations (u : BitVec 7) (good : Bool) (sizes : List (BitVec 64))
  /-- FM_UNSUPPORTED (R316): Any other FM API command returns Unsupported. -/
  | fmUnsupported (q : FmSrc) (command : BitVec 16)
  /-- REF_SWITCHED (R333): Loss of the selected 25 MHz input moves the PLL to the other input and raises
  TELE-0x0001. -/
  | refSwitched (input : BitVec 1)
  /-- TIME_OFFSET_MEASUREMENT (R335): An offset measurement from the time source steers fabric time and advances
  the time state. -/
  | timeOffsetMeasurement
  /-- TIME_SOURCE_CHANGE (R334): The source in use becomes invalid and the next valid candidate takes over,
  entering ACQUIRE or HOLDOVER. -/
  | timeSourceChange
  /-- TIME_SOURCE_REVERT (R334): A higher-priority candidate valid for revert_s takes over as source. -/
  | timeSourceRevert
  /-- TSYNC_IN_PULSE (R340): A TSYNC_IN pulse is stamped, classed by width and used as an offset measurement or
  counted as bad. -/
  | tsyncInPulse (high : BitVec 32)
  /-- TSYNC_OUT_PULSE (R339): TSYNC_OUT rises for a second pulse or a phase marker at its fabric time. -/
  | tsyncOutPulse
  /-- COUNTER_CLEAR (R342): A write of tele.cs.ctl.clear sets the set's cycle and programmable counters to 0. -/
  | counterClear (set : BitVec 7)
  /-- COUNTER_WINDOW_END (R345): At start + length the armed window's set values are latched and TELE_WINDOW_ARM
  completes. -/
  | counterWindowEnd
  /-- DUMP_LATCH (R347): At a dump boundary all binding counters are latched and written to the next staging
  slot. -/
  | dumpLatch
  /-- DUMP_HOST_WRITE (R348): A staged dump is written to the host slot, or skipped while the previous host
  write runs. -/
  | dumpHostWrite (ecc : Ecc)
  /-- HEAT_AGE_SWEEP (R351): At each aging period a sweep halves every heat counter. -/
  | heatAgeSweep
  /-- TIME_STATUS (R354): Command 0x0A01 returns fabric time and its servo state. -/
  | timeStatus (r : Req)
  /-- TIME_CONFIG (R354): Command 0x0A02 sets time source candidates, reference, revert time and asymmetry. -/
  | timeConfig (r : Req) (sources : BitVec 32) (tsyncOut ref : BitVec 8) (revertS : BitVec 16) (asym : BitVec 128)
  /-- TIME_SET (R337): Command 0x0A03 steps fabric time before the first activation, else returns TIME_FROZEN.
  -/
  | timeSet (r : Req) (time : BitVec 64)
  /-- CS_CONFIG (R354): Command 0x0A04 configures a counter set. -/
  | csConfig (r : Req) (set : BitVec 8) (ctl : BitVec 64) (evsel : BitVec 512) (fltSrc fltAddr fltClass : BitVec 64)
  /-- CS_READ (R354): Command 0x0A05 returns a counter set's values. -/
  | csRead (r : Req) (set : BitVec 8) (ecc : Ecc) (which : BitVec 4)
  /-- TELE_WINDOW_ARM (R345): Command 0x0A06 arms a counter window. -/
  | teleWindowArm (r : Req) (start length : BitVec 64)
  /-- DUMP_CONFIG (R354): Command 0x0A07 sets dump period, flags and host destination. -/
  | dumpConfig (r : Req) (periodK flags port : BitVec 8) (slots : BitVec 16) (hostBase : BitVec 64) (busMaster : Bool)
  /-- DUMP_READ (R354): Command 0x0A08 returns bytes of a staged dump. -/
  | dumpRead (r : Req) (seq offset length : BitVec 32) (ecc : Ecc)
  /-- HEAT_CONFIG (R354): Command 0x0A09 enables the heat map and sets its aging period. -/
  | heatConfig (r : Req) (enable : BitVec 8) (agePeriod : BitVec 32)
  /-- HEAT_READ (R350): Command 0x0A0A returns heat counters with pending increments. -/
  | heatRead (r : Req) (index : BitVec 32) (count : BitVec 16) (ecc : Ecc) (which : BitVec 32)
  /-- HEAT_CLEAR (R354): Command 0x0A0B starts clearing a range of heat counters. -/
  | heatClear (r : Req) (index count : BitVec 32)
  /-- HEAT_CLEAR_DONE (R354): A pending HEAT_CLEAR finishes and its result is stored. -/
  | heatClearDone
  /-- TRACE_CONFIG (R352): Command 0x0A0C configures and restarts the trace ring. -/
  | traceConfig (r : Req) (enable sizeLog2 mode points classMask : BitVec 8) (xpMask start length : BitVec 64)
      (stopFault postRecords : BitVec 32)
  /-- TRACE_READ (R354): Command 0x0A0D returns trace records. -/
  | traceRead (r : Req) (index : BitVec 64) (count : BitVec 16) (ecc : Ecc)
  /-- PATROL_SCRUB_STEP (R365): The scrubber reads the next correction unit of its type, correcting and tracking
  errors. -/
  | patrolScrubStep (t : BitVec 4) (check : EccKind)
  /-- HBM_WRITEBACK (R357): The HBM controller writes a corrected word back within 1 µs unless a newer write
  won. -/
  | hbmWriteback (stack : BitVec 1)
  /-- ROW_REMAPPED (R362): A row's spare-row copy completes, its spare words are freed and HBM-0x0010 raised. -/
  | rowRemapped (stack : BitVec 1)
  /-- REMAP_LOG_APPEND (R364): An HBM remap is appended to the flash remap log within 1 s. -/
  | remapLogAppend
  /-- IFETCH_UE (R368): An uncorrectable instruction fetch traps firmware, which reloads the page from flash and
  raises MEM-0x0030. -/
  | ifetchUe (page : BitVec 10) (array : BitVec 4) (addr : BitVec 52)
  /-- DSRAM_UE (R369): An uncorrectable data SRAM read raises MEM-0x0032 and restarts firmware. -/
  | dsramUe (array : BitVec 4) (addr : BitVec 52)
  /-- CHANNEL_RETRAIN (R372): A channel PHY lock or parity failure retrains the channel, raising HBM-0x0002 on
  success. -/
  | channelRetrain (stack : BitVec 1) (channel : BitVec 6) (restored : Bool)
  /-- STACK_LOST (R372): An HBM stack is declared lost, its PHY switched off, HBM-0x0001 raised and consumers
  notified. -/
  | stackLost (stack : BitVec 1) (thermal : Bool)
  /-- FAULT_OCCURRENCE (R378): A block reports a fault; its record is updated and the reaction level, with
  escalation, is applied. -/
  | faultOccurrence (block : BitVec 5) (code : BitVec 8) (src : BitVec 16) (detail : BitVec 64)
  /-- FAULT_LOG_APPEND (R386): A qualifying record is appended to the flash fault log within 1 s. -/
  | faultLogAppend
  /-- AUTO_EXIT (R383): A whole quiet window with no occurrence ends a record's isolation and takes the exit
  action. -/
  | autoExit (block : BitVec 5) (code : BitVec 8)
  /-- FAULT_ACK_WRITE (R380): A write of flt.rec.status.ack acknowledges a record unless it is isolated. -/
  | faultAckWrite (block : BitVec 5) (code : BitVec 8)
  /-- FAULT_READ (R392): Command 0x0B01 returns a fault record and its configuration. -/
  | faultRead (r : Req) (block code : BitVec 8)
  /-- FAULT_LIST (R392): Command 0x0B02 lists valid records from an index. -/
  | faultList (r : Req) (from_ max_ : BitVec 16)
  /-- FAULT_ACK (R380): Command 0x0B03 acknowledges a record. -/
  | faultAck (r : Req) (block code : BitVec 8)
  /-- FAULT_RELEASE (R384): Command 0x0B04 takes a record's exit action and clears isolated. -/
  | faultRelease (r : Req) (block code : BitVec 8)
  /-- FAULT_CONFIG (R382): Command 0x0B05 sets a code's level, ceiling, escalation and exit parameters. -/
  | faultConfig (r : Req) (block code : BitVec 8) (cfg : BitVec 64)
  /-- FAULT_LOG_READ (R392): Command 0x0B06 returns flash fault log records. -/
  | faultLogRead (r : Req) (index : BitVec 32) (count : BitVec 16)
  /-- INJECT_MEM (R387): Command 0x0F01 arms a check-bit inversion on the next write of a word. -/
  | injectMem (r : Req) (type mask : BitVec 8) (unit timeout : BitVec 16) (addr : BitVec 64)
  /-- INJECTED_WRITE (R387): The next write to the armed word stores inverted check bits and the arming lapses.
  -/
  | injectedWrite
  /-- INJECT_EXPIRED (R387): An arming with no write within timeout_ms lapses as EXPIRED. -/
  | injectExpired
  /-- INJECT_RAISE (R389): Command 0x0F02 raises a named fault code through the collector alone. -/
  | injectRaise (r : Req) (block code : BitVec 8) (src : BitVec 16) (detail : BitVec 64)
  /-- INJECT_STATUS (R392): Command 0x0F03 returns the injection arming state. -/
  | injectStatus (r : Req)
  /-- DOMAIN_IDLE_ENTRY (R402): A domain's effective idle timer expiring takes it to its lowest RUN state in one
  stage. -/
  | domainIdleEntry (d : BitVec 8) (demand : Bool)
  /-- DOMAIN_WAKE (R400): Work for a sleeping domain wakes it through the restore steps while the work waits. -/
  | domainWake (d : BitVec 8)
  /-- DOMAIN_RESTORE_STEP (R407): A restore step's ready signal arrives and the next step begins, with retention
  checks on memory. -/
  | domainRestoreStep (d : BitVec 8) (bad : BitVec 16)
  /-- RETENTION_RELOAD_DONE (R411): The owning table's reload completes and the domain is released. -/
  | retentionReloadDone (d : BitVec 8)
  /-- WAKE_TIMEOUT (R407): A ready signal missing after four times its limit raises PMU-0x0020 and restarts the
  domain from OFF. -/
  | wakeTimeout (d : BitVec 8)
  /-- BANK_WAKE (R399): The PMU wakes the lowest OFF bank on low free cells, port pressure or a weave raising W.
  -/
  | bankWake (busy : Bool)
  /-- DOZE_AUTO_ATTEMPT (R401): With doze_auto set, every group becoming idle starts a staged DOZE entry. -/
  | dozeAutoAttempt
  /-- ENTRY_STAGE (R403): A stage of staged entry completes and the next stage's domains are asked. -/
  | entryStage
  /-- WAKE_SOURCE (R415): An enabled wake source starts exit from DOZE or STANDBY and writes pmu.last_wake. -/
  | wakeSource (src : BitVec 4) (index : BitVec 6)
  /-- GPIO_EDGE (R415): An input GPIO edge held for 1 µs of the configured polarity is taken as a wake. -/
  | gpioEdge (pin : BitVec 4) (level : Bool)
  /-- ALARM (R415): Fabric time reaching pmu.alarm is a wake source. -/
  | alarm
  /-- EXIT_COMPLETE (R416): The device reaches RUN after exit and writes pmu.last_wake_done. -/
  | exitComplete (b : BootIn)
  /-- AVS_POLL (R413): Every 10 µs the device reads AVSBus status until the regulator reports VDone. -/
  | avsPoll (rail : BitVec 2) (vdone good : Bool)
  /-- AVS_TIMEOUT (R414): A rail change not reaching VDone within avs_timeout raises PMU-0x0010. -/
  | avsTimeout (rail : BitVec 2)
  /-- AVS_EXIT_RETRY (R414): A failed exit rail change is retried at 1 ms intervals up to three times. -/
  | avsExitRetry (rail : BitVec 2)
  /-- RAIL_MONITOR (R413): Once per ms in RUN each rail's voltage and current are read. -/
  | railMonitor (rail : BitVec 2) (vout iout : BitVec 16)
  /-- STANDBY_FINAL_STAGE (R420): Stage 12 of a STANDBY entry begins when its ticket is fetched or 10 ms after
  its event. -/
  | standbyFinalStage
  /-- POWER_STATUS (R420): Command 0x0C01 returns power state and last wake, wake done and abort records. -/
  | powerStatus (r : Req)
  /-- POWER_STATE_SET (R420): Command 0x0C02 requests DOZE, STANDBY or RUN. -/
  | powerStateSet (r : Req) (target : BitVec 8)
  /-- POWER_DOMAIN_READ (R420): Command 0x0C03 returns a domain's state and multiplier. -/
  | powerDomainRead (r : Req) (domain_ : BitVec 16)
  /-- POWER_TIMER_SET (R420): Command 0x0C04 sets a domain's or group's lowest state and idle timer. -/
  | powerTimerSet (r : Req) (domain_ : BitVec 16) (group lowest auto : BitVec 8) (idleUs : BitVec 32)
  /-- POWER_WAKE_CFG (R420): Command 0x0C05 sets wake sources, detect mask, alarm, doze_auto and AVS timeout. -/
  | powerWakeCfg (r : Req) (wakeMask detectMask alarm : BitVec 64) (dozeAuto : BitVec 8) (avsTimeout : BitVec 16)
  /-- LONG_PIN_CHANGE (R423): A PRSNT_L change held for 1 ms updates presence. -/
  | longPinChange (slot : BitVec 5) (seated : Bool)
  /-- SHORT_PIN_CLOSE (R423): A short-pin closure on an EMPTY channel starts the 20 ms debounce. -/
  | shortPinClose (slot : BitVec 5)
  /-- DEBOUNCE_END (R425): The short-pin debounce ends, the channel enters WAIT and sets on in auto mode. -/
  | debounceEnd (slot : BitVec 5)
  /-- RAMP_START (R425): A WAIT channel with on set, no retry timer and no bus under-voltage starts ramping
  GATE. -/
  | rampStart (slot : BitVec 5)
  /-- PG_QUALIFY (R427): Full gate enhancement and VOUT in tolerance qualify power-good and start the PG delay.
  -/
  | pgQualify (slot : BitVec 5) (vout : BitVec 16)
  /-- PG_ASSERT (R427): Qualification held for pg_delay_us asserts PG and the channel enters ON. -/
  | pgAssert (slot : BitVec 5)
  /-- PERST_RELEASE (R427): PERST to the bay is released perst_delay_ms after PG asserts. -/
  | perstRelease (slot : BitVec 5)
  /-- CURRENT_LIMIT (R428): Sensed current reaching ilimit regulates the gate and starts the breaker timer. -/
  | currentLimit (slot : BitVec 5) (iout : BitVec 16)
  /-- BREAKER_TRIP (R428): The breaker timer reaching brk_us trips the channel with cause BREAKER. -/
  | breakerTrip (slot : BitVec 5)
  /-- FAST_TRIP (R429): Current reaching fast_trip pulls GATE off within 1 µs and trips the channel. -/
  | fastTrip (slot : BitVec 5) (iout : BitVec 16)
  /-- RAMP_FAIL (R426): Power-good not qualified within ramp_to_ms trips the channel with cause RAMP. -/
  | rampFail (slot : BitVec 5)
  /-- RETRY_TIMER_EXPIRY (R431): A channel's retry timer expires, allowing a new ramp. -/
  | retryTimerExpiry (slot : BitVec 5)
  /-- SHORT_PIN_OPEN (R433): A seated short pin opening turns the gate off, clears on and reports presence loss
  to the port. -/
  | shortPinOpen (slot : BitVec 5)
  /-- RETRY_COUNT_CLEAR (R432): A short pin open for 1 s clears the retry count and releases a latch. -/
  | retryCountClear (slot : BitVec 5)
  /-- GATE_OFF_DELAY (R435): 100 µs after a power-off request the channel pulls GATE off and enters DECAY. -/
  | gateOffDelay (slot : BitVec 5)
  /-- DECAY_END (R435): VOUT falling below 2.0 V takes a DECAY channel to WAIT or EMPTY. -/
  | decayEnd (slot : BitVec 5) (vout : BitVec 16)
  /-- FET_DAMAGE (R436): VOUT at or above 2.0 V for 10 ms with the gate off beyond dmg_delay_ms enters DAMAGED
  and raises SLOT-0x0010. -/
  | fetDamage (slot : BitVec 5) (vout : BitVec 16)
  /-- BUS_OV (R437): The bay bus at or above 14.4 V pulls every GATE off and raises SLOT-0x0030. -/
  | busOv (vbus : BitVec 16)
  /-- BUS_OV_RECOVER (R437): The bus below 13.8 V for 20 ms lets channels with on set ramp again. -/
  | busOvRecover (vbus : BitVec 16)
  /-- BUS_UV (R437): The bay bus below 10.2 V raises SLOT-0x0031 and blocks new ramps. -/
  | busUv (vbus : BitVec 16)
  /-- BUTTON_PRESSED (R439): A debounced button press sets Attention Button Pressed, raises SLOT-0x0021 and may
  start a toggle. -/
  | buttonPressed (slot : BitVec 5)
  /-- BUTTON_TOGGLE_EXPIRY (R439): Five seconds after an uncancelled TOGGLE press the channel's on is inverted.
  -/
  | buttonToggleExpiry (slot : BitVec 5)
  /-- GATE_CTL_WRITE (R442): A write of slot gate_ctl takes effect at the next tick, or is ignored in full if
  invalid or locked. -/
  | gateCtlWrite (slot : BitVec 5) (value : BitVec 64)
  /-- SLOT_LOCK_WRITE (R442): A write of slot.lock makes gate_ctl read-only until cold reset. -/
  | slotLockWrite (slot : BitVec 5)
  /-- VSEL_LOST (R494): VSEL below 2.9 V holds every GATE off, downs seated ports and raises SLOT-0x0032. -/
  | vselLost
  /-- VSEL_RESTORED (R494): VSEL back for 1 ms restarts the selvedge and the slot registers are reloaded from
  the board table. -/
  | vselRestored (seated : BitVec 24)
  /-- SLOT_STATUS (R443): Command 0x0D01 returns a slot's registers. -/
  | slotStatus (r : Req) (slot : BitVec 8)
  /-- SLOT_POWER (R443): Command 0x0D02 requests a slot on or off. -/
  | slotPower (r : Req) (slot on_ flags : BitVec 8)
  /-- SLOT_CONFIG (R442): Command 0x0D03 writes a slot's gate_ctl, ctl and pg_cfg. -/
  | slotConfig (r : Req) (slot : BitVec 8) (gateCtl ctl pgCfg : BitVec 64)
  /-- SLOT_INDICATOR (R440): Command 0x0D04 overrides a slot's indicators. -/
  | slotIndicator (r : Req) (slot attn pwr flags : BitVec 8)
  /-- SLOT_CLEAR (R432): Command 0x0D05 releases a latch for one ramp or clears a damage state. -/
  | slotClear (r : Req) (slot what : BitVec 8)
  /-- SLOT_PERST (R443): Command 0x0D06 holds a bay's PERST asserted or releases it. -/
  | slotPerst (r : Req) (slot hold : BitVec 8)
  /-- SEAL_STATUS (R466): Command 0x0E01 returns seal status and the colophon head. -/
  | sealStatus (r : Req)
  /-- SEAL_NONCE (R450): Command 0x0E02 draws a fresh nonce. -/
  | sealNonce (r : Req) (env : Env)
  /-- NONCE_EXPIRY (R450): The held nonce expires 600 s after issue. -/
  | nonceExpiry
  /-- LC_TRANSITION (R446): Command 0x0E03 checks a token, appends LIFECYCLE and burns the transition's fuses.
  -/
  | lcTransition (r : Req) (target : BitVec 8) (tok : Token) (env : Env)
  /-- LIFECYCLE_RESET (R447): 100 ms after a transition response the device performs a cold reset. -/
  | lifecycleReset (b : BootIn)
  /-- OWNER_CLAIM (R446): Command 0x0E04 burns an owner slot and claim bit, entering OWNED at once. -/
  | ownerClaim (r : Req) (key : BitVec 776) (tok : Token) (env : Env)
  /-- MAKER_UNLOCK (R451): Command 0x0E05 gives maker level to the requester and appends MAKER_LEVEL. -/
  | makerUnlock (r : Req) (tok : Token) (env : Env)
  /-- MAKER_RELINQUISH (R451): Command 0x0E06 ends maker level. -/
  | makerRelinquish (r : Req)
  /-- PLAN_KEY_INSTALL (R455): Command 0x0E07 installs a plan-signing key in a slot. -/
  | planKeyInstall (r : Req) (slot : BitVec 8) (key : BitVec 776) (tok : Token) (env : Env)
  /-- PLAN_KEY_REVOKE (R455): Command 0x0E08 empties a plan-signing key slot. -/
  | planKeyRevoke (r : Req) (slot : BitVec 8) (tok : Token) (env : Env)
  /-- DEBUG_CONFIG (R452): Command 0x0E09 stages debug flags in flash for the next boot. -/
  | debugConfig (r : Req) (tok : Token)
  /-- COLOPHON_READ (R466): Command 0x0E0A returns colophon records still in the ring. -/
  | colophonRead (r : Req) (seq : BitVec 64) (count : BitVec 16)
  /-- COLOPHON_QUOTE (R464): Command 0x0E0B returns an alias-signed quote of the chain head over a nonce. -/
  | colophonQuote (r : Req) (nonce : BitVec 384)
  /-- CERT_READ (R466): Command 0x0E0C returns bytes of the device or alias certificate. -/
  | certRead (r : Req) (which : BitVec 8) (offset : BitVec 32) (length : BitVec 16)
  /-- MAKER_PROVISION (R446): Command 0x0E0D burns the UDS and MAKER bit and installs the device certificate in
  BLANK. -/
  | makerProvision (r : Req) (chain : List Byte) (env : Env)
  /-- DEVICE_CERT_INSTALL (R466): Command 0x0E0E installs a device certificate chain in MAKER. -/
  | deviceCertInstall (r : Req) (chain : List Byte)
  /-- COLOPHON_APPEND_DONE (R458): A colophon record is signed, programmed and read back, releasing what waited
  on it. -/
  | colophonAppendDone (good : Bool)
  /-- ENTROPY_FAIL (R454): An entropy health-test failure raises SEAL-0x0030 and refuses operations needing
  randomness. -/
  | entropyFail
  /-- DEVICE_MEASUREMENT (R462): A DSP or PBR port reaching UP starts SPDM measurement of its partner. -/
  | deviceMeasurement (u : BitVec 7)
  /-- DEVICE_MEASUREMENT_DONE (R462): Measurement finishes or times out and a DEVICE record is appended when
  changed. -/
  | deviceMeasurementDone (u : BitVec 7) (m : Measured) (env : Env)
  /-- COLD_RESET (R478): RESET_L released, or a cold command, runs the boot sequence from pd.aon up to firmware
  RUNNING. -/
  | coldReset (b : BootIn)
  /-- WARM_RESET (R483): WRESET_L released, or a warm command, reruns the boot from step 3 keeping pd.aon. -/
  | warmReset (b : BootIn)
  /-- HBM_READY (R478): Stacks are trained, remaps applied and the snoop filter and coarse tracker zeroed. -/
  | hbmReady (trained : BitVec 2)
  /-- BOOT_TIME_WAIT_EXPIRY (R481): boot_time_wait_ms passing without lock raises BOOT-0x0012 and lets the
  persisted plan commit. -/
  | bootTimeWaitExpiry
  /-- PERSISTED_PLAN_COMMIT (R481): Firmware validates and activates the persisted chain after time lock or the
  wait. -/
  | persistedPlanCommit (stamp : BitVec 64) (env : Env)
  /-- IMAGE_WRITE (R485): Command 0x0F10 writes the inactive firmware, board table or recovery image
  contiguously. -/
  | imageWrite (r : Req) (region : BitVec 8) (offset : BitVec 32) (data : List Byte)
  /-- IMAGE_SELECT (R475): Command 0x0F11 checks an image and names it active, or starts a recovery image. -/
  | imageSelect (r : Req) (region : BitVec 8) (reserved : BitVec 24)
  /-- VAON_LOSS (R494): VAON below 0.72 V for 1 µs holds the device in cold reset until it recovers. -/
  | vaonLoss
  /-- THERMAL_SAMPLE (R499): Every 1 ms the temperature sensors are read and compared with warn and trip limits.
  -/
  | thermalSample (core loom stackA stackB selvedge : BitVec 8)
  /-- INSTANCE_CONFIG (R190): Command 0x0701 configures a DISABLED instance's engines, quota, share, burst and
  binding slots. -/
  | instanceConfig (r : Req) (inst_ flags engineMask descQuota share burst : BitVec 16) (bslots : BitVec 128)
  /-- INSTANCE_READ (R190): Command 0x0702 returns an instance's configuration, state, tokens, queue indices and
  counts. -/
  | instanceRead (r : Req) (inst_ : BitVec 16)
  /-- INSTANCE_ENABLE (R166): Command 0x0703 moves a DISABLED instance to READY. -/
  | instanceEnable (r : Req) (inst_ : BitVec 16)
  /-- INSTANCE_RESET (R182): Command 0x0704 starts a reset of an instance, optionally leaving it DISABLED. -/
  | instanceReset (r : Req) (inst_ flags : BitVec 16)
  /-- INSTANCE_FREEZE (R166): Command 0x0705 moves a READY instance to FREEZING with cause OWNER. -/
  | instanceFreeze (r : Req) (inst_ : BitVec 16)
  /-- INSTANCE_THAW (R166): Command 0x0706 clears named freeze causes and returns the instance to READY when
  none remain. -/
  | instanceThaw (r : Req) (inst_ causes : BitVec 16)
  /-- INSTANCE_SAVE (R179): Command 0x0707 returns the 4 KiB state blob of a FROZEN instance. -/
  | instanceSave (r : Req) (inst_ : BitVec 16)
  /-- INSTANCE_RESTORE (R180): Command 0x0708 loads a checked blob into a DISABLED instance, which becomes
  FROZEN. -/
  | instanceRestore (r : Req) (inst_ : BitVec 16) (blob : List Byte)
  /-- INSTANCE_SET_SHARE (R175): Command 0x0709 changes an instance's share and burst from the next refill. -/
  | instanceSetShare (r : Req) (inst_ share burst : BitVec 16)
  /-- MBOX_READ (R188): Command 0x070A returns a tenant's t2o message and clears full. -/
  | mboxRead (r : Req) (inst_ : BitVec 16)
  /-- MBOX_SEND (R189): Command 0x070B writes an o2t message, sets full and may raise the mailbox interrupt. -/
  | mboxSend (r : Req) (inst_ len : BitVec 16) (data : List Byte)
  /-- ENGINE_STATUS (R190): Command 0x070C returns an engine's state, busy channels and counts. -/
  | engineStatus (r : Req) (engine_ : BitVec 8)
  /-- TRAF_BINDING_READ (R210): Command 0x0801 returns a binding's TRAFFIC record, bucket levels and colour
  counters. -/
  | trafBindingRead (r : Req) (binding : BitVec 16)
  /-- TRAF_BINDING_SET (R202): Command 0x0802 checks a new binding TRAFFIC record and schedules it for the next
  frame boundary. -/
  | trafBindingSet (r : Req) (binding : BitVec 16) (record : BitVec 512)
  /-- TRAF_XP_READ (R210): Command 0x0803 returns an xp's TRAFFIC record and promotion counts. -/
  | trafXpRead (r : Req) (xp : BitVec 8)
  /-- TRAF_XP_SET (R202): Command 0x0804 checks a new xp TRAFFIC record and schedules it for the next frame
  boundary. -/
  | trafXpSet (r : Req) (xp : BitVec 8) (record : BitVec 512)
  /-- TRAF_COUNTERS_CLEAR (R210): Command 0x0805 sets a binding's shaped, green, yellow, red and refused
  counters to 0. -/
  | trafCountersClear (r : Req) (binding : BitVec 16)
  /-- PROT_ENTRY_READ (R224): Command 0x0901 returns protection entries. -/
  | protEntryRead (r : Req) (index count : BitVec 16)
  /-- PROT_ENTRY_SET (R224): Command 0x0902 writes a protection entry, optionally locking it, and advances the
  rule epoch. -/
  | protEntrySet (r : Req) (index : BitVec 16) (entry : BitVec 256)
  /-- PROT_LOCK (R223): Command 0x0903 sets the lock bit of a run of protection entries. -/
  | protLock (r : Req) (index count : BitVec 16)
  /-- PROT_FENCE (R219): Command 0x0904 waits until accesses checked under earlier epochs have completed. -/
  | protFence (r : Req) (timeout : BitVec 32)
  /-- PROT_VIOL_READ (R224): Command 0x0905 returns the captured violation record with its full label. -/
  | protViolRead (r : Req)
  /-- PROT_VIOL_CLEAR (R222): Command 0x0906 clears the violation record and returns the discarded later count.
  -/
  | protViolClear (r : Req)
  /-- PROT_FENCE_TIMEOUT (R219): A fence still waiting after its timeout_us completes with TIMEOUT and the prior
  count. -/
  | protFenceTimeout (ticket : BitVec 16)
  /-- VIOL_VALID_CLEAR (R221): A write of 1 to prot.viol_status.valid clears the whole violation record,
  yielding to a violation in the same clock. -/
  | violValidClear
  /-- PROT_ENTRY_RELOADED (R222): The reload of an uncorrectable protection entry from the active PROTECTION
  table completes within 10 µs, ending error completions for it. -/
  | protEntryReloaded (entry : BitVec 14)
  /-- UP_HOLD_EXPIRED (R121): Cells held for an upstream port or half reach up_hold_limit, are discarded and the
  host departs for the proxy. -/
  | upHoldExpired (u : BitVec 7)
  /-- LOOM_LINK_RECOVERY (R113): A loom die-to-die link recovers within 30 µs of its first symptom and counts a
  recovery without being declared failed. -/
  | loomLinkRecovery (loom : BitVec 3)
  /-- RECEIVER_DETECT (R231): Receiver detect on a CXL port finds a partner and the port moves from DETECT into
  TRAINING. -/
  | receiverDetect (u : BitVec 7)
  /-- REPLAY_WAIT_LIMIT (R268): 36 µs with flits unacknowledged and no acknowledgement advance is a replay
  failure that declares the link down. -/
  | replayWaitLimit (link : BitVec 3)
  /-- L0P_NARROW_REQUEST (R297): A partner's request to narrow a CXL port to x1 is accepted or declined. -/
  | l0pNarrowRequest (u : BitVec 7)
  /-- ASPM_L1_ENTRY (R296): A CXL downstream port with l1_ok enters ASPM L1 and its lanes go to L1_PLL or
  L1_NOPLL. -/
  | aspmL1Entry (u : BitVec 7) (pllOff : Bool)
  /-- ASPM_L1_EXIT (R296): A CXL downstream port leaves ASPM L1 and its lanes return to L0. -/
  | aspmL1Exit (u : BitVec 7)
  /-- TEST_CHECKER_LOCK (R301): A PRBS checker locks after 1,024 consecutive error-free bits and starts
  counting. -/
  | testCheckerLock (lane : BitVec 9)
  /-- TEST_CHECKER_LOCK_LOST (R301): More than 256 errors in 4,096 bits loses checker lock, increments lock_lost
  and reseeds. -/
  | testCheckerLockLost (lane : BitVec 9) (errs : BitVec 16)
  /-- REF_RESTORED (R287): A lost 100 MHz or Weft reference input shows edges again and its quads can relock. -/
  | refRestored (input : BitVec 2)
  /-- REF25_RESTORED (R333): A lost 25 MHz reference input shows edges again and is reported present. -/
  | ref25Restored (input : BitVec 1)
  /-- DUMP_WRITE_DONE (R347): The write of a latched dump into its staging slot completes. -/
  | dumpWriteDone
  /-- DUMP_HOST_WRITE_DONE (R348): The bus-master write of a dump to its host slot completes. -/
  | dumpHostWriteDone
  /-- HEAT_SWEEP_DONE (R351): A heat aging sweep completes and sweeping clears. -/
  | heatSweepDone
  /-- RESTORATION_REWRITE_DONE (R54): A restoration finishes rewriting patched entries and the next queued
  trigger is looked up. -/
  | restorationRewriteDone
  /-- BAY_WAKE_CHANGE (R423): A bay's WAKE line changes and is reported in slot status and passed to its port as
  PCIe WAKE. -/
  | bayWakeChange (slot : BitVec 5) (asserted : Bool)
  /-- BREAKER_TIMER_CLEAR (R428): Current below ilimit for 16 consecutive ticks clears the breaker timer without
  a trip and lets the PG delay restart. -/
  | breakerTimerClear (slot : BitVec 5) (iout : BitVec 16)
  /-- POWER_GOOD_DROP (R427): A tick without power-good qualification returns a PG_DELAY channel to RAMP or
  drops PG in ON and asserts PERST. -/
  | powerGoodDrop (slot : BitVec 5) (vout : BitVec 16)
  /-- BUS_UV_RECOVER (R437): The bay bus returning to 10.2 V or above lets channels ramp again. -/
  | busUvRecover (vbus : BitVec 16)
  /-- VAON_RESTORED (R494): VAON back at 0.76 V or above for 1 ms releases the device from cold reset. -/
  | vaonRestored (b : BootIn)
  deriving DecidableEq, Repr

end Sys2Proof
end

