-- ==== Sys2Proof/Decode.lean ====
section
/-! DEFINITION. The words of the opcode table: it gives none of its rows any bits, so a word spells no command. -/

namespace Sys2Proof

/-- The command that a word spells by the table's bits: none, since no row of spec/opcode_table.json has bits (log
entry 11). -/
def decodeTableWord (_nbits _w : Nat) : Option Instr := none

end Sys2Proof
end

