-- ==== Sys2Proof/Config.lean ====
section
/-! DEFINITION. What an implementation fixes and what the spec leaves free: opaque constants, so that nothing
can be proved about their values. -/

namespace Sys2Proof

/-- A free value of `w` bits: the n-th value the spec leaves open (log entry 4). -/
opaque Config.freeBits (w : Nat) (n : Nat) : BitVec w

/-- The PCI-SIG Vendor ID assigned to the maker, fixed in the device (13 R330; log entry 5). -/
opaque Config.vendorId : BitVec 16

/-- SHA-384 of a byte string (log entry 6). -/
opaque Config.sha384 : List Byte → BitVec 384

/-- The P-384 signature of a byte string under a private key, r then s (19 R453; log entry 6). -/
opaque Config.sign : BitVec 384 → List Byte → BitVec 768

/-- HMAC-SHA-384(key, bytes) (19 Table 19-6; log entry 6). -/
opaque Config.hmac : List Byte → List Byte → BitVec 384

/-- The 97-byte public key of a private key (19 R455; log entry 6). -/
opaque Config.publicKey : BitVec 384 → BitVec 776

/-- The alias certificate issued for a public key over the firmware digest, board table digest, life-cycle state and
debug flags (19 R453; log entry 6). -/
opaque Config.aliasCert : BitVec 776 → BitVec 384 → BitVec 384 → Nat → Nat → List Byte

/-- SHA-384 of the boot ROM (19 Table 19-10). -/
opaque Config.romDigest : BitVec 384

/-- The boot ROM's version (19 Tables 19-6, 19-8). -/
opaque Config.romVersion : BitVec 32

/-- SHA-384 of maker key n's public key, in the boot ROM (19 R450). -/
opaque Config.makerDigest : Nat → BitVec 384

/-- The maker's test key in the boot ROM (19 R455). -/
opaque Config.testKey : BitVec 776

/-- Cells an output's staging holds for one message class beyond the 65 of the largest message (05 R506;
log entry 7). -/
opaque Config.stagingExtra : Nat → Nat

/-- Egress tags of a crossbar port beyond the first (01 R19; log entry 7). -/
opaque Config.tagExtra : Nat → Nat

/-- Bank, row and place in its row of the 64-byte word with this address in an HBM pseudo-channel (15 R362; log
entry 7). -/
opaque Config.hbmPlace : Nat → Nat × Nat × Nat

/-- Address of the 64-byte word that stands at a bank, a row and a place in its row (15 R362; log entry 7). -/
opaque Config.hbmAddr : Nat → Nat → Nat → Nat

/-- Correction units of memory type t, spares included (15 R365; log entry 7). -/
opaque Config.scrubUnits : Nat → Nat

/-- Word of the n-th correction unit of memory type t, laid out as mem.last_hard (15 R365, R505; log entry 7). -/
opaque Config.scrubWord : Nat → Nat → BitVec 64

/-- Whether memory type t has a word at this unit and address (16 Table 16-7; log entry 7). -/
opaque Config.memHolds : Nat → BitVec 16 → BitVec 64 → Bool

/-- Entry of an on-die heddle or protection table, by section type and record index, that a word of memory type 0 belongs
to (15 Table 15-1, R370; log entry 7). -/
opaque Config.tableEntry : BitVec 64 → Option (Nat × Nat)

/-- Entry of a directory cache, by slice and way index, that a word of memory type 2 belongs to (06 R157; log entry 7). -/
opaque Config.dirEntry : BitVec 64 → Option (Nat × Nat)

/-- Word, laid out as mem.last_hard, at a stack-local offset of an HBM stack (15 R371, R505; log entry 7). -/
opaque Config.hbmWord : Nat → BitVec 64

/-- Whether r and s are a P-384 signature of bytes with a SHA-384 digest, under the public key whose own digest comes first
(02 R39, 19 R450, 20 R474; log entry 6). -/
opaque Config.verify : BitVec 384 → BitVec 384 → BitVec 384 → BitVec 384 → Bool

/-- Bytes [16 (i - 1), 16 i) of a message as the device stores it (04 R90; log entry 7). -/
opaque Config.storedBytes : Msg → Nat → BitVec 128

/-- Clock of telemetry block b, in 1/32 cycles per 125 ps tick (14 R342; log entry 7). -/
opaque Config.blockClock : Nat → Nat

/-- What STALL (code 5) or OCCUPANCY (code 8) adds at telemetry block b, in all, up to an instant of the always-on clock
(14 Table 14-5; log entry 86). -/
opaque Config.cycleEvents : Nat → Nat → BitVec 64 → BitVec 48

/-- Fused operating point of rail r, mV (17 Table 17-8; log entry 7). -/
opaque Config.fusedMv : Nat → BitVec 16

/-- Retained SRAM banks of power domain d (17 R410; log entry 7). -/
opaque Config.retBanks : Nat → Nat

/-- The PID of this device, source PID of what enters the fabric here and leaves on a PBR link (03 R75; log entry 7). -/
opaque Config.ownPid : BitVec 12

end Sys2Proof
end

