-- ==== Sys2Proof/Machine/Bytes.lean ====
section
/-! DEFINITION. Bit fields, little-endian bytes and the CRC-32 the spec's formats use. -/

namespace Sys2Proof.Machine

open Sys2Proof

/-- Bits [lo + len − 1 : lo] of a word. -/
def fld {n : Nat} (w : BitVec n) (lo len : Nat) : BitVec len := w.extractLsb' lo len

/-- Bits [lo + len − 1 : lo] of a word, as a number. -/
def fnat {n : Nat} (w : BitVec n) (lo len : Nat) : Nat := (fld w lo len).toNat

/-- Bit `i` of a word. -/
def bit {n : Nat} (w : BitVec n) (i : Nat) : Bool := w.getLsbD i

/-- The word with bits [lo + len − 1 : lo] replaced by `v`. -/
def setFld {n : Nat} (w : BitVec n) (lo len : Nat) (v : BitVec len) : BitVec n :=
  (w &&& ~~~ ((BitVec.allOnes len).setWidth n <<< lo)) ||| (v.setWidth n <<< lo)

/-- A one-bit field of a Bool. -/
def b1 (b : Bool) : BitVec 1 := BitVec.ofBool b

/-- 1 for true, 0 for false. -/
def nb (b : Bool) : Nat := if b then 1 else 0

/-- The `n` bytes of a number, little-endian. -/
def leBytes : Nat → Nat → List Byte
  | 0, _ => []
  | n + 1, x => BitVec.ofNat 8 x :: leBytes n (x / 256)

/-- The number a list of little-endian bytes spells. -/
def leNat : List Byte → Nat
  | [] => 0
  | b :: bs => b.toNat + 256 * leNat bs

/-- The bytes of a word of `8 * n` bits, little-endian. -/
def wBytes {m : Nat} (n : Nat) (w : BitVec m) : List Byte := leBytes n w.toNat

/-- `n` bytes from offset `off` of a byte string, zero-padded, as a little-endian number. -/
def leAt (bs : List Byte) (off n : Nat) : Nat := leNat ((bs.drop off).take n)

/-- `n` bytes from offset `off` of a byte string, zero-padded, as a big-endian number. -/
def beAt (bs : List Byte) (off n : Nat) : Nat := (List.range n).foldl (fun v i => v * 256 + leAt bs (off + i) 1) 0

/-- The `n` bytes of a word, big-endian. -/
def beBytes {m : Nat} (n : Nat) (w : BitVec m) : List Byte := (wBytes n w).reverse

/-- `n` zero bytes. -/
def zeros (n : Nat) : List Byte := List.replicate n 0

/-- An add that stops at the largest value of its width. -/
def satAdd {n : Nat} (a : BitVec n) (k : Nat) : BitVec n :=
  if a.toNat + k < 2 ^ n then BitVec.ofNat n (a.toNat + k) else BitVec.allOnes n

/-- The signed value of a word. -/
def sval {n : Nat} (w : BitVec n) : Int := w.toInt

/-- One bit step of the reflected CRC-32 of IEEE 802.3. -/
def crcStep (c : BitVec 32) : BitVec 32 := if c.getLsbD 0 then (c >>> 1) ^^^ 0xEDB88320#32 else c >>> 1

/-- One byte of the reflected CRC-32. -/
def crcByte (c : BitVec 32) (b : Byte) : BitVec 32 :=
  crcStep (crcStep (crcStep (crcStep (crcStep (crcStep (crcStep (crcStep (c ^^^ b.setWidth 32))))))))

/-- CRC-32 of IEEE 802.3 over a byte string. -/
def crc32 (bs : List Byte) : BitVec 32 := ~~~ (bs.foldl crcByte 0xFFFFFFFF#32)

end Sys2Proof.Machine
end

