-- ==== Sys2Proof/Machine/State.lean ====
section
/-! DEFINITION. The state of the device as plain data, the reasons a step can stop, and State.reset.

Every field's docstring names the file of spec/ that gives it (its two digits), the rule, and its value
at reset: `reset` for a value the spec states, `dc` for one the model names because the spec states none
(DESIGN CHOICE, log entry 2). -/

namespace Sys2Proof.Machine

open Sys2Proof

/-- A request whose decode waits, at a migration stall queue or for a page entry from HBM (R69, R83):
the message as far as it is known, the address a violation record would show (a host physical address, or a scribe
access's compacted offset), its compacted offset and its page entry. -/
structure Decoding where
  msg : Msg
  addr : BitVec 64
  off : BitVec 64
  page : Nat
  deriving DecidableEq, Repr

/-! ## Weave plans, bindings and decode (spec/02, spec/03) -/

/-- State of the shadow side of the plan loader, numbered as PLAN_STATUS reports it (02 Table 2-9). -/
inductive ShadowState where
  | empty | loading | validating | armed
  deriving DecidableEq, Repr

/-- One patch record of an alternate set (02, Alternate section). -/
structure Patch where
  /-- Target section type: ROUTE 1, EXTENT 4 or PAGE 5. -/
  section_ : BitVec 16
  /-- Entry index (a page entry's index is block × 512 + entry). -/
  index : BitVec 32
  /-- The new entry, zero-padded to 32 bytes. -/
  entry : BitVec 256
  deriving DecidableEq, Repr

/-- One alternate set of a plan: descriptor, patches, weave and trigger table (02 Tables 2-5 to 2-7). -/
structure AltSet where
  desc : BitVec 256
  patches : List Patch
  /-- The set carries a weave of its own (weave_offset ≠ 0). -/
  hasWeave : Bool
  weave : Tab (BitVec 1024)
  /-- Trigger entries by class × 256 + index. -/
  triggers : Tab (BitVec 64)
  deriving DecidableEq, Repr

/-- One whole set of heddle tables, in the record formats of the spec (02 Table 2-3). -/
structure Tables where
  /-- ROUTE records by FEID [03 R73 Table 3-8; dc 0] -/
  route : Tab (BitVec 128)
  /-- WINDOW records by u × 16 + w [03 R62 Table 3-2; dc 0] -/
  window : Tab (BitVec 256)
  /-- BINDING contexts by binding number, run-time state included [03 R65 Table 3-3; dc 0] -/
  binding : Tab (BitVec 512)
  /-- EXTENT entries by extent index [03 R67 Table 3-4; dc 0] -/
  extent : Tab (BitVec 128)
  /-- WEAVE records by plane × 1,280 + slot, 64 entries of 16 bits [02 R37 Table 2-4; dc 0] -/
  weave : Tab (BitVec 1024)
  /-- TRAFFIC records by binding, then 8,192 + xp [02 Table 2-3, 08 R193 R209; dc 0] -/
  traffic : Tab (BitVec 512)
  /-- PROTECTION entries [02 Table 2-3, 09; dc 0] -/
  protection : Tab (BitVec 256)
  /-- POWER records by domain [02 Table 2-3, 17; dc 0] -/
  power : Tab (BitVec 128)
  /-- BUFFER records by xp, then 64 global [02 Table 2-3, 05; dc 0] -/
  buffer : Tab (BitVec 512)
  /-- PORT records by port [02 Table 2-3, 10; dc 0] -/
  port : Tab (BitVec 256)
  /-- The POWER section is present [02 Table 2-3 optional section; dc false] -/
  hasPower : Bool
  /-- Alternate sets, set 0 first [02 Tables 2-5 to 2-7; dc empty] -/
  alts : List AltSet
  deriving DecidableEq, Repr

/-- One element of the current chain of sets (02, Alternates at run time; PLAN_STATUS chain). -/
structure ChainLink where
  set : BitVec 16
  /-- Trigger class that entered the set; 0xFF for the command PLAN_APPLY_ALTERNATE. -/
  cls : BitVec 8
  index : BitVec 8
  /-- The entering entry had send = 1, with this notice ID. -/
  notice : Option (BitVec 8)
  /-- Entered by PLAN_APPLY_ALTERNATE: restore mode treated as 0. -/
  byCommand : Bool
  /-- Fabric time since which the entering resource has been up; none while it is down. -/
  upSince : Option (BitVec 64)
  deriving DecidableEq, Repr

/-- A trigger condition waiting for its lookup (R54). -/
structure Trigger where
  cls : BitVec 8
  index : BitVec 8
  stamp : BitVec 64
  deriving DecidableEq, Repr

/-- What the heddle block is rewriting just now. -/
inductive HeddleWork where
  | idle
  /-- Patches of the set at the end of the chain are being applied. -/
  | applying
  /-- A restoration is rewriting patched entries. -/
  | rewriting
  deriving DecidableEq, Repr

/-- The plan loader and the heddle sets (02). -/
structure PlanState where
  /-- The tables in force: the active plan's tables as patched and as changed at run time [02 R51 R503; dc empty] -/
  active : Tables
  /-- The plan store's ACTIVE slot: the activated plan's tables unpatched [02 R44 R59; dc empty] -/
  base : Tables
  /-- The shadow heddle banks, filled by PLAN_COMMIT [02 R45 R48; dc empty] -/
  shadow : Tables
  /-- shadow_state [02 Table 2-9; reset EMPTY] -/
  shadowState : ShadowState
  /-- Declared kind of the load [02 Table 2-9; dc 0] -/
  loadKind : BitVec 16
  /-- Declared image_length of the load [02 Table 2-9; dc 0] -/
  loadLength : BitVec 64
  /-- Image bytes received in order (SHADOW slot; PAGE records go on to their blocks) [02 R44; dc empty] -/
  loadBytes : List Byte
  /-- Requester that began the load [02 R50; dc none] -/
  loadOwner : Option ReqSrc
  /-- Page blocks this load has written [02 R44; dc empty] -/
  loadBlocks : List Nat
  /-- A PAGE record of the load was refused; later ones are not written [02 R44; dc false] -/
  loadRefused : Bool
  /-- Ticket of the PLAN_COMMIT being validated [02 Table 2-9, 13 R321; dc none] -/
  commitTicket : Option (BitVec 16)
  /-- PERSIST flag of the commit [02 Table 2-9; dc false] -/
  persist : Bool
  /-- Ticket of a plan write to flash still to be made [20 R479; dc false] -/
  persistDue : Bool
  /-- plan_id of the active plan [02 Table 2-1; dc 0] -/
  planId : BitVec 64
  /-- generation of the active plan [02 Table 2-1; dc 0] -/
  generation : BitVec 32
  /-- stable_default of the active plan, ms [02 Table 2-1; dc 0] -/
  stableDefault : BitVec 32
  /-- fabric_id of the active plan [02 Table 2-1; dc 0] -/
  fabricId : BitVec 32
  /-- A plan is active [02; dc false] -/
  hasPlan : Bool
  /-- Digest of the active plan's image [02, 19; dc 0] -/
  digest : BitVec 384
  /-- Image bytes of the active plan (ACTIVE slot), kept for the flash plan area [02 R44, 20 R479; dc empty] -/
  activeImage : List Byte
  /-- plan_id of the armed plan [02 Table 2-1; dc 0] -/
  armedId : BitVec 64
  /-- generation of the armed plan [02 Table 2-1; dc 0] -/
  armedGeneration : BitVec 32
  /-- stable_default of the armed plan [02 Table 2-1; dc 0] -/
  armedStable : BitVec 32
  /-- fabric_id of the armed plan [02 Table 2-1; dc 0] -/
  armedFabric : BitVec 32
  /-- Digest of the armed plan's image [02, 19; dc 0] -/
  armedDigest : BitVec 384
  /-- Whether the armed plan is a full plan [02 R33; dc false] -/
  armedFull : Bool
  /-- The commit returned PLAN_LATE [02 R47, 19 Table 19-8; dc false] -/
  armedLate : Bool
  /-- Commit completion stamp of the armed plan [02 R45, 19 Table 19-8; dc 0] -/
  commitStamp : BitVec 64
  /-- Binding states at the commit, by binding [03 R78; dc 0] -/
  armedStates : Tab (BitVec 8)
  /-- Bindings whose record the armed delta carries; none for a full plan, which carries all [02 R40, 03 R78 R81; dc none] -/
  armedCarried : Option (List Nat)
  /-- Page blocks that the armed image carries [02 R36 R49; dc empty] -/
  armedBlocks : List Nat
  /-- Activation boundary of the armed plan, or of the last activation [02 R46 R47; dc 0] -/
  boundary : BitVec 64
  /-- last_status of PLAN_STATUS [02 Table 2-9; dc 0] -/
  lastStatus : BitVec 16
  /-- last_detail of PLAN_STATUS [02 Table 2-9; dc 0] -/
  lastDetail : BitVec 32
  /-- unforeseen of PLAN_STATUS [02 Table 2-9, R58; dc 0] -/
  unforeseen : BitVec 8
  /-- Chain of sets from set 0's first child to the current set [02 Table 2-9, R55; dc empty] -/
  chain : List ChainLink
  /-- Trigger queue of 128 entries [02 R54; dc empty] -/
  trigQ : List Trigger
  /-- Conditions still present, with their fault stamps, for re-evaluation [02 R57; dc empty] -/
  present : List Trigger
  /-- Patch application or restoration under way [02 R51 R56; dc idle] -/
  work : HeddleWork
  /-- Alternate weave bank [02 R51; dc empty] -/
  altWeave : Tab (BitVec 1024)
  /-- The alternate weave is the weave in force [02 R503; dc false] -/
  altWeaveOn : Bool
  /-- Weave switch due at the next frame boundary: to an alternate weave that is loaded, or to the plan's weave [02 R51 R56; dc none] -/
  weaveDue : Option (Option (Tab (BitVec 1024)))
  /-- A restoration wanted, which begins at a weave-frame boundary once no work is in progress: its target [02 R54 R55; dc none] -/
  restoreWant : Option (BitVec 16)
  /-- The latest load has activated [02 R50; dc false] -/
  loadActivated : Bool
  /-- Page entries in HBM by block × 512 + entry [03 R68; dc 0] -/
  pages : Tab (BitVec 256)
  /-- Page entries as they stood before the patches of the current chain, by index [02 R56; dc none] -/
  pageSaved : Tab (Option (BitVec 256))
  /-- Page entries made invalid by an uncorrectable HBM read [03 R70; dc empty] -/
  pageBad : List Nat
  /-- Page cache: tag by line for the lines that hold an entry [03 R69; dc empty] -/
  pageCache : Tab (Option (BitVec 5))
  /-- Requests waiting for a page-entry read from HBM [03 R69 R71; dc empty] -/
  pageWait : List Decoding
  /-- Requests not decoded because their port's REQ class has stopped decoding, by a full stall queue or an uncorrectable heddle word, in arrival order [03 R83, 15 R370; dc empty] -/
  blocked : List Decoding
  /-- Entries of on-die heddle tables that a read met uncorrectable and that await their reload, by section type and index, with the word [15 R370; dc empty] -/
  badWords : List ((Nat × Nat) × BitVec 64)
  deriving DecidableEq, Repr

/-- Run-time state of one binding beside its context (03). -/
structure BindingRun where
  /-- Outstanding count, 20 bits [03 R76; dc 0] -/
  outstanding : BitVec 20
  /-- Hold timer start; none when stopped [03 R80; dc none] -/
  holdStart : Option (BitVec 64)
  /-- The timer has expired and a port is still down [03 R80; dc false] -/
  expired : Bool
  /-- Refused-request counter [03 R72; dc 0] -/
  refused : BitVec 64
  /-- ACTIVATE scheduled for the next weave-frame boundary [03 R77; dc none] -/
  activateAt : Option (BitVec 64)
  /-- A protection violation made the binding FROZEN [09 R220; dc false] -/
  violated : Bool
  /-- Tickets of BINDING_DRAIN waiting for FREE [03 Table 3-12; dc empty] -/
  drainTickets : List (BitVec 16)
  deriving DecidableEq, Repr

/-- State of a migration slot (03, Page migration overlay). -/
inductive MigState where
  | idle | copying | aborted
  deriving DecidableEq, Repr

/-- One of the 16 migration slots (03). -/
structure MigSlot where
  /-- State [03 R86 Table 3-12; dc IDLE] -/
  st : MigState
  /-- Page entry index [03; dc 0] -/
  page : BitVec 32
  /-- Watermark in lines, 0 to 32,768 [03 R82; reset by open to 0] -/
  watermark : BitVec 16
  /-- Span in lines, 0 to 64 [03 R82; reset by open to 0] -/
  span : BitVec 8
  /-- Phase bit [03 R84; dc 0] -/
  phase : Bool
  /-- Write-phase counter 0 [03 R83; dc 0] -/
  count0 : BitVec 16
  /-- Write-phase counter 1 [03 R83; dc 0] -/
  count1 : BitVec 16
  /-- Stall queue of 256 requests in arrival order [03 R83; dc empty] -/
  stall : List Decoding
  deriving DecidableEq, Repr

/-! ## Messages, cells, crossbar and cell buffer (spec/04, spec/05) -/

/-- State of a crossbar plane, numbered as xbar.plane_status reports it. -/
inductive PlaneSt where
  | up | down | test | standby
  deriving DecidableEq, Repr

/-- Cause of the last loss of a plane (R109), numbered as xbar.plane_status reports it. -/
inductive PlaneCause where
  | clockLock | headerErrors | resends | selfCheck
  deriving DecidableEq, Repr

/-- One crossbar plane (04). -/
structure Plane where
  /-- xbar.plane_status.state [04 R109 R112; reset 0 UP] -/
  st : PlaneSt
  /-- xbar.plane_status.cause [04 R109; reset 0] -/
  cause : PlaneCause
  /-- xbar.plane_status.check_fail [04 R112; reset 0] -/
  checkFail : Bool
  /-- xbar.plane_status.loss_count [04; reset 0] -/
  lossCount : BitVec 16
  /-- xbar.plane_status.resend_count [04 R97; reset 0] -/
  resendCount : BitVec 32
  /-- xbar.plane_ctl.rejoin [04 R112; reset 0] -/
  rejoin : Bool
  /-- First symptom seen, with its condition and time [04 R109; dc none] -/
  symptom : Option (PlaneCause × BitVec 64)
  /-- gptr by output [04 R100; reset 0] -/
  gptr : Tab (BitVec 6)
  /-- aptr by input [04 R100; reset 0] -/
  aptr : Tab (BitVec 6)
  /-- xbar.slot_cnt by index k [04 Table 4-5; reset 0] -/
  slotCnt : Tab (BitVec 64)
  /-- Header ECC failures by output in the current frame [04 R109; dc 0] -/
  hdrErr : Tab Nat
  /-- Resend-recovered cells by input × 64 + output in the current frame [04 R109; dc 0] -/
  recovered : Tab Nat
  /-- Frame the two error counts above belong to [04 R109; dc 0] -/
  errFrame : BitVec 64
  /-- Slots up to this number, counted from fabric time 0, have been matched [04 R95 R98; dc 0] -/
  nextSlot : Nat
  /-- Time at which the plane's logic was released for its self-check [04 R112; dc 0] -/
  testFrom : BitVec 64
  deriving DecidableEq, Repr

/-- State of a loom die-to-die link, numbered as xbar.loom_status reports it. -/
inductive LoomSt where
  | up | failed | retraining
  deriving DecidableEq, Repr

/-- The die-to-die link of one loom (04 R113). -/
structure LoomLink where
  /-- xbar.loom_status.state [04 R113; reset 0 UP] -/
  st : LoomSt
  /-- xbar.loom_status.failures [04; reset 0] -/
  failures : BitVec 16
  /-- xbar.loom_status.recoveries [04; reset 0] -/
  recoveries : BitVec 32
  /-- First symptom's time; the 30 µs timer runs from it [04 R113; dc none] -/
  symptomAt : Option (BitVec 64)
  /-- Time of the last retrain attempt [04 R113; dc 0] -/
  lastTry : BitVec 64
  deriving DecidableEq, Repr

/-- A message in a virtual output queue: its cells still in the buffer and the number already sent. -/
structure QMsg where
  msg : Msg
  /-- Cell IDs of the cells not yet sent, in order (R115). -/
  cells : List Nat
  /-- Cells of the message in all (R90). -/
  total : Nat
  /-- Fabric time [31:0] at the VOQ write (Table 4-1 stamp). -/
  stamp : BitVec 32
  deriving DecidableEq, Repr

/-- A chunk of a reservoir segment: the stack that holds it and whole messages' cell counts in it (R126). -/
structure Chunk where
  /-- Stack A false, stack B true. -/
  stackB : Bool
  /-- Cells in the chunk, at most 51. -/
  cells : Nat
  /-- Cell places of the chunk that have been filled so far, at most 51; a place is not filled twice. -/
  filled : Nat
  deriving DecidableEq, Repr

/-- A message in a reservoir segment: its cells, and the stamp of its VOQ write, which they keep (R90, R126). -/
structure RMsg where
  msg : Msg
  cells : Nat
  stamp : BitVec 32
  deriving DecidableEq, Repr

/-- One virtual output queue (R91) with its reservoir segment (R126). -/
structure Voq where
  /-- Buffer segment, oldest first [04 R91; dc empty] -/
  buf : List QMsg
  /-- Reservoir segment, oldest first [05 R126; dc empty] -/
  res : List RMsg
  /-- Chunks of the reservoir segment, head first [05 R126; dc empty] -/
  chunks : List Chunk
  /-- Messages (buffer and reservoir) still before the resume mark [05 R122; dc 0] -/
  mark : Nat
  deriving DecidableEq, Repr

/-- Starvation state of a VOQ group or an output's service-class queue (R102). -/
structure Starve where
  /-- Timer start; none while the queue is empty [04 R102; dc none] -/
  since : Option (BitVec 64)
  /-- Cells left of the promotion; 0 when not urgent [04 R102; dc 0] -/
  urgent : Nat
  /-- Order number of the promotion [04 R103; dc 0] -/
  order : Nat
  /-- Fabric time of the promotion [04 R103; dc 0] -/
  promoted : BitVec 64
  deriving DecidableEq, Repr

/-- A cell sent and not yet acknowledged (R97). -/
structure Unacked where
  seq : BitVec 12
  cellId : Nat
  msg : Msg
  /-- Position of the cell in its message, from 0. -/
  idx : Nat
  total : Nat
  /-- Stamp of the cell's VOQ write (Table 4-1). -/
  stamp : BitVec 32
  /-- Sent while its queue was promoted (Table 4-1 urg). -/
  urg : Bool
  /-- Plane the cell was last sent on. -/
  plane : BitVec 1
  /-- Plane of the last send that was not acknowledged (R97). -/
  lostOn : BitVec 1
  sentAt : BitVec 64
  resends : Nat
  /-- On its way across the plane. -/
  flying : Bool
  /-- Waiting for a slot to be resent. -/
  due : Bool
  /-- The output has received and acknowledged the cell; the acknowledgement has not reached the input. -/
  acked : Bool
  deriving DecidableEq, Repr

/-- A cell in an output's resequencer. -/
structure ECell where
  msg : Msg
  idx : Nat
  total : Nat
  stamp : BitVec 32
  /-- Sent while its queue was promoted (Table 4-1 urg). -/
  urg : Bool
  /-- An uncorrectable error lay in the message's data bytes (R107). -/
  poison : Bool
  /-- The cell is lost, or its error lay in the message's header: the message is discarded (R97, R107). -/
  bad : Bool
  /-- The cell's message was purged: its seq is passed over and staging takes nothing of it (05 R124). -/
  skip : Bool
  deriving DecidableEq, Repr

/-- A message in an output's egress staging: the cells of it released by the resequencer so far (R106, R506). -/
structure EMsg where
  msg : Msg
  got : Nat
  total : Nat
  /-- Stamp of its first cell (Table 4-1). -/
  stamp : BitVec 32
  /-- A cell of it was poisoned, or is lost (R97, R107). -/
  poison : Bool
  bad : Bool
  deriving DecidableEq, Repr

/-- One (input, output) pair: sequence numbers, acknowledgement window and resequencer (R96, R97). -/
structure Pair where
  /-- Next seq the input gives [04 R96; dc 0] -/
  nextSeq : BitVec 12
  /-- Unacknowledged cells, at most 64 [04 R97; dc empty] -/
  window : List Unacked
  /-- Next seq the output releases [04 R96; dc 0] -/
  wantSeq : BitVec 12
  /-- Cells waiting in the resequencer by seq, lost ones marked [04 R96 R97; dc empty] -/
  reseq : List (BitVec 12 × ECell)
  deriving DecidableEq, Repr

/-- State of an output, numbered as buf.out_state reports it. -/
inductive OutSt where
  | up | held | resuming
  deriving DecidableEq, Repr

/-- One output xp (05). -/
structure Output where
  /-- buf.out_state.state [05 Table 5-2; reset 0 UP] -/
  st : OutSt
  /-- buf.out_state.since [05; reset 0] -/
  since : BitVec 48
  /-- RSVR-0x0001 raised in this HELD episode [05 R127; dc false] -/
  quotaRaised : Bool
  /-- buf.age_cnt.cells [05; reset 0] -/
  ageCells : BitVec 32
  /-- buf.age_cnt.messages [05; reset 0] -/
  ageMsgs : BitVec 32
  /-- xbar.promote_cnt.output [04; reset 0] -/
  promoteOut : BitVec 32
  /-- xbar.promote_cnt.input of the input xp of this number [04; reset 0] -/
  promoteIn : BitVec 32
  /-- Egress staging by message class: messages in order of entry [05 R506; dc empty] -/
  staging : Tab (List EMsg)
  /-- Message class last served, by service class [08 R205; dc 7] -/
  lastClass : Tab (BitVec 3)
  /-- Starvation state of the output queues by service class [04 R102; dc none] -/
  starve : Tab Starve
  /-- Whole messages held in staging when the output entered RESUMING that have not gone out yet [05 R122; dc 0] -/
  stagedMark : Nat
  /-- Hold start of an upstream port's outputs by half [05 Table 5-3; dc none] -/
  upHold : Tab (Option (BitVec 64))
  deriving DecidableEq, Repr

/-- One buffer key (output xp, message class) (05). -/
structure BufKey where
  /-- buf.q_status.n [05 R117; reset 0] -/
  n : BitVec 20
  /-- buf.q_status.quota_full [05 R127; reset 0] -/
  quotaFull : Bool
  /-- buf.q_status.discarded [05; reset 0] -/
  discarded : BitVec 10
  /-- buf.q_status.res_cells [05; reset 0] -/
  resCells : BitVec 28
  /-- Reservoir chunks charged to the key [05 R127; dc 0] -/
  chunks : Nat
  deriving DecidableEq, Repr

/-- Owner of a cell, as its metadata word says (R115). -/
inductive CellOwner where
  | free | voq | awaitingAck | spilling
  deriving DecidableEq, Repr

/-- A cell's metadata word: owner and audit colour bit (R115); the link is the lists' own. -/
structure CellMeta where
  owner : CellOwner
  colour : Bool
  deriving DecidableEq, Repr

/-- Phase of the leaked-buffer audit (R131). -/
inductive AuditPhase where
  | idle | walk | sweep
  deriving DecidableEq, Repr

/-- A message waiting in an ingress receive buffer for admission (R118). -/
structure Waiting where
  msg : Msg
  outXp : BitVec 6
  deriving DecidableEq, Repr

/-- The crossbar and its buffer (04, 05). -/
structure XbarState where
  /-- The two planes [04; see Plane] -/
  planes : Tab Plane
  /-- The eight loom links [04; see LoomLink] -/
  looms : Tab LoomLink
  /-- VOQs by ((input × 64 + output) × 8 + mclass) × 8 + sclass [04 R91; dc empty] -/
  voqs : Tab Voq
  /-- Pairs by input × 64 + output [04 R96 R97; see Pair] -/
  pairs : Tab Pair
  /-- Class last served by an input for an output and group, by (input × 64 + output) × 8 + sclass [04 R93; dc 7] -/
  lastServed : Tab (BitVec 3)
  /-- Starvation state of VOQ groups by (input × 64 + output) × 8 + sclass [04 R102; see Starve] -/
  starve : Tab Starve
  /-- Order number given to the next promotion [04 R103; dc 0] -/
  promoteOrder : Nat
  /-- Outputs [05; see Output] -/
  outs : Tab Output
  /-- Keys by xp × 8 + class [05; see BufKey] -/
  keys : Tab BufKey
  /-- Metadata words by cell ID [05 R115; reset all on the free lists, colour dc 0] -/
  cells : Tab CellMeta
  /-- Bank that the rotation tries next [05 R115; dc 0] -/
  nextBank : Nat
  /-- Ingress receive buffers by input × 8 + class, oldest first [05 R118; dc empty] -/
  rx : Tab (List Waiting)
  /-- Credits returned on the link by input × 8 + class (count of messages) [05 R118; dc 0] -/
  creditsReturned : Tab Nat
  /-- buf.audit_status.passes [05; reset 0] -/
  passes : BitVec 32
  /-- buf.audit_status.last_leaked [05; reset 0] -/
  lastLeaked : BitVec 20
  /-- buf.audit_status.repair_passes [05; reset 0] -/
  repairPasses : BitVec 11
  /-- buf.audit_ctl.run [05; reset 0] -/
  auditRun : Bool
  /-- Audit phase; in_pass is phase ≠ idle [05 R131; reset idle] -/
  auditPhase : AuditPhase
  /-- Pass colour [05 R131; dc 0] -/
  passColour : Bool
  /-- Start of the last pass [05 R131; dc 0] -/
  auditStart : BitVec 64
  /-- Stack that takes the first chunk of the next segment [05 R126; dc A] -/
  nextStackB : Bool
  /-- Free cells by bank that the walk of the running pass cut off a broken free list [05 R133; dc 0] -/
  cutFree : Tab Nat
  /-- Chunks in use in stack A and stack B; rsvr.status.chunks_free is the rest of the stack's share [05 R126 R127; reset none in use] -/
  chunksUsed : Tab Nat
  /-- rsvr.status.state by stack: true LOST [05 R129; reset 0 UP] -/
  stackLost : Tab Bool
  /-- Times every quota has been halved [05 R129; dc 0] -/
  quotaHalvings : Nat
  /-- Loss counter of an output's messages lost with a stack or chunk, by xp [05 R129; dc 0] -/
  lostMsgs : Tab Nat
  deriving DecidableEq, Repr

/-! ## Coherence proxy (spec/06) -/

/-- Stage of a request or eviction tracker. -/
inductive TrkStage where
  /-- Waiting for a snoop-filter set read (directory miss). -/
  | fill
  /-- Waiting for a way of a full set to be unpinned (R145). -/
  | allPinned
  /-- Waiting for the BIRsps of its round. -/
  | snoop
  /-- Waiting for the backing device. -/
  | backing
  deriving DecidableEq, Repr

/-- What a round of BISnp was sent for. -/
inductive RoundKind where
  | none | inv | data | cur
  deriving DecidableEq, Repr

/-- A request tracker (R148): one request through its snoop round and its backing access. -/
structure Tracker where
  req : Msg
  stage : TrkStage
  round : RoundKind
  /-- Outstanding answers by logical port, with the time each BISnp was sent and the part of bi_timeout already counted. -/
  waiting : List (Nat × BitVec 64)
  /-- Sharers the round was sent to (for the next state). -/
  snooped : List Nat
  /-- Answer of an A holder: 0 none, 1 BIRspI, 2 BIRspS, 3 BIRspE. -/
  answer : BitVec 2
  /-- The round is a broadcast of unknown holders (R159). -/
  broadcast : Bool
  /-- A snoop-filter set read has answered this tracker: its line's entry is settled (R146). -/
  known : Bool
  deriving DecidableEq, Repr

/-- An eviction tracker (R148, R153): a victim's recall. -/
structure Evict where
  sa : BitVec 48
  /-- Home stack of the line, stack B true. -/
  hs : Bool
  /-- The victim's entry. -/
  entry : BitVec 128
  waiting : List (Nat × BitVec 64)
  deriving DecidableEq, Repr

/-- A message on a park list, with the cells of the shared buffer it stays in (R149). -/
structure Parked where
  msg : Msg
  cells : List Nat
  deriving DecidableEq, Repr

/-- A directory-cache way (R146). -/
structure DirWay where
  /-- Shared address of the line, bits [47:6]. -/
  line : BitVec 42
  /-- The entry in the snoop filter's own format; v = 0 for a pinned I line. -/
  entry : BitVec 128
  dirty : Bool
  pinned : Bool
  deriving DecidableEq, Repr

/-- One proxy slice (06). -/
structure Slice where
  /-- Active request trackers, oldest first; with those that messages on wait lists hold they are prxy.slice_status.req_busy [06 R148; reset 0] -/
  trackers : List Tracker
  /-- Writeback slots in use; prxy.slice_status.wb_busy is their number [06 R148 R150; reset 0] -/
  wbs : List Msg
  /-- Eviction trackers in use; prxy.slice_status.evict_busy is their number [06 R148 R153; reset 0] -/
  evicts : List Evict
  /-- Park list; prxy.slice_status.parked is its length [06 R149; reset 0] -/
  park : List Parked
  /-- Wait lists: messages waiting on a line, each with a tracker of its own, in the order the slice took them [06 R148; dc empty] -/
  waits : List Msg
  /-- prxy.slice_cnt by index k [06 Table 6-8; reset 0] -/
  cnt : Tab (BitVec 64)
  /-- Directory-cache ways by directory set × 16 + way [06 R146; dc empty] -/
  dir : Tab (Option DirWay)
  /-- Directory-cache victim pointers by directory set [06 R146; dc 0] -/
  dirPtr : Tab (BitVec 4)
  deriving DecidableEq, Repr

/-- The coherence proxy (06). -/
structure ProxyState where
  /-- prxy.status.degraded [06 R159; reset 0] -/
  degraded : Bool
  /-- prxy.status.lost_stack [06 R158; reset 0] -/
  lostStack : Bool
  /-- prxy.status.degraded_since [06; reset 0] -/
  degradedSince : BitVec 48
  /-- Logical ports whose departure sweep is running or due; sweep_active is a non-empty list, sweep_port its head [06 R154; reset empty] -/
  sweeps : List Nat
  /-- prxy.ctl.bi_timeout [06; reset 500] -/
  biTimeout : BitVec 20
  /-- prxy.ctl.loss_poison [06; reset 1] -/
  lossPoison : Bool
  /-- prxy.departed [06 R154; reset 0] -/
  departed : BitVec 96
  /-- prxy.hpa_offset by logical port [06 R143; reset 0] -/
  hpaOffset : Tab (BitVec 64)
  /-- The eight slices [06; see Slice] -/
  slices : Tab Slice
  /-- Snoop-filter entries by ((slice × 2 + stack) × 2^22 + set) × 16 + way [06 R142 R144; dc 0] -/
  sf : Tab (BitVec 128)
  /-- Snoop-filter sets that an uncorrectable read rewrote with an UNK marker [06 R157; dc empty] -/
  unkSets : List Nat
  /-- Coarse tracker copy of stack A by region [06 R147; dc 0] -/
  coarseA : Tab (BitVec 128)
  /-- Coarse tracker copy of stack B by region [06 R147; dc 0] -/
  coarseB : Tab (BitVec 128)
  /-- Completions of slices' own accesses that returned without crossing, in error or not [06 R152; dc empty] -/
  back : List (Msg × Bool)
  /-- PRXY-0x0030 PARK_HIGH raised for the REQ key of xp 56 + k and not yet below three quarters again [06 R149; dc false] -/
  parkHigh : Tab Bool
  deriving DecidableEq, Repr

/-! ## Scribe engines and instances (spec/07) -/

/-- State of a scribe instance, numbered as Table 7-1 gives. -/
inductive InstSt where
  | disabled | ready | freezing | frozen | resetting
  deriving DecidableEq, Repr

/-- Error of a scribe queue, numbered as inst.q.index.err. -/
inductive QErr where
  | none | overrun | fetchFail | compFail
  deriving DecidableEq, Repr

/-- One queue of a scribe instance (07). -/
structure SQueue where
  /-- inst.q.cfg.enable [07; reset 0] -/
  enable : Bool
  /-- inst.q.cfg.size [07; reset 4] -/
  size : BitVec 4
  /-- inst.q.cfg.irq_en [07; reset 0] -/
  irqEn : Bool
  /-- inst.q.ring_off, bits [11:0] read 0 [07; reset 0] -/
  ringOff : BitVec 64
  /-- inst.q.comp_off, bits [11:0] read 0 [07; reset 0] -/
  compOff : BitVec 64
  /-- inst.q.index.producer [07; reset 0] -/
  producer : BitVec 16
  /-- inst.q.index.consumer [07; reset 0] -/
  consumer : BitVec 16
  /-- inst.q.index.phase [07; reset 1] -/
  phase : Bool
  /-- inst.q.index.err [07; reset 0] -/
  err : QErr
  /-- Index of the next descriptor to fetch [07 R171; dc 0] -/
  fetchIdx : BitVec 16
  /-- Index whose record is written next: consumer, or beyond a descriptor whose fetch failed [07 R170 R173; dc 0] -/
  recIdx : BitVec 16
  /-- Lines of the descriptor at consumer already done before a restore [07 R181; dc 0] -/
  partialLines : BitVec 32
  deriving DecidableEq, Repr

/-- Stage of a descriptor held by the device. -/
inductive DescStage where
  /-- Its fetch is on the way (R171). -/
  | fetching
  /-- Fetched, waiting for a channel (R162). -/
  | ready
  /-- On a channel. -/
  | running
  /-- Every line done or halted; its record waits for its turn in ring order (R173). -/
  | finished
  /-- Its completion record is being written. -/
  | recording
  /-- Its fetch failed: it has no completion (R177). -/
  | failed
  /-- Dropped by a reset or with its queue; its lines in flight are still to return (R182). -/
  | dropped
  deriving DecidableEq, Repr

/-- A descriptor fetched and not yet completed (07). -/
structure Desc where
  inst : BitVec 10
  q : BitVec 2
  index : BitVec 16
  /-- The 64 descriptor bytes, little-endian (Table 7-3). -/
  raw : BitVec 512
  stage : DescStage
  engine : BitVec 4
  /-- Order number: of the fetch until it is back, then of readiness (R162). -/
  order : Nat
  /-- Next line to issue, from 0. -/
  next : Nat
  /-- Lines completed. -/
  done : Nat
  /-- Lines in flight: numbers of lines issued and not completed; a fetch and a record write have numbers of their own
  above every line of a descriptor (R164). -/
  flight : List Nat
  status : BitVec 8
  detail : BitVec 7
  /-- A halt stopped further issue (R176). -/
  halted : Bool
  /-- Migration slot held by a MIGRATE_PAGE descriptor. -/
  slot : Option (BitVec 4)
  /-- Line at which this descriptor's migration began. -/
  first : Nat
  deriving DecidableEq, Repr

/-- One scribe instance (07). -/
structure Inst where
  /-- inst.status.state [07 Table 7-1; reset 0 DISABLED] -/
  st : InstSt
  /-- inst.status.cause [13] PROT [07; reset 0] -/
  causeProt : Bool
  /-- inst.status.cause [14] OWNER [07; reset 0] -/
  causeOwner : Bool
  /-- inst.ctl.reset reads 1 until RESETTING ends; the state says so [07; reset 0] -/
  disableAfter : Bool
  /-- inst.share.share [07 R174; reset 0] -/
  share : BitVec 16
  /-- inst.share.burst [07 R174; reset 0] -/
  burst : BitVec 16
  /-- Share and burst in force from the next refill [07 R175; dc none] -/
  newShare : Option (BitVec 16 × BitVec 16)
  /-- inst.share.tokens [07 R174; reset 0] -/
  tokens : BitVec 16
  /-- engine_mask [07 Table 7-9; dc 0] -/
  engineMask : BitVec 16
  /-- desc_quota [07 Table 7-9; dc 0] -/
  descQuota : BitVec 16
  /-- migrate_ok [07 Table 7-9; dc 0] -/
  migrateOk : Bool
  /-- bslot 0 to 7: binding number, 0xFFFF empty [07 Table 7-9; dc empty] -/
  bslots : Tab (BitVec 16)
  /-- The four queues [07; see SQueue] -/
  queues : Tab SQueue
  /-- inst.mbox.t2o_ctl.len [07; reset 0] -/
  t2oLen : BitVec 9
  /-- inst.mbox.t2o_ctl.full [07; reset 0] -/
  t2oFull : Bool
  /-- t2o data, 256 bytes [07; dc 0] -/
  t2oData : Tab Byte
  /-- inst.mbox.o2t_ctl.len [07; reset 0] -/
  o2tLen : BitVec 9
  /-- inst.mbox.o2t_ctl.full [07; reset 0] -/
  o2tFull : Bool
  /-- Time at which o2t full was last set [00 R11; dc none] -/
  o2tAt : Option (BitVec 64)
  /-- Time of the last write of 1 to inst.ctl.reset in RESETTING [00 R11; dc none] -/
  resetAt : Option (BitVec 64)
  /-- inst.mbox.o2t_ctl.irq_en [07; reset 0] -/
  o2tIrq : Bool
  /-- o2t data, 256 bytes [07; dc 0] -/
  o2tData : Tab Byte
  /-- inst.cnt.lines [07; reset 0] -/
  cntLines : BitVec 40
  /-- inst.cnt.descs [07; reset 0] -/
  cntDescs : BitVec 24
  /-- Tickets of INSTANCE_RESET waiting for the end [07; dc empty] -/
  resetTickets : List (BitVec 16)
  /-- Tickets of INSTANCE_FREEZE waiting for FROZEN [07; dc empty] -/
  freezeTickets : List (BitVec 16)
  deriving DecidableEq, Repr

/-- One scribe engine (07). -/
structure Engine where
  /-- ENGINE_STATUS.state: true RESETTING [07 Table 7-9; dc UP] -/
  resetting : Bool
  /-- ENGINE_STATUS.lines [07 Table 7-9; dc 0] -/
  lines : BitVec 64
  /-- Position of the rotation: order number of the descriptor last served [07 R163; dc 0] -/
  rotor : Nat
  /-- Earliest time of the next line, in fifths of a tick: 3.2 ns are 128 of them [07 R161; dc 0] -/
  nextIssue : Nat
  deriving DecidableEq, Repr

/-- The scribe block (07). -/
structure ScribeState where
  /-- The 1,024 instances [07; see Inst] -/
  insts : Tab Inst
  /-- The 16 engines [07; see Engine] -/
  engines : Tab Engine
  /-- Descriptors held fetched and not completed, oldest first [07 R171; dc empty] -/
  descs : List Desc
  /-- Order number of the next descriptor to become ready [07 R162; dc 0] -/
  order : Nat
  /-- Completions of lines that returned to their engine without crossing, in error or not [07 R173; dc empty] -/
  back : List (Msg × Bool)
  /-- Refills done: fabric time of the last one in units of 32,000 ticks [07 R174; dc 0] -/
  refilled : BitVec 64
  deriving DecidableEq, Repr

/-! ## Traffic control (spec/08) -/

/-- Meter, shaper and counters of one binding (08). -/
structure Meter where
  /-- Committed bucket tc, 1/256 byte; none stands for full, as R201 gives for a binding not yet metered [08 R194 R201; reset full] -/
  tc : Option (BitVec 32)
  /-- Peak bucket tp [08 R194 R201; reset full] -/
  tp : Option (BitVec 32)
  /-- Shaper bucket ts [08 R195 R201; reset full] -/
  ts : Option (BitVec 32)
  /-- Requests that joined the shaper list [08 Table 8-4; dc 0] -/
  shaped : BitVec 32
  /-- Green requests [08 Table 8-4; dc 0] -/
  green : BitVec 64
  /-- Yellow requests [08 Table 8-4; dc 0] -/
  yellow : BitVec 64
  /-- Red requests [08 Table 8-4; dc 0] -/
  red : BitVec 64
  /-- Refused requests [08 R199; dc 0] -/
  refused : BitVec 64
  /-- Shaper list, oldest first [08 R195; dc empty] -/
  list : List Waiting
  deriving DecidableEq, Repr

/-- Depth and delay sampling of one output and service class (08 R207). -/
structure Sampler where
  /-- Last depth sample of the running window [08 R207; dc 0] -/
  dLast : BitVec 20
  /-- Largest depth of the running window [08 R207; dc 0] -/
  dMax : BitVec 20
  /-- Sum of the running window's depths [08 R207; dc 0] -/
  dSum : Nat
  /-- Largest delay of the running window [08 R207; dc 0] -/
  yMax : BitVec 32
  /-- Sum of the running window's delays [08 R207; dc 0] -/
  ySum : Nat
  /-- traf.q_depth [08; reset 0] -/
  qDepth : BitVec 64
  /-- traf.q_delay [08; reset 0] -/
  qDelay : BitVec 64
  deriving DecidableEq, Repr

/-- The traffic controller (08). -/
structure TrafficState where
  /-- Meters by binding [08; see Meter] -/
  meters : Tab Meter
  /-- Sets accepted and not yet applied, by TRAFFIC record index: record and boundary [08 R202; dc empty] -/
  sets : Tab (Option (BitVec 512 × BitVec 64))
  /-- Samplers by xp × 8 + class [08 R207; see Sampler] -/
  samplers : Tab Sampler
  /-- traf.win by xp [08 R207; reset 0] -/
  win : Tab (BitVec 64)
  /-- Weave frames whose refill has been applied: the model's own field [08 R200; dc 0] -/
  refilled : BitVec 64
  /-- Fabric time from which the next sample of an xp is taken, by xp: the model's own field [08 R207; dc 0] -/
  sampled : Tab (BitVec 64)
  deriving DecidableEq, Repr

/-! ## Protection units (spec/09) -/

/-- The captured violation (09 R220, prot.viol_*). -/
structure ViolRec where
  /-- prot.viol_status.valid [09; reset 0] -/
  valid : Bool
  /-- prot.viol_status.kind [09; reset 0] -/
  kind : BitVec 2
  /-- prot.viol_status.cause [09; reset 0] -/
  cause : BitVec 2
  /-- prot.viol_status.src [09; reset 0] -/
  src : BitVec 2
  /-- prot.viol_status.entry_v [09; reset 0] -/
  entryV : Bool
  /-- prot.viol_status.binding [09; reset 0] -/
  binding : BitVec 13
  /-- prot.viol_status.instance [09; reset 0] -/
  inst : BitVec 10
  /-- prot.viol_status.port [09; reset 0] -/
  port : BitVec 7
  /-- prot.viol_status.entry [09; reset 0] -/
  entry : BitVec 14
  /-- prot.viol_addr.dev [09; reset 0] -/
  dev : BitVec 52
  /-- prot.viol_src.addr [09; reset 0] -/
  addr : BitVec 64
  /-- prot.viol_info.feid [09; reset 0] -/
  feid : BitVec 16
  /-- prot.viol_info.stamp [09; reset 0] -/
  stamp : BitVec 48
  /-- Full fabric time of the check, as PROT_VIOL_READ returns it [09 Table 9-4; dc 0] -/
  stampFull : BitVec 64
  /-- prot.viol_epoch.epoch [09; reset 0] -/
  epoch : BitVec 32
  /-- Whole label of the deciding entry [09 R224; dc 0] -/
  label : BitVec 32
  /-- prot.viol_epoch.later [09; reset 0] -/
  later : BitVec 16
  /-- Input xp of the access, by which violations of one clock are ordered [09 R221; dc 0] -/
  inXp : BitVec 6
  deriving DecidableEq, Repr

/-- A PROT_FENCE waiting (09 R219). -/
structure Fence where
  ticket : BitVec 16
  epoch : BitVec 32
  /-- Time of acceptance and its limit in µs (0 none). -/
  since : BitVec 64
  limit : BitVec 32
  deriving DecidableEq, Repr

/-- The protection units (09). -/
structure ProtState where
  /-- prot.epoch.epoch [09 R217; reset 0] -/
  epoch : BitVec 32
  /-- prot.inflight.current [09 R219; reset 0] -/
  current : BitVec 24
  /-- prot.inflight.prior [09 R219; reset 0] -/
  prior : BitVec 24
  /-- The violation record [09; see ViolRec] -/
  viol : ViolRec
  /-- The last violation that found the record full: it is captured where the record is cleared in its clock [09 R221; dc none] -/
  fresh : Option ViolRec
  /-- prot.bind_viol by binding [09; reset 0] -/
  bindViol : Tab (BitVec 32)
  /-- Entries whose on-die word is uncorrectable and not yet reloaded [09 R222; dc empty] -/
  badEntries : List Nat
  /-- Fences waiting [09 R219; dc empty] -/
  fences : List Fence
  deriving DecidableEq, Repr

/-! ## CXL ports (spec/10) -/

/-- State of a logical port, numbered as Table 10-3 gives. -/
inductive PortSt where
  | off | detect | training | confirm | up | down
  deriving DecidableEq, Repr

/-- Cause of a port's last down declaration, numbered as port.status.down_cause. -/
inductive DownCause where
  | link | retry | ide | presence
  deriving DecidableEq, Repr

/-- A tag of an egress tag map in use (R19): the message it was given to. -/
structure TagUse where
  msg : Msg
  /-- Fabric time at which the tag was given. -/
  since : BitVec 64
  deriving DecidableEq, Repr

/-- A command of the 0x04 or 0x05 family waiting for its end. -/
structure LinkCmd where
  ticket : BitVec 16
  /-- 0 retrain, 1 disable, 2 enable. -/
  kind : BitVec 2
  since : BitVec 64
  deriving DecidableEq, Repr

/-- One logical CXL port (10). -/
structure Port where
  /-- port.status.role, from the PORT record in force or the board table [10 R228; reset 0] -/
  role : BitVec 2
  /-- port.status.state [10 Table 10-3; reset 0 OFF] -/
  st : PortSt
  /-- port.status.rate [10; reset 0] -/
  rate : BitVec 3
  /-- port.status.flit256 [10; reset 0] -/
  flit256 : Bool
  /-- port.status.lopt [10; reset 0] -/
  lopt : Bool
  /-- port.status.ide: IDE streams Secure [10; reset 0] -/
  ideSecure : Bool
  /-- port.status.mld [10; reset 0] -/
  mld : Bool
  /-- port.status.id_differs [10 R237; reset 0] -/
  idDiffers : Bool
  /-- port.status.l0p [10; reset 0] -/
  l0p : Bool
  /-- port.status.down_cause [10; reset 0] -/
  downCause : DownCause
  /-- port.status.since [10; reset 0] -/
  since : BitVec 48
  /-- port.link.width [10; reset 0] -/
  width : BitVec 5
  /-- port.link.trained [10; reset 0] -/
  trained : BitVec 5
  /-- port.link.downs [10; reset 0] -/
  downs : BitVec 16
  /-- port.link.recoveries [10; reset 0] -/
  recoveries : BitVec 32
  /-- port.ident.serial: recorded serial or session count; 0 none [10; reset 0] -/
  ident : BitVec 64
  /-- port.ld_map, ld_count and map_crc [10; reset 0] -/
  ldMap : BitVec 64
  /-- An identity is recorded [10 R121; dc false] -/
  recorded : Bool
  /-- Serial of the current partner while id_differs = 1 [10 R248; dc 0] -/
  pendingIdent : BitVec 64
  /-- LD map of the current partner while id_differs = 1 [10 R234; dc 0] -/
  pendingLdMap : BitVec 64
  /-- Session count of a USP's host, advanced by Hot Reset, Link Disable and device resets [10 R234; dc 0] -/
  session : BitVec 64
  /-- First symptom and its cause; the down_detect_us wait runs [10 R235; dc none] -/
  symptom : Option (DownCause × BitVec 64)
  /-- The LTSSM is in L0 [10 R231; dc false] -/
  inL0 : Bool
  /-- A commanded retrain is under way, started at this time [10 R248; dc none] -/
  retrain : Option (BitVec 64)
  /-- Disabled by PORT_DISABLE [10 R248; dc false] -/
  disabled : Bool
  /-- Time of the last entry to L0 [10 R233; dc 0] -/
  l0At : BitVec 64
  /-- PORT-0x0003 raised in this stay in CONFIRM [10 R233; dc false] -/
  confirmRaised : Bool
  /-- Declared down and not yet UP since [10 R237; dc false] -/
  isDown : Bool
  /-- A record with CONFIG_INVALID keeps the port DISABLED [10 R229; dc false] -/
  invalid : Bool
  /-- Held DOWN by an applied level-2 isolation [16 R382; dc false] -/
  isolated : Bool
  /-- port.err_cnt by index k [10 Table 10-8; reset 0] -/
  cnt : Tab (BitVec 64)
  /-- Egress tag map by tag [10 R19; dc empty] -/
  tags : Tab (Option TagUse)
  /-- Commands waiting for their end [10 R248; dc empty] -/
  cmds : List LinkCmd
  /-- Slot Status bits: Attention Button Pressed, Presence Detect Changed, Power Fault, DLL State Changed, Command Completed [10 R245; dc 0] -/
  slotSts : BitVec 16
  /-- Responses, posted writes and BIRsp sent and not yet acknowledged, oldest first [10 Table 10-5; dc empty] -/
  replay : List Msg
  /-- Rate that PORT_RETRAIN names for the retrain under way [10 R248; dc none] -/
  rateCap : Option (BitVec 3)
  /-- IDE keys by stream, 0 CXL.cachemem and 1 PCIe [10 R242, 19 Table 19-5; dc none] -/
  ideKeys : Tab (Option (BitVec 256))
  /-- IDE streams in the Secure state [10 R233, R242; dc none] -/
  ideOpen : BitVec 2
  deriving DecidableEq, Repr

/-! ## Weft links (spec/11) -/

/-- State of a Weft link, numbered as Table 11-6 gives. -/
inductive WeftSt where
  | off | detect | equalize | align | param | up | relock
  deriving DecidableEq, Repr

/-- Cause of a Weft link's last down declaration, numbered as weft.status.down_cause. -/
inductive WeftCause where
  | lock | replay | partner | protocol | command | reset
  deriving DecidableEq, Repr

/-- Outcome of PARAM, numbered as weft.status.outcome (Table 11-8). -/
inductive WeftOutcome where
  | none | resume | fresh | new
  deriving DecidableEq, Repr

/-- One virtual channel of a Weft link (R269 to R271). -/
structure WeftVc where
  /-- C, slots sent, modulo 2^32 [11 R269; dc 0] -/
  sent : BitVec 32
  /-- R, slots the partner has reported freed [11 R269; dc 0] -/
  reported : BitVec 32
  /-- G, slots this end has freed [11 R269; dc 0] -/
  freed : BitVec 32
  /-- weft.credit.limit: the partner's vc_slots [11 R275; reset 0] -/
  limit : BitVec 17
  /-- weft.credit.occupancy: slots in this end's receive buffer [11 R271; reset 0] -/
  occupancy : BitVec 17
  /-- Slots freed since the channel's last credit return [11 R270; dc false] -/
  owed : Bool
  /-- Partial message being received: message, its slots in all, slots received [11 R260; dc none] -/
  part : Option (Msg × Nat × Nat)
  /-- Message being sent: message, its slots in all, slots already sent [11 R260; dc none] -/
  out : Option (Msg × Nat × Nat)
  /-- A SNAP for this channel is due [11 R271; dc false] -/
  snapDue : Bool
  deriving DecidableEq, Repr

/-- A SEQ flit in the replay buffer: its sequence number and its slots (R265). -/
structure SentFlit where
  seq : BitVec 12
  slots : List WSlot
  deriving DecidableEq, Repr

/-- Transmit coding of a Weft link (11 R250 to R255). -/
structure WeftTx where
  /-- The scrambler's last 58 line bits, the latest at bit 0 [11 R252; dc 0] -/
  scr : BitVec 58
  /-- Message bits that wait for their codeword pair, first bit lowest [11 R253; dc 0] -/
  acc : Nat
  /-- How many bits wait [11 R253; dc 0] -/
  len : Nat
  /-- Flit position of the next flit in the alignment period [11 R254; dc 0] -/
  pos : Nat
  /-- Period count of the next alignment flit [11 Table 11-1; dc 0] -/
  period : BitVec 10
  deriving DecidableEq, Repr

/-- Receive coding of a Weft link (11 R250 to R255). -/
structure WeftRecv where
  /-- The alignment flit is found on every lane [11 R255; dc false] -/
  locked : Bool
  /-- Logical number of each lane as wired, and whether it is inverted [11 R250; dc empty] -/
  order : List (BitVec 2 × Bool)
  /-- Symbols of each lane as wired that wait for their pair [11 R250; dc empty] -/
  sym : List (List (BitVec 10))
  /-- The descrambler's last 58 line bits [11 R252; dc 0] -/
  scr : BitVec 58
  /-- Message bits that wait for their flit position [11 R254; dc 0] -/
  acc : Nat
  /-- How many bits wait [11 R254; dc 0] -/
  len : Nat
  /-- Flit position of the next bits in the alignment period [11 R254; dc 0] -/
  pos : Nat
  /-- Codeword pairs taken in this alignment period [11 R254; dc 0] -/
  pair : Nat
  /-- Consecutive periods whose alignment flit was not found on some lane [11 R278; dc 0] -/
  missed : Nat
  /-- Blocks received [11 R278; dc 0] -/
  blocks : Nat
  /-- Numbers of the invalid blocks among the last 1,024 [11 R251 R278; dc empty] -/
  invalid : List Nat
  deriving DecidableEq, Repr

/-- One Weft link (11). -/
structure Weft where
  /-- Coding of its transmitter [11 R250; see WeftTx] -/
  tx : WeftTx
  /-- Coding of its receiver [11 R250; see WeftRecv] -/
  recv : WeftRecv
  /-- weft.status.state [11 Table 11-6; reset 0 OFF] -/
  st : WeftSt
  /-- weft.status.held: declared down and not yet resumed [11; reset 0] -/
  held : Bool
  /-- weft.status.id_differs [11 R276; reset 0] -/
  idDiffers : Bool
  /-- weft.status.fec: correction on [11 R256; reset 0] -/
  fecOn : Bool
  /-- weft.status.vc_count, negotiated [11 R275; reset 0] -/
  vcCount : BitVec 4
  /-- weft.status.down_cause [11; reset 0] -/
  downCause : WeftCause
  /-- weft.status.outcome [11 R276; reset 0 none] -/
  outcome : WeftOutcome
  /-- weft.status.since [11; reset 0] -/
  since : BitVec 48
  /-- weft.ident.serial [11; reset 0] -/
  ident : BitVec 64
  /-- weft.peer.link [11; reset 0] -/
  peerLink : BitVec 3
  /-- weft.peer.session [11; reset 0] -/
  peerSession : BitVec 32
  /-- A partner identity is recorded [11 R276, 05 R121; dc false] -/
  recorded : Bool
  /-- vc_slots of the partner at the last UP [11 Table 11-8; dc 0] -/
  peerSlots : Tab (BitVec 32)
  /-- This end's session value [11 R276; reset drawn at random: free value] -/
  session : BitVec 32
  /-- This end's session value at the last UP [11 Table 11-8; dc 0] -/
  sessionAtUp : BitVec 32
  /-- weft.seq.tx_next [11 R265; reset 0] -/
  txNext : BitVec 12
  /-- weft.seq.acked [11 R267; reset 0] -/
  acked : BitVec 12
  /-- weft.seq.rx_next: E [11 R266; reset 0] -/
  rxNext : BitVec 12
  /-- The session has accepted a flit: ack_v [11 R267; dc false] -/
  accepted : Bool
  /-- Replay buffer, oldest first, at most 1,024; weft.seq.unacked is its length [11 R265; reset 0] -/
  replay : List SentFlit
  /-- Flits of the running replay round still to be resent, by position in the replay buffer; none when no round runs [11 R268; dc none] -/
  round : Option Nat
  /-- ack_seq of the NAK whose round runs [11 R268; dc none] -/
  roundAck : Option (BitVec 12)
  /-- Rounds run without advance of the acknowledgement [11 R268; dc 0] -/
  stuckRounds : Nat
  /-- Time since which flits stay unacknowledged without advance [11 R268; dc none] -/
  stuckSince : Option (BitVec 64)
  /-- Start of the running replay_timeout: the last advance or round [11 R268; dc none] -/
  timerAt : Option (BitVec 64)
  /-- A NAK is to go out in the next flit [11 R266; dc false] -/
  nakDue : Bool
  /-- A NAK went out and no flit has been accepted since, sent at this time [11 R266; dc none] -/
  nakSent : Option (BitVec 64)
  /-- Virtual channels by number [11; see WeftVc] -/
  vcs : Tab WeftVc
  /-- Egress tag map by tag [11 R19 R260; dc empty] -/
  tags : Tab (Option TagUse)
  /-- Configured vc_count [11 R283; reset board table, dc 8] -/
  cfgVc : BitVec 4
  /-- Configured fec [11 R283; reset board table, dc 1] -/
  cfgFec : Bool
  /-- Configured vc_slots [11 R283; reset board table, the default split] -/
  cfgSlots : Tab (BitVec 32)
  /-- replay_timeout_us [11 R283; default 4] -/
  replayTimeout : BitVec 16
  /-- resync_us [11 R283; default 64] -/
  resyncUs : BitVec 16
  /-- tsync_us [11 R283; default 8] -/
  tsyncUs : BitVec 16
  /-- tag_timeout_ms [11 R283; default 50] -/
  tagTimeout : BitVec 16
  /-- First symptom of the RELOCK wait [11 R278; dc none] -/
  relockAt : Option (BitVec 64)
  /-- Time from which the training state's limit runs: its entry, in PARAM the last good TRAIN flit [11 R273; dc 0] -/
  stateAt : BitVec 64
  /-- Consecutive good TRAIN flits received [11 R275; dc 0] -/
  goodTrains : Nat
  /-- TRAIN flits sent with seen = 1 [11 R275; dc 0] -/
  seenSent : Nat
  /-- The last 8 good TRAIN flits all had seen = 1: count [11 R275; dc 0] -/
  seenGot : Nat
  /-- A TRAIN flit with seen = 1 has come in this stay in PARAM [11 R275; dc false] -/
  sawSeen : Bool
  /-- What the partner's TRAIN flits say [11 R274; dc none] -/
  peer : Option WeftPeer
  /-- rx_valid this end sends: receive state kept [11 R274 R279; dc false] -/
  rxValid : Bool
  /-- MGMT messages received on VC0 and not yet acted on: APPLY and RESTORE [11 R264; dc empty] -/
  heard : List Msg
  /-- Virtual channel that the next credit return looks at first [11 R270; dc 0] -/
  crNext : BitVec 3
  /-- Time of the last round of SNAPs [11 R271; dc 0] -/
  snapAt : BitVec 64
  /-- Sideband TIME due, with its sync_id [11 R272; dc none] -/
  timeDue : Bool
  /-- ECHO due: sync_id and arrival stamp [11 R272; dc none] -/
  echoDue : Option (BitVec 8 × BitVec 48)
  /-- sync_id of the next TIME [11 R272; dc 0] -/
  syncId : BitVec 8
  /-- t1: departure stamps of own TIMEs by sync_id [11 R272; dc none] -/
  t1 : Tab (Option (BitVec 48))
  /-- t2 − t1 of the last ECHO [11 R272; dc none] -/
  forward : Option Int
  /-- t4 − t3 of the last TIME that followed an ECHO; none once the servo has measured with it [11 R272; dc none] -/
  back : Option Int
  /-- Pending APPLY, RESTORE and TIME_INFO messages, sent on VC0 ahead of the buffer [11 R264; dc empty] -/
  notices : List Msg
  /-- weft.err_cnt by index k [11 Table 11-9; reset 0] -/
  cnt : Tab (BitVec 64)
  /-- Commands waiting for their end [11 R283; dc empty] -/
  cmds : List LinkCmd
  /-- The partner's latest TIME_INFO, 32 bytes [14 Table 14-2; dc none] -/
  timeInfo : Option (BitVec 256)
  /-- Held by an applied level-2 isolation [16 R382; dc false] -/
  isolated : Bool
  /-- Disabled by WEFT_DISABLE [11 R283; dc false] -/
  disabled : Bool
  deriving DecidableEq, Repr

/-! ## Lane array (spec/12) -/

/-- Power state of a lane, numbered as lane.status.pstate. -/
inductive LaneSt where
  | l0 | l0pIdle | l1Pll | l1NoPll | test | off
  deriving DecidableEq, Repr

/-- One lane (12). -/
structure Lane where
  /-- lane.status.pstate [12; reset 5 OFF] -/
  st : LaneSt
  /-- lane.status.rate [12; reset 0] -/
  rate : BitVec 3
  /-- lane.status.signal [12; reset 0] -/
  signal : Bool
  /-- lane.status.rx_inv [12; reset 0] -/
  rxInv : Bool
  /-- lane.status.converged [12 R292; reset 0] -/
  converged : Bool
  /-- lane.status.since [12; reset 0] -/
  since : BitVec 48
  /-- lane.adapt.ctle [12; reset 0] -/
  ctle : BitVec 5
  /-- lane.adapt.h1 [12; reset 0] -/
  h1 : BitVec 8
  /-- lane.adapt.h2 [12; reset 0] -/
  h2 : BitVec 8
  /-- lane.adapt.float_pos [12; reset 0] -/
  floatPos : BitVec 24
  /-- lane.adapt.limit_hits [12 R293; reset 0] -/
  limitHits : BitVec 16
  /-- Time up to which the adaptation of h1, h2 and the floating taps is accounted for [12 R293; dc 0] -/
  adaptAt : BitVec 64
  /-- LANE-0x0010 raised in this training [12 R293; dc false] -/
  limitRaised : Bool
  /-- lane.test_ctl.mode [12; reset 0] -/
  mode : BitVec 3
  /-- lane.test_ctl.pattern [12; reset 0] -/
  pattern : BitVec 2
  /-- lane.test_ctl.inject [12; reset 0] -/
  inject : Bool
  /-- lane.test_status.locked [12 R301; reset 0] -/
  locked : Bool
  /-- lane.test_status.ref_lost [12 R301; reset 0] -/
  refLost : Bool
  /-- lane.test_status.lock_lost [12; reset 0] -/
  lockLost : BitVec 16
  /-- lane.test_bits [12; reset 0] -/
  bits : BitVec 64
  /-- lane.test_errs [12; reset 0] -/
  errs : BitVec 64
  /-- Fabric time up to which the two counts above stand: the model's own field [12 R301; dc 0] -/
  countAt : BitVec 64
  /-- Preset record the lane was last equalised from; none while it is OFF [12 R291; dc none] -/
  preset : Option (BitVec 128)
  /-- A test runs on the lane [12 R300; dc false] -/
  testing : Bool
  deriving DecidableEq, Repr

/-- One quad (12). -/
structure Quad where
  /-- lane.quad.pll_lock [12; reset 0] -/
  pllLock : Bool
  /-- lane.quad.rate [12; reset 0] -/
  rate : BitVec 3
  /-- lane.quad.unlocks [12; reset 0] -/
  unlocks : BitVec 16
  deriving DecidableEq, Repr

/-- A margin scan waiting for its end (R302). -/
structure Margin where
  ticket : BitVec 16
  lane : Nat
  eye : BitVec 8
  dwell : BitVec 8
  errLimit : BitVec 32
  /-- The lane has left L0 or its test, or its link was declared down, since the scan began: the scan is ABORTED [12 R302] -/
  aborted : Bool
  deriving DecidableEq, Repr

/-- L0p state of a logical port (R297, R298). -/
structure L0p where
  /-- l0p_idle_us in force [12 R297 R303; reset board table, default 2] -/
  idleUs : BitVec 16
  /-- Last flit with a message sent or received [12 R297; dc 0] -/
  lastUse : BitVec 64
  /-- Widening started at this time [12 R298; dc none] -/
  widenAt : Option (BitVec 64)
  /-- A widening failed at this time; retried every 1 ms [12 R298; dc none] -/
  failAt : Option (BitVec 64)
  /-- ASPM L1: 0 no, 1 L1 [12 R296; dc false] -/
  l1 : Bool
  deriving DecidableEq, Repr

/-- The lane array (12). -/
structure LaneState where
  /-- Lanes by index 0 to 415 [12; see Lane] -/
  lanes : Tab Lane
  /-- Quads 0 to 103 [12; see Quad] -/
  quads : Tab Quad
  /-- lane.ref_status.present [12 R287; reset 0] -/
  present : BitVec 3
  /-- lane.ref_status.ref_sel [12 R287 R14; reset 0] -/
  refSel : BitVec 8
  /-- Working copy of the preset records by lane × 8 + rate, none where the defaults stand [12 R291; reset board table, dc none] -/
  presets : Tab (Option (BitVec 128))
  /-- Margin scans running [12 R302; dc empty] -/
  margins : List Margin
  /-- L0p state by logical port [12; see L0p] -/
  l0p : Tab L0p
  deriving DecidableEq, Repr

/-! ## Management core and Nib mailboxes (spec/13) -/

/-- State of firmware, numbered as mgmt.fw_status. -/
inductive FwSt where
  | reset | loading | running | restarting | halted
  deriving DecidableEq, Repr

/-- A response ready in a mailbox or stored under a ticket: status, detail and payload bytes. -/
structure Reply where
  status : BitVec 16
  detail : BitVec 32
  payload : List Byte
  deriving DecidableEq, Repr

/-- One owner mailbox (13). -/
structure Mailbox where
  /-- mbx.ctl.go [13 R313; reset 0] -/
  go : Bool
  /-- mbx.ctl.irq_en [13; reset 0] -/
  irqEn : Bool
  /-- mbx.status.done [13 R313; reset 0] -/
  done : Bool
  /-- Time at which done was last set [00 R11; dc none] -/
  doneAt : Option (BitVec 64)
  /-- mbx.status.busy [13 R313; reset 0] -/
  busy : Bool
  /-- mbx.status.overrun [13 R313; reset 0] -/
  overrun : BitVec 16
  /-- mbx.status.answered [13; reset 0] -/
  answered : BitVec 32
  /-- Request buffer, 32 KiB at +0x1000 [13 R311; dc 0] -/
  req : Tab Byte
  /-- Response buffer, 64 KiB at +0x1_0000 [13 R311; dc 0] -/
  resp : Tab Byte
  /-- The command accepted and not yet carried out: opcode, tag and payload [13 R313 R320; dc none] -/
  accepted : Option (BitVec 16 × BitVec 16 × List Byte)
  /-- Response decided and waiting to be written: opcode, tag and reply [13 R313; dc none] -/
  answer : Option (BitVec 16 × BitVec 16 × Reply)
  deriving DecidableEq, Repr

/-- A ticket (R321). -/
structure Ticket where
  num : BitVec 16
  opcode : BitVec 16
  tag : BitVec 16
  /-- The final result; none while the command is pending. -/
  result : Option Reply
  deriving DecidableEq, Repr

/-- An event record (R322, Table 13-6). -/
structure Event where
  seq : BitVec 32
  type : BitVec 16
  stamp : BitVec 48
  data : BitVec 128
  deriving DecidableEq, Repr

/-- An MCTP message in reassembly (R314). -/
structure Reassembly where
  src : Transport
  eid : BitVec 8
  mtag : BitVec 3
  tagOwner : Bool
  seq : BitVec 2
  bytes : List Byte
  deriving DecidableEq, Repr

/-- An accepted MCTP command awaiting its first response (R320). -/
structure MctpPending where
  src : Transport
  eid : BitVec 8
  /-- MCTP tag of the request. -/
  mtag : BitVec 3
  opcode : BitVec 16
  tag : BitVec 16
  payload : List Byte
  deriving DecidableEq, Repr

/-- A bridge table entry (R315). -/
structure Bridge where
  first : BitVec 8
  last : BitVec 8
  /-- 0 none, 1 I3C, 2 PCIe VDM, 3 Weft. -/
  kind : BitVec 8
  index : BitVec 8
  deriving DecidableEq, Repr

/-- A vPPB of a virtual CXL switch and what it is bound to (10 R241). -/
structure VppbBind where
  /-- Logical downstream port. -/
  port : Nat
  /-- LD of a multi-logical device. -/
  ld : Option (BitVec 4)
  /-- The bound device is cache-capable (R227). -/
  cache : Bool
  /-- The fabric manager names this vPPB as owner of the slot (R246; log entry 122). -/
  owner : Bool
  deriving DecidableEq, Repr

/-- The management complex (13). -/
structure MgmtState where
  /-- mgmt.fw_status.state [13; reset 0 RESET] -/
  fw : FwSt
  /-- mgmt.fw_status.restarts [13; reset 0] -/
  restarts : BitVec 16
  /-- mgmt.fw_status.heartbeat [13; reset 0] -/
  heartbeat : BitVec 32
  /-- Cause of the restart in progress: 0 watchdog, 1 command, 2 machine check [13 Table 13-7; dc 0] -/
  restartCause : BitVec 8
  /-- The restart in progress was begun by watchdog expiry [13 R307; dc false] -/
  hangRestart : Bool
  /-- End of the 10 s window of R307; none when closed [13 R307; dc none] -/
  hangWindow : Option (BitVec 64)
  /-- Owner mailboxes 0 to 3 [13; see Mailbox] -/
  mbx : Tab Mailbox
  /-- Tickets held, at most 256 [13 R321; dc empty] -/
  tickets : List Ticket
  /-- Number the next ticket takes, from 1 [13 R321; dc 1] -/
  nextTicket : BitVec 16
  /-- Event queue, oldest first [13 R322; reset empty] -/
  events : List Event
  /-- mgmt.event_status.head [13; reset 0] -/
  head : BitVec 32
  /-- mgmt.irq_ctl.event_irq_en [13; reset 0] -/
  irqEn : Bool
  /-- Subscribed EIDs, at most 8 [13 R330; dc empty] -/
  subs : List (BitVec 8)
  /-- Subscribers and vector 0 have events not yet signalled [13 R323; dc false] -/
  noticeDue : Bool
  /-- EID of the device [13 R314; reset board table, dc 0] -/
  eid : BitVec 8
  /-- MCTP messages in reassembly, at most 8 [13 R314; dc empty] -/
  reasm : List Reassembly
  /-- MCTP commands awaiting their first response, at most 64 [13 R320; dc empty] -/
  mctpWait : List MctpPending
  /-- Bridge table of 64 entries [13 R315; dc none] -/
  bridge : Tab (Option Bridge)
  /-- Requester that holds maker level by token [13 R310; dc none] -/
  maker : Option ReqSrc
  /-- Last maker-only command or unlock [13 R310; dc 0] -/
  makerSince : BitVec 64
  /-- Instance mapped at VF k of logical port u, by u × 64 + k [13 R325; dc none] -/
  vfs : Tab (Option (BitVec 10))
  /-- vPPB bindings by logical USP × 16 + vPPB [10 R241; dc none] -/
  vppbs : Tab (Option VppbBind)
  /-- CXL.io and CXL.cache messages outstanding through vPPBs: (USP × 16 + vPPB, message) [10 R241; dc empty] -/
  ioOut : List (Nat × Msg)
  /-- AER error and header log last reported at a vPPB, by USP × 16 + vPPB [10 Table 10-1, 13 R316; dc 0] -/
  aer : Tab (BitVec 32 × BitVec 128)
  /-- MSI-X table entries of the management function and of instances: message address and data by vector [13 R324; dc 0] -/
  msix : Tab (BitVec 128)
  /-- Ports whose device has a tunnelled Set LD Allocations in hand [13 R316; dc empty] -/
  tunnels : List (BitVec 7)
  /-- Uptime start on the always-on clock [13 R330; reset 0] -/
  upSince : BitVec 64
  /-- Devices attached and waiting for measurement in order of link-up [01 R28, 19 R462; dc empty] -/
  attachQ : List Nat
  deriving DecidableEq, Repr

/-! ## Telemetry and fabric time (spec/14) -/

/-- Fabric time state, numbered as Table 14-1. -/
inductive TimeSt where
  | free | acquire | locked | holdover | grandmaster
  deriving DecidableEq, Repr

/-- One counter set (14 R342). -/
structure CSet where
  /-- tele.cs.ctl.enable [14; reset 0] -/
  enable : Bool
  /-- tele.cs.ctl.win [14; reset 0] -/
  win : Bool
  /-- tele.cs.ctl.freeze_on_ovf [14; reset 0] -/
  freeze : Bool
  /-- tele.cs.cycles [14; reset 0] -/
  cycles : BitVec 64
  /-- Always-on clock up to which `cycles` stands: the model's own field [14 R342; dc 0] -/
  cycleAt : BitVec 64
  /-- tele.cs.evsel by k [14; reset 0] -/
  evsel : Tab (BitVec 64)
  /-- tele.cs.flt_src [14; reset 0] -/
  fltSrc : BitVec 64
  /-- tele.cs.flt_addr, size_log2 resets to 12 [14; reset 12] -/
  fltAddr : BitVec 64
  /-- tele.cs.flt_class [14; reset 0] -/
  fltClass : BitVec 64
  /-- tele.cs.cnt by k [14; reset 0] -/
  cnt : Tab (BitVec 48)
  /-- tele.cs.ovf [14; reset 0] -/
  ovf : BitVec 8
  /-- Bits of ovf set at the time `ovfAt` [00 R11; dc 0] -/
  ovfNew : BitVec 8
  /-- Time at which a bit of ovf was last set [00 R11; dc 0] -/
  ovfAt : BitVec 64
  /-- tele.cs.sample [14; reset 0] -/
  sample : BitVec 64
  deriving DecidableEq, Repr

/-- The counters of one binding (14 Table 14-6). -/
structure BindCnt where
  /-- reqs [14 R346; reset 0] -/
  reqs : BitVec 64
  /-- rd_bytes [14 R346; reset 0] -/
  rdBytes : BitVec 64
  /-- wr_bytes [14 R346; reset 0] -/
  wrBytes : BitVec 64
  /-- err [14 R346; reset 0] -/
  err : BitVec 64
  /-- lat_sum [14 R346; reset 0] -/
  latSum : BitVec 64
  /-- lat_max [14 R346; reset 0] -/
  latMax : BitVec 32
  deriving DecidableEq, Repr

/-- A latched dump in a staging slot (R347). -/
structure Dump where
  seq : BitVec 32
  bytes : List Byte
  deriving DecidableEq, Repr

/-- A TELE_WINDOW_ARM waiting (R345). -/
structure CWindow where
  ticket : BitVec 16
  start : BitVec 64
  length : BitVec 64
  deriving DecidableEq, Repr

/-- Telemetry and time (14). -/
structure TeleState where
  /-- tele.time: fabric time in 125 ps ticks [14 R332; reset 0] -/
  time : BitVec 64
  /-- Rate correction in 0.01 ppb steps [14 R335; dc 0] -/
  rate : Int
  /-- tele.time_status.state [14 Table 14-1; reset 0 FREE] -/
  st : TimeSt
  /-- tele.time_status.ref [14; reset 0] -/
  ref : BitVec 1
  /-- tele.time_status.ref_present [14; reset 0] -/
  refPresent : BitVec 2
  /-- tele.time_status.stepped [14 R337; reset 0] -/
  stepped : Bool
  /-- tele.time_status.frozen [14 R337; reset 0] -/
  frozen : Bool
  /-- tele.time_status.source [14; reset 0] -/
  source : BitVec 8
  /-- tele.time_status.offset [14; reset 0] -/
  offset : BitVec 32
  /-- Last one-way path measured, ticks [14 Table 14-9; dc 0] -/
  path : BitVec 32
  /-- Candidate sources in priority order [14 R334; dc none] -/
  sources : Tab (BitVec 8)
  /-- tsync_out [14 R339; dc 0] -/
  tsyncOut : BitVec 8
  /-- revert_s [14 R334; dc 1] -/
  revertS : BitVec 16
  /-- asym by weft [14 R335; dc 0] -/
  asym : Tab (BitVec 16)
  /-- Consecutive measurements with |offset| ≤ 16 [14 Table 14-1; dc 0] -/
  good : Nat
  /-- Consecutive measurements with |offset| > 64 [14 Table 14-1; dc 0] -/
  far : Nat
  /-- Fabric time of the last correctly formed TSYNC_IN pulse [14 R334; dc none] -/
  tsyncAt : Option (BitVec 64)
  /-- Fabric time of the last ECHO by weft [14 R334; dc none] -/
  echoAt : Tab (Option (BitVec 64))
  /-- TSYNC_OUT is high until this fabric time [14 R339, 21 R495; reset low, dc 0] -/
  tsyncFall : BitVec 64
  /-- Time since which a candidate of higher priority has been valid [14 R334; dc none] -/
  betterSince : Option (BitVec 64)
  /-- TSYNC_IN pulses counted as bad [14 R340; dc 0] -/
  badPulses : BitVec 64
  /-- TELE-0x0021 raised since enable [14 R353; dc false] -/
  traceRaised : Bool
  /-- Counter sets by b, 0 to 88 [14; see CSet] -/
  sets : Tab CSet
  /-- The armed counter window [14 R345; dc none] -/
  window : Option CWindow
  /-- Binding counters [14 Table 14-6; see BindCnt] -/
  bind : Tab BindCnt
  /-- Binding counters and counter sets as they stood at a dump boundary that DUMP_LATCH has still to take: the model's own
  field [14 R347; dc none] -/
  edge : Option (Tab BindCnt × Tab CSet)
  /-- period_k, 0 off [14 R347; dc 0] -/
  dumpK : BitVec 8
  /-- DUMP_CONFIG flags [14; dc 0] -/
  dumpFlags : BitVec 8
  /-- DUMP_CONFIG port [14; dc 0] -/
  dumpPort : BitVec 8
  /-- DUMP_CONFIG slots [14; dc 1] -/
  dumpSlots : BitVec 16
  /-- DUMP_CONFIG host_base [14; dc 0] -/
  dumpBase : BitVec 64
  /-- tele.dump_status.dump_seq [14; reset 0] -/
  dumpSeq : BitVec 32
  /-- tele.dump_status.lost [14; reset 0] -/
  dumpLost : BitVec 16
  /-- tele.dump_status.host_skipped [14; reset 0] -/
  hostSkipped : BitVec 16
  /-- Dumps skipped since the last written dump [14 Table 14-7; dc 0] -/
  lostSince : BitVec 32
  /-- Boundary of the last dump [14 Table 14-7; dc 0] -/
  dumpAt : BitVec 64
  /-- Earliest boundary of the next dump: the model's own field [14 R347; dc 0] -/
  dumpFrom : BitVec 64
  /-- Dumps staged and not yet taken for their host write [14 R348; dc empty] -/
  hostDue : List (BitVec 32)
  /-- Staged dumps, newest first, at most 1,024 [14 R347; dc empty] -/
  dumps : List Dump
  /-- A latch is being written to staging [14 R347; dc none] -/
  dumpWriting : Option Dump
  /-- A host write is running [14 R348; dc none] -/
  hostWriting : Option (BitVec 32)
  /-- tele.heat_status.enabled [14; reset 0] -/
  heatOn : Bool
  /-- tele.heat_status.sweeping [14; reset 0] -/
  sweeping : Bool
  /-- tele.heat_status.dropped [14; reset 0] -/
  heatDropped : BitVec 32
  /-- Earliest start of the next sweep: the model's own field [14 R351; dc 0] -/
  heatFrom : BitVec 64
  /-- The halving of a sweep that HEAT_AGE_SWEEP has still to take was done before an access at or past its start: the model's
  own field [14 R351; dc false] -/
  aged : Bool
  /-- age_period_ms [14 R351; dc 0] -/
  agePeriod : BitVec 32
  /-- Heat counters in HBM, by index [14 R349; dc 0] -/
  heat : Tab (BitVec 16)
  /-- Pending increments of the on-die cache, by index, at most 64 Ki [14 R350; dc 0] -/
  heatInc : Tab (BitVec 16)
  /-- HEAT_CLEARs pending: ticket, first counter and count [14 R354; dc empty] -/
  heatClears : List (BitVec 16 × BitVec 32 × BitVec 32)
  /-- TRACE_CONFIG enable [14 R352; dc false] -/
  traceOn : Bool
  /-- TRACE_CONFIG size_log2 [14 R352; dc 0] -/
  traceSize : BitVec 8
  /-- TRACE_CONFIG mode [14 R352; dc 0] -/
  traceMode : BitVec 8
  /-- TRACE_CONFIG points [14 R352; dc 0] -/
  tracePoints : BitVec 8
  /-- TRACE_CONFIG class_mask [14 R352; dc 0] -/
  traceClasses : BitVec 8
  /-- TRACE_CONFIG xp_mask [14 R352; dc 0] -/
  traceXps : BitVec 64
  /-- TRACE_CONFIG start [14 R352; dc 0] -/
  traceStart : BitVec 64
  /-- TRACE_CONFIG length [14 R352; dc 0] -/
  traceLength : BitVec 64
  /-- stop_fault [14 R352; dc 0] -/
  traceStop : BitVec 32
  /-- post_records [14 R352; dc 0] -/
  tracePost : BitVec 32
  /-- Records still to be written after stop_fault; none before it [14 R352; dc none] -/
  traceLeft : Option (BitVec 32)
  /-- tele.trace_status.written [14; reset 0] -/
  traceWritten : BitVec 40
  /-- tele.trace_status.stopped [14; reset 0] -/
  traceStopped : Bool
  /-- tele.trace_status.dropped [14; reset 0] -/
  traceDropped : BitVec 23
  /-- Records dropped since the last record written [14 R353; dc 0] -/
  traceGap : BitVec 32
  /-- Fabric time of the last record written [14 R353; dc none] -/
  traceAt : Option (BitVec 64)
  /-- Trace records in the ring by position [14 R352; dc 0] -/
  ring : Tab (BitVec 512)
  deriving DecidableEq, Repr

/-! ## Memory integrity (spec/15) -/

/-- An entry of a repeat tracker (R359). -/
structure Tracked where
  /-- Unit and word address, laid out as mem.last_hard. -/
  word : BitVec 64
  start : BitVec 64
  pinned : Bool
  deriving DecidableEq, Repr

/-- One memory type (15). -/
structure MemType where
  /-- mem.type_status.corrected [15; reset 0] -/
  corrected : BitVec 32
  /-- mem.type_status.hard [15; reset 0] -/
  hard : BitVec 16
  /-- mem.type_status.ue [15; reset 0] -/
  ue : BitVec 16
  /-- mem.spare_status.used [15; reset 0] -/
  used : BitVec 16
  /-- mem.spare_status.exhausted [15; reset 0] -/
  exhausted : BitVec 16
  /-- mem.spare_status.exhausted_hits [15; reset 0] -/
  exhaustedHits : BitVec 16
  /-- mem.spare_status.evictions [15; reset 0] -/
  evictions : BitVec 16
  /-- mem.scrub_ctl.period_ms [15; reset 100 or 28,800,000] -/
  period : BitVec 32
  /-- mem.scrub_ctl.enable [15; reset 1] -/
  scrubOn : Bool
  /-- mem.scrub_status.passes [15; reset 0] -/
  passes : BitVec 32
  /-- mem.scrub_status.skipped [15; reset 0] -/
  skipped : BitVec 16
  /-- mem.scrub_status.progress [15; reset 0] -/
  progress : BitVec 16
  /-- Correction unit the scrubber reads next [15 R365; dc 0] -/
  scrubPos : Nat
  /-- mem.last_hard [15; reset 0] -/
  lastHard : BitVec 64
  /-- mem.last_hard_stamp [15; reset 0] -/
  lastHardStamp : BitVec 48
  /-- Repeat tracker, at most 64 entries [15 R359; reset empty] -/
  tracker : List Tracked
  /-- Spare words in use: word and spare number, by array or pseudo-channel [15 R361 R362; reset empty] -/
  spares : List (BitVec 64 × Nat)
  /-- Rows mapped to spare rows: unit, bank, row and spare row [15 R362; reset remap log, dc empty] -/
  rows : List (Nat × Nat × Nat × Nat)
  /-- Row copies in progress: unit, bank, row and spare row [15 R362; dc empty] -/
  rowCopies : List (Nat × Nat × Nat × Nat)
  /-- Words with a write-back pending [15 R357; dc empty] -/
  writebacks : List (BitVec 64)
  /-- Words whose stored check bits an injection inverted [15 R388; dc empty] -/
  injected : List (BitVec 64)
  /-- Words that read uncorrectable until their owner writes them [15 R359; dc empty] -/
  bad : List (BitVec 64)
  deriving DecidableEq, Repr

/-- State of an HBM stack, numbered as hbm.stack_status.state. -/
inductive StackSt where
  | up | lost | outOfService
  deriving DecidableEq, Repr

/-- One HBM stack (15). -/
structure Stack where
  /-- hbm.stack_status.state [15; reset 0 UP] -/
  st : StackSt
  /-- hbm.stack_status.cause [15; reset 0] -/
  cause : BitVec 3
  /-- hbm.stack_status.rows_remapped [15; reset 0] -/
  rows : BitVec 16
  /-- hbm.stack_status.words_remapped [15; reset 0] -/
  words : BitVec 16
  /-- hbm.stack_status.retrains [15; reset 0] -/
  retrains : BitVec 16
  /-- Recent uncorrectable errors: pseudo-channel and stamp [15 R372; dc empty] -/
  ues : List (Nat × BitVec 64)
  deriving DecidableEq, Repr

/-- State of the check-bit injection (16 Table 16-6). -/
inductive InjSt where
  | idle | armed | fired | expired
  deriving DecidableEq, Repr

/-- Memory integrity (15) and the injection arming (16 R387). -/
structure MemState where
  /-- Memory types 0 to 9 [15 Table 15-1; see MemType] -/
  types : Tab MemType
  /-- Stack A and stack B [15; see Stack] -/
  stks : Tab Stack
  /-- HBM remaps waiting to be appended to the flash remap log: record and time made [15 R364; dc empty] -/
  remapDue : List (BitVec 256)
  /-- Uncorrectable fetches per 4 KiB instruction page [15 R368; reset 0] -/
  ifetch : Tab Nat
  /-- INJECT_STATUS.state [16 R387; reset IDLE] -/
  inj : InjSt
  /-- Type of the arming [16 R387; dc 0] -/
  injType : BitVec 8
  /-- Mask of the arming [16 R387; dc 0] -/
  injMask : BitVec 8
  /-- Unit of the arming [16 R387; dc 0] -/
  injUnit : BitVec 16
  /-- Address of the arming [16 R387; dc 0] -/
  injAddr : BitVec 64
  /-- Time at which the arming expires [16 R387; dc 0] -/
  injUntil : BitVec 64
  deriving DecidableEq, Repr

/-! ## Fault collection (spec/16) -/

/-- One fault record (16 R378). -/
structure FaultRec where
  /-- flt.rec.status.valid [16; reset 0] -/
  valid : Bool
  /-- flt.rec.status.cleared [16; reset 0] -/
  cleared : Bool
  /-- flt.rec.status.escalated [16; reset 0] -/
  escalated : Bool
  /-- flt.rec.status.isolated [16; reset 0] -/
  isolated : Bool
  /-- flt.rec.status.injected [16; reset 0] -/
  injected : Bool
  /-- flt.rec.status.level [16; reset 0] -/
  level : BitVec 3
  /-- flt.rec.status.recoveries [16; reset 0] -/
  recoveries : BitVec 4
  /-- flt.rec.status.count [16; reset 0] -/
  count : BitVec 32
  /-- flt.rec.status.source [16; reset 0] -/
  source : BitVec 16
  /-- flt.rec.first.stamp [16; reset 0] -/
  first : BitVec 48
  /-- flt.rec.detail [16; reset 0] -/
  detail : BitVec 64
  /-- flt.rec.last.stamp [16; reset 0] -/
  last : BitVec 48
  /-- flt.rec.last.source [16; reset 0] -/
  lastSource : BitVec 16
  /-- Full fabric time of the last occurrence, for the quiet window [16 R383; dc 0] -/
  lastFull : BitVec 64
  /-- Occurrences of the clock `lastFull` [16 R378, R380; dc 0] -/
  clkCount : BitVec 32
  /-- Lowest source among them [16 R378; dc 0] -/
  clkSource : BitVec 32
  /-- Its detail [16 R378; dc 0] -/
  clkDetail : BitVec 64
  /-- AUTO_EXIT_EXHAUSTED raised in this isolation [16 R384; dc false] -/
  exhausted : Bool
  /-- Sources isolated by this record [16 R377; dc empty] -/
  sources : List (BitVec 32)
  /-- Sources that still have the code's condition [16 R379; dc empty] -/
  conds : List (BitVec 32)
  deriving DecidableEq, Repr

/-- flt.cfg of one code (16). -/
structure FaultCfg where
  /-- flt.cfg.level [16; reset per code] -/
  level : BitVec 3
  /-- flt.cfg.ceiling [16 Table 16-4; reset per code] -/
  ceiling : BitVec 3
  /-- flt.cfg.esc_en [16; reset 1] -/
  escEn : Bool
  /-- flt.cfg.auto_exit [16; reset 1] -/
  autoExit : Bool
  /-- flt.cfg.quiet_ms [16; reset 1,000] -/
  quietMs : BitVec 16
  /-- flt.cfg.max_recover [16; reset 3] -/
  maxRecover : BitVec 4
  deriving DecidableEq, Repr

/-- A reaction of level 2 or more still to be carried out (16 R376), or the exit action of a source whose quiet window has
passed (`exit`, R383). -/
structure Reaction where
  exit : Bool
  block : Nat
  code : Nat
  level : Nat
  source : BitVec 32
  detail : BitVec 64
  deriving DecidableEq, Repr

/-- A flash fault log record (16 Table 16-6). -/
structure LogRec where
  stamp : BitVec 64
  data : BitVec 128
  serial : BitVec 64
  deriving DecidableEq, Repr

/-- The fault collector (16). -/
structure FaultState where
  /-- Records by k × 256 + c [16 R378; see FaultRec] -/
  recs : Tab FaultRec
  /-- Configurations changed from their defaults, by k × 256 + c [16; reset per code] -/
  cfgs : Tab (Option FaultCfg)
  /-- flt.summary.safe_stop [16 R385; reset 0] -/
  safeStop : Bool
  /-- flt.safe_stop.code [16; reset 0] -/
  ssCode : BitVec 8
  /-- flt.safe_stop.block [16; reset 0] -/
  ssBlock : BitVec 5
  /-- flt.safe_stop.stamp [16; reset 0] -/
  ssStamp : BitVec 48
  /-- Records waiting to be appended to the flash fault log, which adds the serial [16 R386; dc empty] -/
  logDue : List LogRec
  /-- The flash fault log, oldest first [16 R386; reset kept, dc empty] -/
  log : List LogRec
  /-- Reactions raised within the command being carried out and not yet taken [16 R376; dc empty] -/
  todo : List Reaction
  deriving DecidableEq, Repr

/-! ## Power (spec/17) -/

/-- State of a switched domain, numbered as Table 17-2. -/
inductive DomSt where
  | on | gated | ret | off
  deriving DecidableEq, Repr

/-- One switched domain (17). -/
structure Domain where
  /-- pmu.domain.state [17; reset 0 ON] -/
  st : DomSt
  /-- pmu.domain.lowest changed from its group's default [17; reset per group] -/
  lowest : Option (BitVec 2)
  /-- pmu.domain.auto [17; reset 1] -/
  auto : Bool
  /-- pmu.domain.idle_us changed from its group's default [17; reset per group] -/
  idleUs : Option (BitVec 24)
  /-- pmu.domain.wakes [17; reset 0] -/
  wakes : BitVec 32
  /-- Restore step waited for: 0 none, 1 regulator, 2 oscillator, 3 memory, 4 logic [17 R407; dc 0] -/
  step : BitVec 3
  /-- The restore is from RET, with a signature check [17 R410; dc false] -/
  fromRet : Bool
  /-- Ready-signal misses of this restore [17 R407; dc 0] -/
  misses : Nat
  /-- DOMAIN_DEAD was raised for it [17 R407; dc false] -/
  dead : Bool
  /-- Held in reset for a retention reload [17 R411; dc false] -/
  reload : Bool
  /-- Time of the last activity [17 R401; dc 0] -/
  lastUse : BitVec 64
  deriving DecidableEq, Repr

/-- Device state, numbered as Table 17-4. -/
inductive DevSt where
  | run | doze | standby | safeStop
  deriving DecidableEq, Repr

/-- One AVSBus rail (17). -/
structure Rail where
  /-- pmu.avs.target_mv [17; reset 0] -/
  target : BitVec 16
  /-- pmu.avs.vout_mv [17; reset 0] -/
  vout : BitVec 16
  /-- pmu.avs.iout [17; reset 0] -/
  iout : BitVec 16
  /-- pmu.avs.vdone [17; reset 0] -/
  vdone : Bool
  /-- Consecutive readings more than 3 % off [17 R413; dc 0] -/
  off3 : Nat
  /-- Change in progress: start time and retries [17 R414; dc none] -/
  change : Option (BitVec 64 × Nat)
  /-- The change has failed in an exit and waits for its retry [17 R414; dc false] -/
  failed : Bool
  /-- AVS_EN of the channel [17 R412; dc 1] -/
  enable : Bool
  deriving DecidableEq, Repr

/-- The PMU (17). -/
structure PmuState where
  /-- pmu.state.state [17; reset 0 RUN] -/
  st : DevSt
  /-- pmu.state.entering [17; reset 0] -/
  entering : Bool
  /-- pmu.state.exiting [17; reset 0] -/
  exiting : Bool
  /-- pmu.state.exit_failed [17 R414; reset 0] -/
  exitFailed : Bool
  /-- pmu.state.doze_auto [17; reset 0] -/
  dozeAuto : Bool
  /-- Target of the entry in progress: DOZE or STANDBY [17; dc STANDBY false] -/
  toStandby : Bool
  /-- Stage asked, 1 to 13; 0 when not entering [17 R403; dc 0] -/
  stage : BitVec 4
  /-- Ticket of the POWER_STATE_SET, its result not yet stored [17 Table 17-12; dc none] -/
  ticket : Option (BitVec 16)
  /-- Time from which stage 12 may begin: the event of stage 11 plus 10 ms [17 R420; dc none] -/
  stage12 : Option (BitVec 64)
  /-- The ticket whose fetch starts stage 12 [17 R420; dc none] -/
  stage12Ticket : Option (BitVec 16)
  /-- Domain states at the start of the entry, for the rollback [17 R404; dc empty] -/
  before : Tab DomSt
  /-- The domains of an aborted entry are being restored [17 R404; dc false] -/
  rolling : Bool
  /-- Stage 4 of a STANDBY entry has made the upstream ports depart [17 Table 17-5; dc false] -/
  departAsked : Bool
  /-- pmu.wake_mask.sources [17; reset 0xFF] -/
  sources : BitVec 8
  /-- pmu.wake_mask.gpio [17; reset 0] -/
  gpioWake : BitVec 16
  /-- pmu.wake_mask.gpio_fall [17; reset 0] -/
  gpioFall : BitVec 16
  /-- pmu.detect_mask [17; reset 0] -/
  detectMask : BitVec 48
  /-- pmu.alarm [17; reset 0] -/
  alarm : BitVec 64
  /-- pmu.last_wake [17; reset 0] -/
  lastWake : BitVec 64
  /-- pmu.last_wake_done [17; reset 0] -/
  lastDone : BitVec 48
  /-- pmu.last_abort, domain resets to 0xFF [17; reset domain 0xFF] -/
  lastAbort : BitVec 64
  /-- pmu.group.mult by g [17; reset 1] -/
  mult : Tab (BitVec 7)
  /-- pmu.group.aborts by g [17; reset 0] -/
  aborts : Tab (BitVec 16)
  /-- Domains 0 to 219 [17; see Domain] -/
  doms : Tab Domain
  /-- Rails 0 to 3 [17; see Rail] -/
  rails : Tab Rail
  /-- pmu.avs_cfg.avs_timeout_us [17; reset 1,000] -/
  avsTimeout : BitVec 16
  /-- pmu.ret_status.passed [17; reset 0] -/
  retPassed : BitVec 32
  /-- pmu.ret_status.failed [17; reset 0] -/
  retFailed : BitVec 16
  /-- Retention signatures by domain × 16 + bank [17 R410; dc 0] -/
  sigs : Tab (BitVec 32)
  deriving DecidableEq, Repr

/-! ## Slots (spec/18) -/

/-- State of a slot channel, numbered as Table 18-2. -/
inductive SlotSt where
  | empty | debounce | wait | ramp | pgDelay | on | decay | latched | damaged
  deriving DecidableEq, Repr

/-- Cause of the last trip, numbered as slot.status.trip_cause. -/
inductive TripCause where
  | none | fast | breaker | ramp
  deriving DecidableEq, Repr

/-- One slot channel (18). -/
structure Slot where
  /-- slot.status.state [18 Table 18-2; reset 0 EMPTY] -/
  st : SlotSt
  /-- slot.status.prsnt_l [18; reset 0] -/
  prsntL : Bool
  /-- slot.status.prsnt_s [18; reset 0] -/
  prsntS : Bool
  /-- The short pin's contact, closed or open, before the debounce [18 R423; dc open] -/
  shortPin : Bool
  /-- slot.status.pg [18; reset 0] -/
  pg : Bool
  /-- slot.status.perst [18; reset 1] -/
  perst : Bool
  /-- slot.status.gate_on [18; reset 0] -/
  gateOn : Bool
  /-- slot.status.retry_active [18; reset 0] -/
  retryActive : Bool
  /-- End of the retry timer [18 R431; dc 0] -/
  retryEnd : BitVec 64
  /-- slot.status.wake [18; reset 0] -/
  wake : Bool
  /-- slot.status.trip_cause [18; reset 0] -/
  trip : TripCause
  /-- slot.status.since [18; reset 0] -/
  since : BitVec 48
  /-- slot.meas.iout_ma [18; reset 0] -/
  iout : BitVec 16
  /-- slot.meas.vout_mv [18; reset 0] -/
  vout : BitVec 16
  /-- slot.gate_ctl [18; reset 100, 20, 12, 2,000, 50] -/
  gateCtl : BitVec 64
  /-- slot.ctl [18; reset auto 1, retry_max 3, retry_ms 1,000] -/
  ctl : BitVec 64
  /-- slot.pg_cfg [18; reset 1,000, 100, 1,000] -/
  pgCfg : BitVec 64
  /-- slot.counts.trips [18; reset 0] -/
  trips : BitVec 16
  /-- slot.counts.insertions [18; reset 0] -/
  insertions : BitVec 16
  /-- slot.counts.retry_count [18; reset 0] -/
  retryCount : BitVec 4
  /-- slot.counts.surprise [18; reset 0] -/
  surprise : BitVec 16
  /-- slot.lock.lock [18; reset 0] -/
  lock : Bool
  /-- Start of the PG delay, on the always-on clock as the other times of a channel [18 R427 R430; dc none] -/
  pgFrom : Option (BitVec 64)
  /-- Start of the breaker timer; none while it does not run [18 R428; dc none] -/
  breakerAt : Option (BitVec 64)
  /-- Start of the ramp [18 R426; dc none] -/
  rampAt : Option (BitVec 64)
  /-- Short pin closed since, its debounce running [18 R423; dc none] -/
  closeAt : Option (BitVec 64)
  /-- PG is asserted and PERST release waits from this time [18 R427; dc none] -/
  perstFrom : Option (BitVec 64)
  /-- PERST held asserted by SLOT_PERST or the FM API [18 R427; dc false] -/
  perstHold : Bool
  /-- Gate commanded off since [18 R436; dc none] -/
  gateOffAt : Option (BitVec 64)
  /-- A power-off request of R435 waits 100 µs [18 R435; dc none] -/
  offAt : Option (BitVec 64)
  /-- Short pin open since [18 R432; dc none] -/
  openAt : Option (BitVec 64)
  /-- Toggle window of the button runs from this time [18 R439; dc none] -/
  toggleAt : Option (BitVec 64)
  /-- Tickets of SLOT_POWER waiting: ticket and requested on [18 Table 18-5; dc empty] -/
  cmds : List (BitVec 16 × Bool)
  deriving DecidableEq, Repr

/-- The slots (18). -/
structure SlotState where
  /-- Channels 0 to 23 [18; see Slot] -/
  slots : Tab Slot
  /-- slot.meas.vbus_mv, the shared bus sense [18; reset 0] -/
  vbus : BitVec 16
  /-- slot.meas.bus_uv [18 R437; reset 0] -/
  busUv : Bool
  /-- slot.meas.bus_ov [18 R437; reset 0] -/
  busOv : Bool
  /-- VSEL is lost and the slot registers are not yet reloaded [21 R494; dc false] -/
  vselLost : Bool
  deriving DecidableEq, Repr

/-! ## Seal unit (spec/19) -/

/-- Life-cycle state, numbered as Table 19-1. -/
inductive Lc where
  | blank | maker | sealed | owned | returned | spent
  deriving DecidableEq, Repr

/-- A colophon append waiting for its end (R458). -/
structure Append where
  kind : BitVec 16
  flags : BitVec 32
  stamp : BitVec 64
  subject : BitVec 384
  payload : List Byte
  deriving DecidableEq, Repr

/-- A slot's record in the colophon ring (Table 19-7). -/
structure ColoRec where
  seq : BitVec 64
  bytes : List Byte
  deriving DecidableEq, Repr

/-- An SPDM exchange or measurement in progress (R462, R397). -/
structure Spdm where
  /-- Logical port measured. -/
  port : Nat
  since : BitVec 64
  deriving DecidableEq, Repr

/-- The last DEVICE record of a port in this boot (R462 Repeat): subject, certificate digest, flags. -/
structure DevRec where
  subject : BitVec 384
  cert : BitVec 384
  flags : BitVec 32
  serial : BitVec 64
  deriving DecidableEq, Repr

/-- The seal unit (19): fuses, keys, ring and exchanges. -/
structure SealState where
  /-- seal.status.lc [19 R445; reset per device, dc BLANK] -/
  lc : Lc
  /-- Life-cycle fuse state that the next cold reset derives [19 R446; dc BLANK] -/
  lcFuse : Lc
  /-- seal.status.claims [19; reset per device, dc 0] -/
  claims : BitVec 5
  /-- seal.status.releases [19; reset per device, dc 0] -/
  releases : BitVec 5
  /-- Owner slots burned, by index: digest [19 R445; dc 0] -/
  ownerSlots : Tab (Option (BitVec 384))
  /-- Owner slot used by the current claim [19 R446; dc 0] -/
  ownerSlot : BitVec 5
  /-- Maker keys revoked by fuse [19 R450; dc 0] -/
  makerRevoked : BitVec 4
  /-- Fused UDS [19 R453; dc 0] -/
  uds : BitVec 256
  /-- UDS burned [19 R446; dc false] -/
  udsBurned : Bool
  /-- Plan key slots 0 to 3: the 97-byte key [19 R455; dc none] -/
  planKeys : Tab (Option (BitVec 776))
  /-- seal.status.debug: flags in force [19 R452; reset per boot, dc 0] -/
  dbg : BitVec 4
  /-- Debug flags staged in flash [19 R452; dc 0] -/
  staged : BitVec 4
  /-- Debug flags are staged [19 R452; dc false] -/
  isStaged : Bool
  /-- seal.status.chain_broken [19; reset 0] -/
  chainBroken : Bool
  /-- seal.status.ring_fault [19 R459; reset 0] -/
  ringFault : Bool
  /-- seal.status.entropy_fail [19 R454; reset 0] -/
  entropyFail : Bool
  /-- seal.status.boot: boot count [19; reset per boot, dc 0] -/
  boot : BitVec 32
  /-- seal.head.seq [19; reset per boot, dc 0] -/
  headSeq : BitVec 64
  /-- seal.head_digest [19; reset per boot, dc 0] -/
  headDigest : BitVec 384
  /-- A record has been appended to the chain [19 R461; dc false] -/
  hasHead : Bool
  /-- Next seq an append takes [19 R458; dc 0] -/
  nextSeq : BitVec 64
  /-- Current nonce and its expiry on the always-on clock [19 R450; dc none] -/
  nonce : Option (BitVec 384 × BitVec 64)
  /-- Colophon ring in flash, by slot [19 R460; reset kept, dc none] -/
  ring : Tab (Option ColoRec)
  /-- Appends begun and not complete, oldest first [19 R458; dc empty] -/
  appends : List Append
  /-- SPDM measurements running [19 R462; dc empty] -/
  spdm : List Spdm
  /-- Latest DEVICE record of each logical port in this boot [19 R462; dc none] -/
  devRecs : Tab (Option DevRec)
  /-- Device certificate chain [19 R453; dc empty] -/
  cert : List Byte
  /-- Alias certificate of this boot [19 R453; dc empty] -/
  aliasCert : List Byte
  /-- Plan chain P of the active plan [19 R461; dc 0] -/
  planChain : BitVec 384
  /-- Plan chain P of the armed plan [19 R461; dc 0] -/
  armedChain : BitVec 384
  /-- The armed commit returned PLAN_LATE, with its commit stamp [19 Table 19-8; dc false] -/
  armedLate : Bool
  /-- Commit stamp of the armed plan [19 Table 19-8; dc 0] -/
  armedStamp : BitVec 64
  /-- Firmware image digest measured at boot [19 R474; dc 0] -/
  fwDigest : BitVec 384
  /-- Board table digest measured at boot [20 R477; dc 0] -/
  btDigest : BitVec 384
  /-- A life-cycle transition waits for its cold reset, due at this time [19 R447; dc none] -/
  lcReset : Option (BitVec 64)
  /-- SPDM key-exchange sessions open [19 R463; dc 0] -/
  sessions : Nat
  deriving DecidableEq, Repr

/-! ## Boot, flash, package (spec/20, spec/21) -/

/-- The board table in force, decoded (20 Table 20-4). -/
structure BoardTable where
  /-- PORT records by port [20 Table 20-4; dc 0] -/
  port : Tab (BitVec 256)
  /-- Lane presets by lane × 8 + rate [20, 12 R288; dc none] -/
  presets : Tab (Option (BitVec 128))
  /-- ref_sel [12 Table 12-1; dc 0] -/
  refSel : BitVec 8
  /-- l0p_idle_us [12 Table 12-1; default 2] -/
  l0pIdle : BitVec 16
  /-- WEFT enable by link [20 Table 20-4; dc 0] -/
  weftEnable : BitVec 8
  /-- WEFT configuration by link: the WEFT_CONFIG fields after link, 43 bytes [20 Table 20-4; dc none] -/
  weftCfg : Tab (Option (BitVec 344))
  /-- SLOT records by slot: gate_ctl, ctl, pg_cfg, lock [20 Table 20-4; dc none] -/
  slot : Tab (Option (BitVec 200))
  /-- owner_mask [13 R309; dc 0] -/
  ownerMask : BitVec 96
  /-- trusted_links [13 R309; dc 0] -/
  trustedLinks : BitVec 8
  /-- eid [13 R314; dc 0] -/
  eid : BitVec 8
  /-- boot_time_wait_ms [20 Table 20-4; default 2,000] -/
  timeWait : BitVec 16
  deriving DecidableEq, Repr

/-- A persisted chain in one half of the plan area: each image with the digest its directory entry holds (20 R480). -/
structure PlanHalf where
  generation : BitVec 32
  planId : BitVec 64
  images : List (List Byte × BitVec 384)
  deriving DecidableEq, Repr

/-- The SPI flash, by content (20 Table 20-2). -/
structure Flash where
  /-- Active firmware image, 0 A or 1 B [20 Table 20-10; dc A] -/
  activeFw : BitVec 1
  /-- Active board table, 0 A or 1 B [20 Table 20-10; dc A] -/
  activeBt : BitVec 1
  /-- ring_slots [20 Table 20-10; reset 16,384] -/
  ringSlots : BitVec 32
  /-- flash_mib [20 Table 20-10; reset at least 256, dc 256] -/
  flashMib : BitVec 32
  /-- Flash header valid [20 R471; dc true] -/
  headerOk : Bool
  /-- Firmware images A and B [20 Table 20-2; dc empty] -/
  fw : Tab (List Byte)
  /-- Board tables A and B [20 Table 20-2; dc empty] -/
  bt : Tab (List Byte)
  /-- Remap log records, oldest first [20 R472; dc empty] -/
  remapLog : List (BitVec 256)
  /-- Generation of the current half of the remap log [20 R472; dc 0] -/
  remapGen : BitVec 32
  /-- Plan area halves 0 and 1 [20 R479; dc none] -/
  plan : Tab (Option PlanHalf)
  /-- Half that holds the current chain [20 R479; dc 1] -/
  planHalf : BitVec 1
  /-- Contiguous bytes written by IMAGE_WRITE, per region 0, 1, 2 [20 R485; dc empty] -/
  writing : Tab (List Byte)
  deriving DecidableEq, Repr

/-- Boot (20) and package (21). -/
structure BootState where
  /-- boot.status.stage [20; reset 0 ROM] -/
  stage : BitVec 4
  /-- boot.status.image [20; reset 0] -/
  image : Bool
  /-- boot.status.fallback [20; reset 0] -/
  fallback : Bool
  /-- boot.status.recovery, STRAP_RECOVERY [20 R468; reset per strap, dc 0] -/
  recovery : Bool
  /-- boot.status.plan_hold, STRAP_PLAN_HOLD [20 R468; reset per strap, dc 0] -/
  planHold : Bool
  /-- boot.status.i3c_addr [20 R468; reset per strap, dc 0] -/
  i3cAddr : BitVec 3
  /-- boot.status.cause [20; reset 0 power-on] -/
  cause : BitVec 3
  /-- boot.status.running_at [20; reset 0] -/
  runningAt : BitVec 48
  /-- Step of Table 20-5 reached, 1 to 9; 9 is past boot [20 R478; dc 1] -/
  step : BitVec 4
  /-- The sequence has stopped at a failed step [20 R478; dc false] -/
  stopped : Bool
  /-- Board table valid [20 R477; dc false] -/
  btOk : Bool
  /-- The board table in force [20 R477; see BoardTable] -/
  board : BoardTable
  /-- The flash's contents [20 R470; see Flash] -/
  flash : Flash
  /-- fw_version of the running image [20 Table 20-3; dc 0] -/
  fwVersion : BitVec 32
  /-- fw_build of the running image [20 Table 20-3; dc 0] -/
  fwBuild : BitVec 32
  /-- A reset requested by DEVICE_RESET and waiting for its response or an append: type [20 R484; dc none] -/
  resetDue : Option (BitVec 8)
  /-- VAON is lost: the device is held in cold reset [21 R494; dc false] -/
  held : Bool
  /-- What the surroundings of the boot that waits for a recovery image decided, and whether it is a cold one [20 R476; dc
  none] -/
  recIn : Option (BootIn × Bool)
  /-- Images of the persisted chain still to be committed at boot, each with its entry's digest [20 R481; dc empty] -/
  chainLeft : List (List Byte × BitVec 384)
  /-- Images of the persisted chain in force [20 R479; dc empty] -/
  chainNow : List (List Byte)
  /-- Time-of-day wait of R481 runs from this time [20 R481; dc none] -/
  waitFrom : Option (BitVec 64)
  /-- pkg.thermal readings: core, loom, stack_a, stack_b, selvedge [21 R499; reset 0] -/
  thermal : BitVec 40
  /-- pkg.thermal.warn [21; reset 100] -/
  warn : BitVec 8
  /-- pkg.thermal.warn_active [21; reset 0] -/
  warnActive : Bool
  /-- pkg.thermal.trip: THERMTRIP_L is low [21; reset 0] -/
  thermTrip : Bool
  /-- Stacks A and B refresh at twice the base rate [21 R499; dc 0] -/
  refresh2x : BitVec 2
  /-- gpio.ctl.oe [21; reset 0] -/
  gpioOe : BitVec 16
  /-- gpio.ctl.out [21; reset 0] -/
  gpioOut : BitVec 16
  /-- gpio.ctl.in [21; reset 0] -/
  gpioIn : BitVec 16
  /-- ident.device.stepping [13; reset per die, dc 0] -/
  stepping : BitVec 4
  /-- ident.device.variant: true HB [13; reset per part, dc FB] -/
  hb : Bool
  /-- ident.device.grade [13; reset per part, dc C] -/
  grade : BitVec 1
  /-- ident.serial [13; reset per device, dc 0] -/
  serial : BitVec 64
  /-- Stacks recorded lost in the flash fault log for this serial [15 R373; dc 0] -/
  recordedLoss : BitVec 2
  deriving DecidableEq, Repr


/-! ## The whole device -/

/-- What the device puts out: the model's own record of its outputs (DESIGN CHOICE, log entry 3). -/
inductive Emit where
  /-- A message sent on the link of a crossbar port, on one of its logical ports, with the LD-ID, or the destination and
  source PIDs, that the route's kind gives it (03 Table 3-9, R75). -/
  | link (xp : BitVec 6) (u : BitVec 7) (ld : Option (BitVec 4)) (pids : Option (BitVec 12 × BitVec 12)) (m : Msg)
  /-- A completion or a BISnp toward a host's logical upstream port. -/
  | host (u : BitVec 7) (m : Msg)
  /-- A message or an error completion toward another switch, by the crossbar port it came from. -/
  | fabric (xp : BitVec 6) (feid : BitVec 16) (m : Msg)
  /-- An APPLY (kind 0) or RESTORE (kind 1) notice on VC0 of a Weft link. -/
  | notice (link : BitVec 3) (kind : BitVec 1) (id : BitVec 8)
  /-- An MSI-X vector of the management function on an owner port. -/
  | msix (u : BitVec 7) (vector : BitVec 4)
  /-- An MSI-X vector of the VF mapped to a scribe instance. -/
  | vfMsix (inst : BitVec 10) (vector : BitVec 4)
  /-- A Nib response on an MCTP transport. -/
  | nib (t : Transport) (eid : BitVec 8) (mtag : BitVec 3) (opcode tag status : BitVec 16) (detail : BitVec 32) (payload : List Byte)
  /-- Another MCTP message or packet sent: type and bytes. -/
  | mctp (t : Transport) (eid : BitVec 8) (type : BitVec 8) (bytes : List Byte)
  /-- An MCTP packet forwarded by the bridge table. -/
  | packet (t : Transport) (p : Packet)
  /-- An EVENT_NOTICE to a subscribed EID, with head. -/
  | eventNotice (eid : BitVec 8) (head : BitVec 32)
  /-- An action on a CXL link: 0 Link Disable, 1 retrain, 2 release for training, 3 widen, 4 narrow, 5 accept, 6 decline. -/
  | portAction (u : BitVec 7) (action : BitVec 4)
  /-- A Weft flit sent. -/
  | weftFlit (link : BitVec 3) (f : WFlit)
  /-- A codeword pair of a Weft link sent: the symbols of its four logical lanes. -/
  | weftPair (link : BitVec 3) (lanes : List (List (BitVec 10)))
  /-- A Weft TRAIN flit sent. -/
  | train (link : BitVec 3) (p : WeftPeer) (seen : Bool)
  /-- A pulse or level change on a pin: 0 TSYNC_OUT, 1 THERMTRIP_L, 2 PERST of a bay. -/
  | pin (which : BitVec 4) (index : BitVec 8) (level : Bool)
  /-- A message delivered to the management complex at xp 62 or to telemetry at xp 63 (01 Table 1-3). -/
  | inner (xp : BitVec 6) (m : Msg)
  /-- An FM API command carried out on a port or an LD of its device: the command, its words and its bytes. -/
  | fm (u : BitVec 7) (ld : Option (BitVec 4)) (cmd : FmCmd) (words : List (BitVec 64)) (bytes : List Byte)
  /-- An FM API response. -/
  | fmReply (q : FmSrc) (cmd : FmCmd) (ret : FmRet) (words : List (BitVec 64))
  deriving DecidableEq, Repr

/-- The whole state of the device. -/
structure State where
  /-- Fabric time and telemetry [14; see TeleState] -/
  tele : TeleState
  /-- Ticks of the always-on clock since power-on [20 R478, 13 R330; dc 0] -/
  aon : BitVec 64
  /-- Plan loader, heddle tables, alternates and page entries [02, 03; see PlanState] -/
  plan : PlanState
  /-- Run-time state of the 8,192 bindings beside their contexts [03; see BindingRun] -/
  bind : Tab BindingRun
  /-- Migration slots 0 to 15 [03; see MigSlot] -/
  mig : Tab MigSlot
  /-- Crossbar, cell buffer and reservoir [04, 05; see XbarState] -/
  xbar : XbarState
  /-- Coherence proxy [06; see ProxyState] -/
  proxy : ProxyState
  /-- Scribe engines and instances [07; see ScribeState] -/
  scribe : ScribeState
  /-- Traffic controller [08; see TrafficState] -/
  traffic : TrafficState
  /-- Protection units [09; see ProtState] -/
  prot : ProtState
  /-- CXL ports by logical port u = 2p + h, 0 to 95 [10; see Port] -/
  ports : Tab Port
  /-- Weft links 0 to 7 [11; see Weft] -/
  wefts : Tab Weft
  /-- Lane array [12; see LaneState] -/
  lane : LaneState
  /-- Management complex [13; see MgmtState] -/
  mgmt : MgmtState
  /-- Memory integrity [15; see MemState] -/
  mem : MemState
  /-- Fault collector [16; see FaultState] -/
  fault : FaultState
  /-- Power management unit [17; see PmuState] -/
  pmu : PmuState
  /-- Slot power [18; see SlotState] -/
  slot : SlotState
  /-- Seal unit [19; see SealState] -/
  sealu : SealState
  /-- Boot, flash and package [20, 21; see BootState] -/
  boot : BootState
  /-- Outputs, oldest first: the model's own field [model; DESIGN CHOICE empty, log entry 3] -/
  emits : List Emit
  /-- Counter that gives each free value its own index: the model's own field [model; DESIGN CHOICE 0, log entry 4] -/
  free : Nat
  /-- Commands waiting, first in first out: the model's own field [model; reset empty] -/
  pending : List Instr
  deriving DecidableEq, Repr


/-! ## Values at reset

Each `X.init` holds the value every field of `X` has right after reset; a table lists no entry for an index
whose record stands at its `init`. -/

/-- Tables right after reset. -/
def Tables.init : Tables :=
  { route := [], window := [], binding := [], extent := [], weave := [], traffic := [], protection := [],
    power := [], buffer := [], port := [], hasPower := false, alts := [] }

/-- PlanState right after reset. -/
def PlanState.init : PlanState :=
  { active := Tables.init, base := Tables.init, shadow := Tables.init, shadowState := .empty, loadKind := 0,
    loadLength := 0, loadBytes := [], loadOwner := none, loadBlocks := [], loadRefused := false,
    commitTicket := none, persist := false, persistDue := false, planId := 0, generation := 0, stableDefault := 0,
    fabricId := 0, hasPlan := false, digest := 0, activeImage := [], armedId := 0, armedGeneration := 0,
    armedStable := 0, armedFabric := 0, armedDigest := 0, armedFull := false, armedLate := false, commitStamp := 0,
    armedStates := [], armedCarried := none, armedBlocks := [], boundary := 0, lastStatus := 0, lastDetail := 0,
    unforeseen := 0, chain := [], trigQ := [], present := [], work := .idle, altWeave := [], altWeaveOn := false,
    weaveDue := none, restoreWant := none, loadActivated := false, pages := [], pageSaved := [], pageBad := [],
    pageCache := [], pageWait := [], blocked := [], badWords := [] }

/-- BindingRun right after reset. -/
def BindingRun.init : BindingRun :=
  { outstanding := 0, holdStart := none, expired := false, refused := 0, activateAt := none, violated := false, drainTickets := [] }

/-- MigSlot right after reset. -/
def MigSlot.init : MigSlot :=
  { st := .idle, page := 0, watermark := 0, span := 0, phase := false, count0 := 0, count1 := 0, stall := [] }

/-- Plane right after reset. -/
def Plane.init : Plane :=
  { st := .up, cause := .clockLock, checkFail := false, lossCount := 0, resendCount := 0, rejoin := false,
    symptom := none, gptr := [], aptr := [], slotCnt := [], hdrErr := [], recovered := [], errFrame := 0,
    nextSlot := 0, testFrom := 0 }

/-- LoomLink right after reset. -/
def LoomLink.init : LoomLink :=
  { st := .up, failures := 0, recoveries := 0, symptomAt := none, lastTry := 0 }

/-- Voq right after reset. -/
def Voq.init : Voq :=
  { buf := [], res := [], chunks := [], mark := 0 }

/-- Starve right after reset. -/
def Starve.init : Starve :=
  { since := none, urgent := 0, order := 0, promoted := 0 }

/-- Pair right after reset. -/
def Pair.init : Pair :=
  { nextSeq := 0, window := [], wantSeq := 0, reseq := [] }

/-- Output right after reset. -/
def Output.init : Output :=
  { st := .up, since := 0, quotaRaised := false, ageCells := 0, ageMsgs := 0, promoteOut := 0, promoteIn := 0,
    staging := [], lastClass := [], starve := [], stagedMark := 0, upHold := [] }

/-- BufKey right after reset. -/
def BufKey.init : BufKey :=
  { n := 0, quotaFull := false, discarded := 0, resCells := 0, chunks := 0 }

/-- CellMeta right after reset. -/
def CellMeta.init : CellMeta :=
  { owner := .free, colour := false }

/-- XbarState right after reset. -/
def XbarState.init : XbarState :=
  { planes := [], looms := [], voqs := [], pairs := [], lastServed := [], starve := [], promoteOrder := 0,
    outs := [], keys := [], cells := [], nextBank := 0, rx := [], creditsReturned := [], passes := 0,
    lastLeaked := 0, repairPasses := 0, auditRun := false, auditPhase := .idle, passColour := false, auditStart := 0,
    nextStackB := false, cutFree := [], chunksUsed := [], stackLost := [], quotaHalvings := 0, lostMsgs := [] }

/-- Slice right after reset. -/
def Slice.init : Slice :=
  { trackers := [], wbs := [], evicts := [], park := [], waits := [], cnt := [], dir := [], dirPtr := [] }

/-- ProxyState right after reset. -/
def ProxyState.init : ProxyState :=
  { degraded := false, lostStack := false, degradedSince := 0, sweeps := [], biTimeout := 500, lossPoison := true,
    departed := 0, hpaOffset := [], slices := [], sf := [], unkSets := [], coarseA := [], coarseB := [], back := [],
    parkHigh := [] }

/-- SQueue right after reset. -/
def SQueue.init : SQueue :=
  { enable := false, size := 4, irqEn := false, ringOff := 0, compOff := 0, producer := 0, consumer := 0,
    phase := true, err := .none, fetchIdx := 0, recIdx := 0, partialLines := 0 }

/-- Inst right after reset. -/
def Inst.init : Inst :=
  { st := .disabled, causeProt := false, causeOwner := false, disableAfter := false, share := 0, burst := 0,
    newShare := none, tokens := 0, engineMask := 0, descQuota := 0, migrateOk := false, bslots := [], queues := [],
    t2oLen := 0, t2oFull := false, t2oData := [], o2tLen := 0, o2tFull := false, o2tAt := none, resetAt := none, o2tIrq := false, o2tData := [],
    cntLines := 0, cntDescs := 0, resetTickets := [], freezeTickets := [] }

/-- Engine right after reset. -/
def Engine.init : Engine :=
  { resetting := false, lines := 0, rotor := 0, nextIssue := 0 }

/-- ScribeState right after reset. -/
def ScribeState.init : ScribeState :=
  { insts := [], engines := [], descs := [], order := 0, back := [], refilled := 0 }

/-- Meter right after reset. -/
def Meter.init : Meter :=
  { tc := none, tp := none, ts := none, shaped := 0, green := 0, yellow := 0, red := 0, refused := 0, list := [] }

/-- Sampler right after reset. -/
def Sampler.init : Sampler :=
  { dLast := 0, dMax := 0, dSum := 0, yMax := 0, ySum := 0, qDepth := 0, qDelay := 0 }

/-- TrafficState right after reset. -/
def TrafficState.init : TrafficState :=
  { meters := [], sets := [], samplers := [], win := [], refilled := 0, sampled := [] }

/-- ViolRec right after reset. -/
def ViolRec.init : ViolRec :=
  { valid := false, kind := 0, cause := 0, src := 0, entryV := false, binding := 0, inst := 0, port := 0, entry := 0,
    dev := 0, addr := 0, feid := 0, stamp := 0, stampFull := 0, epoch := 0, label := 0, later := 0, inXp := 0 }

/-- ProtState right after reset. -/
def ProtState.init : ProtState :=
  { epoch := 0, current := 0, prior := 0, viol := ViolRec.init, fresh := none, bindViol := [], badEntries := [], fences := [] }

/-- Port right after reset. -/
def Port.init : Port :=
  { role := 0, st := .off, rate := 0, flit256 := false, lopt := false, ideSecure := false, mld := false,
    idDiffers := false, l0p := false, downCause := .link, since := 0, width := 0, trained := 0, downs := 0,
    recoveries := 0, ident := 0, ldMap := 0, recorded := false, pendingIdent := 0, pendingLdMap := 0, session := 0,
    symptom := none, inL0 := false, retrain := none, disabled := false, l0At := 0, confirmRaised := false,
    isDown := false, invalid := false, isolated := false, cnt := [], tags := [], cmds := [],
    slotSts := 0, replay := [], rateCap := none, ideKeys := [], ideOpen := 0 }

/-- WeftVc right after reset. -/
def WeftVc.init : WeftVc :=
  { sent := 0, reported := 0, freed := 0, limit := 0, occupancy := 0, owed := false, part := none, out := none,
    snapDue := false }

/-- Weft right after reset. -/
def WeftTx.init : WeftTx := { scr := 0, acc := 0, len := 0, pos := 0, period := 0 }

/-- Receive coding right after reset, and where a receiver begins to look for lock. -/
def WeftRecv.init : WeftRecv :=
  { locked := false, order := [], sym := [], scr := 0, acc := 0, len := 0, pos := 0, pair := 0, missed := 0, blocks := 0,
    invalid := [] }

/-- Weft right after reset. -/
def Weft.init : Weft :=
  { tx := WeftTx.init, recv := WeftRecv.init, st := .off, held := false, idDiffers := false, fecOn := false, vcCount := 0, downCause := .lock,
    outcome := .none, since := 0, ident := 0, peerLink := 0, peerSession := 0, recorded := false, peerSlots := [],
    session := 0, sessionAtUp := 0, txNext := 0, acked := 0, rxNext := 0, accepted := false, replay := [],
    round := none, roundAck := none, stuckRounds := 0, stuckSince := none, timerAt := none, nakDue := false,
    nakSent := none, vcs := [], tags := [], cfgVc := 8, cfgFec := true,
    cfgSlots := [(0, 1024), (1, 12288), (2, 20480), (3, 4096), (4, 4096), (5, 8192), (6, 8192), (7, 7168)],
    replayTimeout := 4, resyncUs := 64, tsyncUs := 8, tagTimeout := 50, relockAt := none, stateAt := 0,
    goodTrains := 0, seenSent := 0, seenGot := 0, sawSeen := false, peer := none, rxValid := false, heard := [],
    crNext := 0, snapAt := 0, timeDue := false, echoDue := none, syncId := 0, t1 := [], forward := none,
    back := none, notices := [], cnt := [], cmds := [], timeInfo := none, isolated := false, disabled := false }

/-- Lane right after reset. -/
def Lane.init : Lane :=
  { st := .off, rate := 0, signal := false, rxInv := false, converged := false, since := 0, ctle := 0, h1 := 0,
    h2 := 0, floatPos := 0, limitHits := 0, adaptAt := 0, limitRaised := false, mode := 0, pattern := 0, inject := false,
    locked := false, refLost := false, lockLost := 0, bits := 0, errs := 0, countAt := 0, preset := none,
    testing := false }

/-- Quad right after reset. -/
def Quad.init : Quad :=
  { pllLock := false, rate := 0, unlocks := 0 }

/-- L0p right after reset. -/
def L0p.init : L0p :=
  { idleUs := 2, lastUse := 0, widenAt := none, failAt := none, l1 := false }

/-- LaneState right after reset. -/
def LaneState.init : LaneState :=
  { lanes := [], quads := [], present := 0, refSel := 0, presets := [], margins := [], l0p := [] }

/-- Mailbox right after reset. -/
def Mailbox.init : Mailbox :=
  { go := false, irqEn := false, done := false, doneAt := none, busy := false, overrun := 0, answered := 0, req := [], resp := [],
    accepted := none, answer := none }

/-- MgmtState right after reset. -/
def MgmtState.init : MgmtState :=
  { fw := .reset, restarts := 0, heartbeat := 0, restartCause := 0, hangRestart := false, hangWindow := none,
    mbx := [], tickets := [], nextTicket := 1, events := [], head := 0, irqEn := false, subs := [],
    noticeDue := false, eid := 0, reasm := [], mctpWait := [], bridge := [], maker := none, makerSince := 0,
    vfs := [], vppbs := [], ioOut := [], aer := [], msix := [], tunnels := [], upSince := 0, attachQ := [] }

/-- CSet right after reset. -/
def CSet.init : CSet :=
  { enable := false, win := false, freeze := false, cycles := 0, cycleAt := 0, evsel := [], fltSrc := 0, fltAddr := 12,
    fltClass := 0, cnt := [], ovf := 0, ovfNew := 0, ovfAt := 0, sample := 0 }

/-- BindCnt right after reset. -/
def BindCnt.init : BindCnt :=
  { reqs := 0, rdBytes := 0, wrBytes := 0, err := 0, latSum := 0, latMax := 0 }

/-- TeleState right after reset. -/
def TeleState.init : TeleState :=
  { time := 0, rate := 0, st := .free, ref := 0, refPresent := 0, stepped := false, frozen := false,
    source := 0, offset := 0, path := 0, sources := [], tsyncOut := 0, revertS := 1, asym := [], good := 0, far := 0,
    tsyncAt := none, echoAt := [], tsyncFall := 0, betterSince := none, badPulses := 0, traceRaised := false, sets := [],
    window := none, bind := [], edge := none, dumpK := 0, dumpFlags := 0, dumpPort := 0, dumpSlots := 1, dumpBase := 0,
    dumpSeq := 0, dumpLost := 0, hostSkipped := 0, lostSince := 0, dumpAt := 0, dumpFrom := 0, hostDue := [], dumps := [], dumpWriting := none,
    hostWriting := none, heatOn := false, sweeping := false, heatDropped := 0, heatFrom := 0, aged := false, agePeriod := 0, heat := [],
    heatInc := [], heatClears := [], traceOn := false, traceSize := 0, traceMode := 0, tracePoints := 0,
    traceClasses := 0, traceXps := 0, traceStart := 0, traceLength := 0, traceStop := 0, tracePost := 0,
    traceLeft := none, traceWritten := 0, traceStopped := false, traceDropped := 0, traceGap := 0, traceAt := none,
    ring := [] }

/-- MemType right after reset. -/
def MemType.init : MemType :=
  { corrected := 0, hard := 0, ue := 0, used := 0, exhausted := 0, exhaustedHits := 0, evictions := 0, period := 100,
    scrubOn := true, passes := 0, skipped := 0, progress := 0, scrubPos := 0, lastHard := 0, lastHardStamp := 0,
    tracker := [], spares := [], rows := [], rowCopies := [], writebacks := [], injected := [], bad := [] }

/-- Stack right after reset. -/
def Stack.init : Stack :=
  { st := .up, cause := 0, rows := 0, words := 0, retrains := 0, ues := [] }

/-- MemState right after reset. -/
def MemState.init : MemState :=
  { types := [(8, { MemType.init with period := 28800000 }), (9, { MemType.init with period := 28800000 })],
    stks := [], remapDue := [], ifetch := [], inj := .idle, injType := 0, injMask := 0, injUnit := 0, injAddr := 0,
    injUntil := 0 }

/-- FaultRec right after reset. -/
def FaultRec.init : FaultRec :=
  { valid := false, cleared := false, escalated := false, isolated := false, injected := false, level := 0,
    recoveries := 0, count := 0, source := 0, first := 0, detail := 0, last := 0, lastSource := 0, lastFull := 0,
    clkCount := 0, clkSource := 0, clkDetail := 0, exhausted := false, sources := [], conds := [] }

/-- FaultState right after reset. -/
def FaultState.init : FaultState :=
  { recs := [], cfgs := [], safeStop := false, ssCode := 0, ssBlock := 0, ssStamp := 0, logDue := [], log := [],
    todo := [] }

/-- Domain right after reset. -/
def Domain.init : Domain :=
  { st := .on, lowest := none, auto := true, idleUs := none, wakes := 0, step := 0, fromRet := false, misses := 0,
    dead := false, reload := false, lastUse := 0 }

/-- Rail right after reset. -/
def Rail.init : Rail :=
  { target := 0, vout := 0, iout := 0, vdone := false, off3 := 0, change := none, failed := false, enable := true }

/-- PmuState right after reset. -/
def PmuState.init : PmuState :=
  { st := .run, entering := false, exiting := false, exitFailed := false, dozeAuto := false, toStandby := false,
    stage := 0, ticket := none, stage12 := none, stage12Ticket := none, before := [], rolling := false, departAsked := false,
    sources := 255#8, gpioWake := 0, gpioFall := 0, detectMask := 0, alarm := 0, lastWake := 0, lastDone := 0,
    lastAbort := 0x3fc0#64, mult := [], aborts := [], doms := [], rails := [], avsTimeout := 1000, retPassed := 0,
    retFailed := 0, sigs := [] }

/-- Slot right after reset. -/
def Slot.init : Slot :=
  { st := .empty, prsntL := false, prsntS := false, shortPin := false, pg := false, perst := true, gateOn := false,
    retryActive := false, retryEnd := 0, wake := false, trip := .none, since := 0, iout := 0, vout := 0,
    gateCtl := BitVec.ofNat 64 (100 + 20 * 2^7 + 12 * 2^12 + 2000 * 2^19 + 50 * 2^35),
    ctl := BitVec.ofNat 64 (2 + 3 * 2^7 + 1000 * 2^11), pgCfg := BitVec.ofNat 64 (1000 + 100 * 2^16 + 1000 * 2^26),
    trips := 0, insertions := 0, retryCount := 0, surprise := 0, lock := false, pgFrom := none, breakerAt := none,
    rampAt := none, closeAt := none, perstFrom := none, perstHold := false, gateOffAt := none, offAt := none,
    openAt := none, toggleAt := none, cmds := [] }

/-- SlotState right after reset. -/
def SlotState.init : SlotState :=
  { slots := [], vbus := 0, busUv := false, busOv := false, vselLost := false }

/-- SealState right after reset. -/
def SealState.init : SealState :=
  { lc := .blank, lcFuse := .blank, claims := 0, releases := 0, ownerSlots := [], ownerSlot := 0, makerRevoked := 0,
    uds := 0, udsBurned := false, planKeys := [], dbg := 0, staged := 0, isStaged := false, chainBroken := false,
    ringFault := false, entropyFail := false, boot := 0, headSeq := 0, headDigest := 0, hasHead := false,
    nextSeq := 0, nonce := none, ring := [], appends := [], spdm := [], devRecs := [], cert := [], aliasCert := [],
    planChain := 0, armedChain := 0, armedLate := false, armedStamp := 0, fwDigest := 0, btDigest := 0,
    lcReset := none, sessions := 0 }

/-- BoardTable right after reset. -/
def BoardTable.init : BoardTable :=
  { port := [], presets := [], refSel := 0, l0pIdle := 2, weftEnable := 0, weftCfg := [], slot := [], ownerMask := 0,
    trustedLinks := 0, eid := 0, timeWait := 2000 }

/-- Flash right after reset. -/
def Flash.init : Flash :=
  { activeFw := 0, activeBt := 0, ringSlots := 16384, flashMib := 256, headerOk := true, fw := [], bt := [],
    remapLog := [], remapGen := 0, plan := [], planHalf := 1, writing := [] }

/-- BootState right after reset. -/
def BootState.init : BootState :=
  { stage := 0, image := false, fallback := false, recovery := false, planHold := false, i3cAddr := 0, cause := 0,
    runningAt := 0, step := 1, stopped := false, btOk := false, board := BoardTable.init, flash := Flash.init,
    fwVersion := 0, fwBuild := 0, resetDue := none, held := false, recIn := none, chainLeft := [],
    chainNow := [], waitFrom := none, thermal := 0, warn := 100, warnActive := false, thermTrip := false,
    refresh2x := 0, gpioOe := 0, gpioOut := 0, gpioIn := 0, stepping := 0, hb := false,
    grade := 0, serial := 0, recordedLoss := 0 }

/-- Why a step stops with a fault. No meaning of this model ends in one: every unlisted case of the spec is a
next state, and the type keeps the host's three outcomes whole. Safe: nothing raises it. -/
inductive Fault where
  /-- Raised by no meaning; safe. -/
  | none
  deriving DecidableEq, Repr

/-- Why a step is refused. -/
inductive Refusal where
  /-- An arm of `exec` that has no meaning yet: safe, since a claim about it cannot be proved. -/
  | notModelled (mnemonic : String)
  deriving DecidableEq, Repr

/-- The device right after RESET_L is released (20 R478 step 1): every register at the reset value its table
states, everything else as log entry 2 names. -/
def State.reset : State :=
  { tele := TeleState.init, aon := 0, plan := PlanState.init, bind := [], mig := [], xbar := XbarState.init,
    proxy := ProxyState.init, scribe := ScribeState.init, traffic := TrafficState.init, prot := ProtState.init,
    ports := [], wefts := [], lane := LaneState.init, mgmt := MgmtState.init, mem := MemState.init,
    fault := FaultState.init, pmu := PmuState.init, slot := SlotState.init, sealu := SealState.init,
    boot := BootState.init, emits := [], free := 0, pending := [] }

end Sys2Proof.Machine
end

