-- ==== Sys2Proof/Machine/Tab.lean ====
section
/-! DEFINITION. Sparse tables: reading, writing and the canonical form (indices strictly rising, no entry
equal to the table's default). -/

namespace Sys2Proof.Machine

open Sys2Proof

/-- What index `k` of a table with default `d` holds. -/
def tabGet {α : Type} (d : α) : Tab α → Nat → α
  | [], _ => d
  | (j, v) :: t, k => if k = j then v else tabGet d t k

/-- The table with `v` listed at index `k`. -/
def tabPut {α : Type} (k : Nat) (v : α) : Tab α → Tab α
  | [] => [(k, v)]
  | (j, w) :: t =>
    if k < j then (k, v) :: (j, w) :: t
    else if k = j then (k, v) :: t
    else (j, w) :: tabPut k v t

/-- The table with nothing listed at index `k`. -/
def tabDel {α : Type} (k : Nat) : Tab α → Tab α
  | [] => []
  | (j, w) :: t => if k = j then tabDel k t else (j, w) :: tabDel k t

/-- The table with index `k` holding `v`, in canonical form. -/
def tabSet {α : Type} [DecidableEq α] (d : α) (t : Tab α) (k : Nat) (v : α) : Tab α :=
  if v = d then tabDel k t else tabPut k v t

/-- Indices strictly rising, all above the bound `lo`, and no entry equal to the default. -/
def tabWfFrom {α : Type} [DecidableEq α] (d : α) : Nat → Tab α → Bool
  | _, [] => true
  | lo, (j, v) :: t => decide (lo ≤ j) && !decide (v = d) && tabWfFrom d (j + 1) t

/-- The canonical form of a table. -/
def tabWf {α : Type} [DecidableEq α] (d : α) (t : Tab α) : Bool := tabWfFrom d 0 t

/-- The indices a table lists. -/
def tabKeys {α : Type} (t : Tab α) : List Nat := t.map (·.1)

/-- The table with every listed value changed by `f`; `f` keeps the default. -/
def tabMap {α : Type} [DecidableEq α] (d : α) (f : Nat → α → α) (t : Tab α) : Tab α :=
  (t.map fun p => (p.1, f p.1 p.2)).filter fun p => !decide (p.2 = d)

/-- The table with the indices that `keep` refuses back at the default. -/
def tabFilter {α : Type} (keep : Nat → α → Bool) (t : Tab α) : Tab α :=
  t.filter fun p => keep p.1 p.2

/-- `n` values from index `lo` on. -/
def tabSlice {α : Type} (d : α) (t : Tab α) (lo n : Nat) : List α :=
  (List.range n).map fun i => tabGet d t (lo + i)

/-- The table with a list of values written from index `lo` on. -/
def tabWrite {α : Type} [DecidableEq α] (d : α) (t : Tab α) (lo : Nat) (vs : List α) : Tab α :=
  (vs.zipIdx).foldl (fun t p => tabSet d t (lo + p.2) p.1) t

end Sys2Proof.Machine
end

