-- ==== Sys2Proof/Machine/Flags.lean ====
section
/-! DEFINITION. Status flags: the fault records, their levels and escalation, the event queue, and raising a
fault (Fault Collection and Reaction; Management Core and Nib Mailboxes, Events). -/

namespace Sys2Proof.Machine

open Sys2Proof

/-! ## Codes -/

/-- Codes of block PORT: record index, class (Table 16-1), base level (Table 16-2). -/
def faultsPort : List (Nat × Nat × Nat) :=
  [(1, 2, 1), (2, 0, 1), (3, 2, 1), (16, 2, 2), (17, 2, 1), (32, 2, 1), (48, 0, 1), (64, 2, 1)]

/-- Codes of block WEFT: record index, class (Table 16-1), base level (Table 16-2). -/
def faultsWeft : List (Nat × Nat × Nat) :=
  [(257, 2, 1), (259, 0, 1), (272, 2, 1), (273, 2, 1), (274, 2, 1), (288, 2, 1), (289, 2, 1),
   (290, 2, 1)]

/-- Codes of block LANE: record index, class (Table 16-1), base level (Table 16-2). -/
def faultsLane : List (Nat × Nat × Nat) :=
  [(513, 0, 1), (514, 0, 0), (528, 0, 0), (544, 0, 1), (560, 2, 2), (561, 2, 2)]

/-- Codes of block XBAR: record index, class (Table 16-1), base level (Table 16-2). -/
def faultsXbar : List (Nat × Nat × Nat) :=
  [(769, 2, 2), (770, 0, 1), (771, 4, 4), (784, 0, 0), (785, 3, 3), (800, 2, 1), (801, 0, 1)]

/-- Codes of block BUF: record index, class (Table 16-1), base level (Table 16-2). -/
def faultsBuf : List (Nat × Nat × Nat) :=
  [(1056, 0, 0), (1057, 2, 1), (1058, 2, 1), (1072, 2, 1)]

/-- Codes of block RSVR: record index, class (Table 16-1), base level (Table 16-2). -/
def faultsRsvr : List (Nat × Nat × Nat) :=
  [(1281, 0, 1), (1296, 2, 1), (1297, 2, 1)]

/-- Codes of block HEDL: record index, class (Table 16-1), base level (Table 16-2). -/
def faultsHedl : List (Nat × Nat × Nat) :=
  [(1538, 0, 1), (1539, 0, 1), (1552, 2, 1), (1553, 0, 0), (1568, 2, 1), (1569, 0, 1),
   (1570, 2, 1), (1571, 2, 1), (1572, 2, 1), (1573, 2, 1)]

/-- Codes of block PRXY: record index, class (Table 16-1), base level (Table 16-2). -/
def faultsPrxy : List (Nat × Nat × Nat) :=
  [(1808, 2, 1), (1809, 2, 1), (1810, 0, 0), (1824, 2, 1), (1825, 0, 0), (1840, 0, 1),
   (1856, 1, 1), (1857, 2, 1)]

/-- Codes of block SCRB: record index, class (Table 16-1), base level (Table 16-2). -/
def faultsScrb : List (Nat × Nat × Nat) :=
  [(2049, 0, 1), (2050, 2, 1), (2064, 2, 1), (2065, 0, 1), (2080, 2, 3), (2096, 0, 0)]

/-- Codes of block TRAF: record index, class (Table 16-1), base level (Table 16-2). -/
def faultsTraf : List (Nat × Nat × Nat) :=
  [(2305, 0, 0), (2320, 0, 1), (2336, 2, 1)]

/-- Codes of block PROT: record index, class (Table 16-1), base level (Table 16-2). -/
def faultsProt : List (Nat × Nat × Nat) :=
  [(2561, 2, 2), (2592, 2, 1)]

/-- Codes of block HBM: record index, class (Table 16-1), base level (Table 16-2). -/
def faultsHbm : List (Nat × Nat × Nat) :=
  [(2817, 2, 2), (2818, 0, 1), (2832, 0, 1)]

/-- Codes of block MEM: record index, class (Table 16-1), base level (Table 16-2). -/
def faultsMem : List (Nat × Nat × Nat) :=
  [(3073, 0, 0), (3088, 0, 1), (3089, 0, 0), (3090, 1, 1), (3104, 2, 1), (3120, 2, 1),
   (3121, 4, 1), (3122, 2, 3)]

/-- Codes of block MGMT: record index, class (Table 16-1), base level (Table 16-2). -/
def faultsMgmt : List (Nat × Nat × Nat) :=
  [(3329, 2, 3), (3330, 4, 1), (3344, 0, 0), (3345, 0, 1), (3360, 0, 0)]

/-- Codes of block SEAL: record index, class (Table 16-1), base level (Table 16-2). -/
def faultsSeal : List (Nat × Nat × Nat) :=
  [(3585, 0, 1), (3600, 2, 1), (3601, 1, 1), (3616, 2, 1), (3632, 4, 1), (3633, 3, 1),
   (3648, 1, 1)]

/-- Codes of block FLT: record index, class (Table 16-1), base level (Table 16-2). -/
def faultsFlt : List (Nat × Nat × Nat) :=
  [(3841, 0, 1), (3856, 2, 1)]

/-- Codes of block PMU: record index, class (Table 16-1), base level (Table 16-2). -/
def faultsPmu : List (Nat × Nat × Nat) :=
  [(4097, 0, 0), (4112, 0, 1), (4113, 4, 1), (4114, 2, 1), (4128, 2, 1), (4129, 3, 1),
   (4145, 2, 1), (4160, 0, 1), (4161, 4, 4)]

/-- Codes of block SLOT: record index, class (Table 16-1), base level (Table 16-2). -/
def faultsSlot : List (Nat × Nat × Nat) :=
  [(4353, 2, 1), (4354, 2, 1), (4355, 2, 1), (4356, 2, 1), (4368, 3, 1), (4384, 0, 1),
   (4385, 0, 1), (4400, 3, 1), (4401, 1, 1), (4402, 3, 1)]

/-- Codes of block TELE: record index, class (Table 16-1), base level (Table 16-2). -/
def faultsTele : List (Nat × Nat × Nat) :=
  [(4609, 0, 1), (4610, 4, 4), (4624, 0, 1), (4625, 0, 1), (4626, 1, 1), (4627, 0, 0),
   (4640, 0, 0), (4641, 0, 0), (4642, 0, 0)]

/-- Codes of block BOOT: record index, class (Table 16-1), base level (Table 16-2). -/
def faultsBoot : List (Nat × Nat × Nat) :=
  [(4865, 4, 1), (4866, 2, 1), (4867, 1, 1), (4880, 0, 1), (4881, 2, 1), (4882, 0, 1)]

/-- Every code a faults table of the manual defines (R375). -/
def faultTable : List (Nat × Nat × Nat) :=
  faultsPort ++ faultsWeft ++ faultsLane ++ faultsXbar ++ faultsBuf ++ faultsRsvr ++ faultsHedl ++ faultsPrxy ++ faultsScrb ++ faultsTraf ++
  faultsProt ++ faultsHbm ++ faultsMem ++ faultsMgmt ++ faultsSeal ++ faultsFlt ++ faultsPmu ++ faultsSlot ++ faultsTele ++ faultsBoot

/-- Class of record k × 256 + c: C where no faults table defines it (R375). -/
def faultClass (key : Nat) : Nat :=
  match faultTable.find? (fun r => r.1 == key) with
  | some r => r.2.1
  | none => 0

/-- Base reaction level of record k × 256 + c: 0 where no faults table defines it (R375). -/
def faultBase (key : Nat) : Nat :=
  match faultTable.find? (fun r => r.1 == key) with
  | some r => r.2.2
  | none => 0

/-- Default ceiling by class (Table 16-4). -/
def defaultCeiling (cls base : Nat) : Nat :=
  if cls = 0 ∨ cls = 1 then max base 1
  else if cls = 2 then max base 2
  else if cls = 3 then max base 3
  else base

/-- The configuration of a code before anything has written it (16, flt.cfg resets). -/
def defaultCfg (key : Nat) : FaultCfg :=
  { level := BitVec.ofNat 3 (faultBase key)
    ceiling := BitVec.ofNat 3 (defaultCeiling (faultClass key) (faultBase key))
    escEn := true, autoExit := true, quietMs := 1000, maxRecover := 3 }

/-- The configuration of record `key` in force. -/
def faultCfg (f : FaultState) (key : Nat) : FaultCfg :=
  match tabGet none f.cfgs key with
  | some c => c
  | none => defaultCfg key

/-- Record `key`. -/
def faultRec (f : FaultState) (key : Nat) : FaultRec := tabGet FaultRec.init f.recs key

/-- The collector with record `key` replaced. -/
def setFaultRec (f : FaultState) (key : Nat) (r : FaultRec) : FaultState :=
  { f with recs := tabSet FaultRec.init f.recs key r }

/-! ## Sources (R377) -/

/-- A source with its whole index: kind in [31:16], index in [15:0]. A record keeps it as `src16` (log entry 21). -/
def source (kind index : Nat) : BitVec 32 := BitVec.ofNat 32 (kind % 16 * 65536 + index % 65536)

/-- The 16-bit source of a record: kind in [15:12], index in [11:0] (R377). -/
def src16 (src : BitVec 32) : BitVec 16 := BitVec.ofNat 16 (src.toNat / 65536 % 16 * 4096 + src.toNat % 4096)

/-- The source a 16-bit value names. -/
def srcOf16 (src : BitVec 16) : BitVec 32 := source (src.toNat / 4096) (src.toNat % 4096)

/-- Kind of a source. -/
def srcKind (src : BitVec 32) : Nat := src.toNat / 65536

/-- Index of a source. -/
def srcIndex (src : BitVec 32) : Nat := src.toNat % 65536

/-- Kinds with an isolating action (Table 16-3). -/
def isolates (src : BitVec 32) : Bool :=
  match srcKind src with
  | 1 => decide (srcIndex src < 96)
  | 2 => decide (srcIndex src < 8)
  | 3 => decide (srcIndex src < 8192)
  | 4 => decide (srcIndex src < 1024)
  | _ => false

/-- Domains whose group a row of Table 17-10 gives: quads, ports, Weft links, looms, planes, heddle, control, engines,
stacks, telemetry and management; banks, slices and the seal unit have none. -/
def hasReset (d : Nat) : Bool :=
  decide (d < 170) || decide (186 ≤ d ∧ d < 191) || decide (199 ≤ d ∧ d < 219)

/-- Domain of index i within a group of n domains from d on. -/
def inGroup (d n i : Nat) : Option Nat := if i < n then some (d + i) else none

/-- Power domain that a level-3 reaction resets for a source, by Table 17-10; for a memory type the domain
is the one the detail names (R505). -/
def resetDomain (src : BitVec 32) (detail : BitVec 64) : Option Nat :=
  match srcKind src with
  | 1 => inGroup 104 48 (srcIndex src / 2)
  | 2 => inGroup 152 8 (srcIndex src)
  | 5 => inGroup 168 2 (srcIndex src)
  | 6 => inGroup 215 2 (srcIndex src)
  | 8 => inGroup 199 16 (srcIndex src)
  | 10 => inGroup 0 104 (srcIndex src)
  | 11 =>
    if (srcIndex src = 0 ∨ (3 ≤ srcIndex src ∧ srcIndex src ≤ 7)) ∧ hasReset (fnat detail 52 8) then
      some (fnat detail 52 8)
    else none
  | 12 => inGroup 160 8 (srcIndex src)
  | 13 => some 218
  | _ => none

/-- The level a reaction is treated at for its source: a level 3 without a domain at 2, a level 2 without an
isolating action at 1 (Table 16-2, R377). -/
def treatedLevel (level : Nat) (src : BitVec 32) (detail : BitVec 64) : Nat :=
  let l3 := if level = 3 ∧ resetDomain src detail = none then 2 else level
  if l3 = 2 ∧ isolates src = false then 1 else l3

/-! ## One occurrence (R378, R381) -/

/-- The level an occurrence is reacted to at, before its source is considered (R381). -/
def reactLevel (cfg : FaultCfg) (cls : Nat) (r : FaultRec) : Nat :=
  let base := cfg.level.toNat
  if r.valid ∧ cfg.escEn ∧ cls ≠ 4 then max base (min (base + 1) cfg.ceiling.toNat) else base

/-- The 16 data bytes of a FAULT event (R391). -/
def faultEventData (key : Nat) (r : FaultRec) (src : BitVec 32) (detail : BitVec 64) : BitVec 128 :=
  BitVec.ofNat 128 (key / 256 + faultClass key * 2 ^ 8 + r.level.toNat * 2 ^ 16
    + (nb r.escalated + 2 * nb r.cleared + 4 * nb r.injected + 8 * nb r.isolated) * 2 ^ 24
    + key % 256 * 2 ^ 32 + (src16 src).toNat * 2 ^ 48 + r.count.toNat * 2 ^ 64 + (detail.toNat % 2 ^ 32) * 2 ^ 96)

/-- Whether a record is appended to the flash fault log (R386). -/
def isLogged (key level : Nat) : Bool :=
  decide (3 ≤ faultClass key ∨ 3 ≤ level ∨ key = 0x0B01)

/-- Sources with an automatic exit: logical ports and Weft links (Table 16-3). -/
def autoKind (src : BitVec 32) : Bool := decide (srcKind src = 1 ∨ srcKind src = 2)

/-- Time at which the quiet window of a record ends, quiet_ms of 8,000,000 ticks each, 0 acting as 1 (R383). -/
def quietEnd (c : FaultCfg) (r : FaultRec) : Nat := r.lastFull.toNat + max 1 c.quietMs.toNat * 8000000

/-- The quiet window of an isolated record has passed by fabric time `t`: the exit comes before an occurrence of then (R383). -/
def exitDue (c : FaultCfg) (t : BitVec 64) (r : FaultRec) : Bool :=
  r.isolated && c.autoExit && r.sources.any autoKind && decide (r.recoveries.toNat < c.maxRecover.toNat)
  && decide (quietEnd c r ≤ t.toNat)

/-- The record once its sources with an automatic exit are released (R383). -/
def exitedRec (r : FaultRec) : FaultRec :=
  let left := r.sources.filter fun x => !autoKind x
  { r with sources := left, isolated := !left.isEmpty, exhausted := r.exhausted && !left.isEmpty
           recoveries := satAdd r.recoveries 1 }

/-- The exit actions of a record's sources with an automatic exit. -/
def exitsOf (key : Nat) (r : FaultRec) : List Reaction :=
  (r.sources.filter autoKind).map fun x =>
    { exit := true, block := key / 256, code := key % 256, level := 0, source := x, detail := 0 }

/-- The occurrences of the present clock in a record: their number, and the first by ascending source with its detail
(R378). -/
def clkRec (src : BitVec 32) (detail t : BitVec 64) (r : FaultRec) : FaultRec :=
  if r.valid ∧ r.lastFull = t ∧ r.clkCount ≠ 0 then
    let r1 := { r with clkCount := satAdd r.clkCount 1 }
    if (src16 src).toNat < (src16 r.clkSource).toNat then
      let r2 := { r1 with clkSource := src, clkDetail := detail }
      if r.count = r.clkCount then { r2 with source := src16 src, detail := detail } else r2
    else r1
  else { r with clkCount := 1, clkSource := src, clkDetail := detail }

/-- The last source of a record after an occurrence: within one clock the highest (R378). -/
def lastSrc (src : BitVec 32) (t : BitVec 64) (r : FaultRec) : BitVec 16 :=
  if r.lastFull = t ∧ r.clkCount ≠ 0 ∧ (src16 src).toNat < r.lastSource.toNat then r.lastSource else src16 src

/-- The record after one occurrence at fabric time `t` (R378, R379, R381). -/
def occurRec (cfg : FaultCfg) (key : Nat) (inj : Bool) (src : BitVec 32) (detail t : BitVec 64)
    (r : FaultRec) : FaultRec :=
  let raw := reactLevel cfg (faultClass key) r
  let lvl := treatedLevel raw src detail
  if r.valid then
    { clkRec src detail t r with
             count := satAdd r.count 1, last := t.setWidth 48, lastSource := lastSrc src t r, lastFull := t,
             cleared := false, escalated := r.escalated || decide (cfg.level.toNat < raw),
             injected := r.injected || inj, level := BitVec.ofNat 3 (max r.level.toNat lvl),
             isolated := r.isolated || (decide (2 ≤ lvl) && isolates src),
             sources := if decide (2 ≤ lvl) && isolates src && !r.sources.contains src
                        then r.sources ++ [src] else r.sources }
  else
    { FaultRec.init with
             valid := true, count := 1, source := src16 src, detail := detail, first := t.setWidth 48,
             last := t.setWidth 48, lastSource := src16 src, lastFull := t, injected := inj,
             clkCount := 1, clkSource := src, clkDetail := detail,
             level := BitVec.ofNat 3 lvl, isolated := decide (2 ≤ lvl) && isolates src,
             sources := if decide (2 ≤ lvl) && isolates src then [src] else [],
             conds := r.conds }

/-- One occurrence of record `key` in the collector: the record, what is still to be done about it (a level of 2 and more, or a
class F that wakes the device, 17 Table 17-9; an exit that is due comes first, R383), what is to be logged, and the data of the FAULT event it queues, if it queues one (R376, R378). -/
def occur (key : Nat) (inj : Bool) (src : BitVec 32) (detail t : BitVec 64) (f : FaultState) :
    FaultState × Option (BitVec 128) :=
  let cfg := faultCfg f key
  let r0 := faultRec f key
  let due := !f.safeStop && exitDue cfg t r0
  let r := if due then exitedRec r0 else r0
  let lvl := treatedLevel (reactLevel cfg (faultClass key) r) src detail
  let r' := occurRec cfg key inj src detail t r
  let data := faultEventData key r' src detail
  let f1 := { setFaultRec f key r' with todo := if due then f.todo ++ exitsOf key r0 else f.todo }
  let f2 := if 2 ≤ lvl ∨ faultClass key = 4 then
      { f1 with todo := f1.todo ++ [{ exit := false, block := key / 256, code := key % 256, level := lvl, source := src,
                                      detail := detail }] }
    else f1
  let f3 := if isLogged key lvl then { f2 with logDue := f2.logDue ++ [{ stamp := t, data := data, serial := 0 }] } else f2
  (f3, if 1 ≤ lvl ∧ (r.valid = false ∨ r.level.toNat < lvl) then some data else none)

/-! ## The event queue (R322) -/

/-- The event queue with one more record. -/
def pushRecord (type : BitVec 16) (stamp : BitVec 64) (data : BitVec 128) (m : MgmtState) : MgmtState :=
  { m with events := m.events ++ [{ seq := m.head, type := type, stamp := stamp.setWidth 48, data := data }],
           head := m.head + 1, noticeDue := true }

/-- The count of the EVENT_LOST record at the end of the queue, one higher. -/
def bumpLost : List Event → List Event
  | [] => []
  | [e] => if e.type = 7 then [{ e with data := (satAdd (e.data.setWidth 32) 1).setWidth 128 }] else [e]
  | e :: es => e :: bumpLost es

/-- An event is queued: as a record, as EVENT_LOST when 4,095 records are unacknowledged, or only counted
after that (R322). -/
def queueEvent (type : BitVec 16) (data : BitVec 128) (s : State) : State :=
  if s.mgmt.events.length < 4095 then
    { s with mgmt := pushRecord type s.tele.time data s.mgmt }
  else if s.mgmt.events.length = 4095 then
    let f := occur 0x0D11 false (source 13 0) (Config.freeBits 64 s.free) s.tele.time s.fault
    let m := pushRecord 7 s.tele.time 1 s.mgmt
    { s with fault := f.1, free := s.free + 1, mgmt := if f.2.isSome then { m with events := bumpLost m.events } else m }
  else { s with mgmt := { s.mgmt with events := bumpLost s.mgmt.events } }

/-! ## Raising a fault -/

/-- Records the ring holds. -/
def ringSlots (t : TeleState) : Nat := 2 ^ t.traceSize.toNat / 64

/-- A record of another type: DROP (1) with the count dropped, STOPPED (2) with the fault code. -/
def traceMark (t : TeleState) (rtype : Nat) (v : BitVec 32) : BitVec 512 :=
  BitVec.ofNat 512 (t.time.toNat % 2 ^ 48 + rtype * 2 ^ 85 + t.traceWritten.toNat % 2 ^ 24 * 2 ^ 104
    + v.toNat * 2 ^ 128)

/-- Recording into the trace ring ends, with a STOPPED record that carries a fault code (14 Table 14-8). -/
def traceEnd (code : Nat) (t : TeleState) : TeleState :=
  if t.traceOn ∧ t.traceStopped = false then
    { t with traceStopped := true, traceLeft := some 0, traceWritten := t.traceWritten + 1,
             ring := tabSet 0 t.ring (t.traceWritten.toNat % ringSlots t) (traceMark t 2 (BitVec.ofNat 32 code)) }
  else t

/-- The trace ring's stop: with stop_fault naming the record, post_records more records are written (R352). -/
def traceFault (key : Nat) (t : TeleState) : TeleState :=
  if t.traceOn ∧ t.traceStop.toNat = key ∧ key ≠ 0 ∧ t.traceLeft = none then
    if t.tracePost = 0 then traceEnd key t else { t with traceLeft := some t.tracePost }
  else t

/-- A block raises code `c` of block `k`, injected or not: the record is updated, the trace ring's stop is
taken, and a FAULT event is queued at level 1 or higher (R376, R378). -/
def raiseWith (inj : Bool) (k c : Nat) (src : BitVec 32) (detail : BitVec 64) (s : State) : State :=
  let key := k * 256 + c
  let f := occur key inj src detail s.tele.time s.fault
  let s1 := { s with fault := f.1, tele := traceFault key s.tele }
  match f.2 with
  | some data => queueEvent 1 data s1
  | none => s1

/-- A block raises code `c` of block `k` (R378). -/
def raise (k c : Nat) (src : BitVec 32) (detail : BitVec 64) (s : State) : State :=
  raiseWith false k c src detail s

/-- A block raises a code whose condition lasts: the source is noted until the condition goes (R379). -/
def raiseCond (k c : Nat) (src : BitVec 32) (detail : BitVec 64) (s : State) : State :=
  let s1 := raise k c src detail s
  let r := faultRec s1.fault (k * 256 + c)
  let r' := { r with conds := if r.conds.contains src then r.conds else r.conds ++ [src] }
  { s1 with fault := setFaultRec s1.fault (k * 256 + c) r' }

/-- The condition of a code has gone at a source; with no source left the record sets cleared (R379). -/
def condGone (k c : Nat) (src : BitVec 32) (s : State) : State :=
  let r := faultRec s.fault (k * 256 + c)
  if r.conds.contains src then
    let left := r.conds.filter (fun x => !decide (x = src))
    let r' := { r with conds := left, cleared := r.cleared || (r.valid && left.isEmpty) }
    { s with fault := setFaultRec s.fault (k * 256 + c) r' }
  else s

/-- What an acknowledgement leaves of record `key`: nothing but the conditions that last; occurrences of the same clock come
after it and make a fresh record (R380). -/
def ackedRec (key : Nat) (s : State) : FaultRec :=
  let r := faultRec s.fault key
  if r.valid ∧ r.lastFull = s.tele.time ∧ r.clkCount ≠ 0 then
    { FaultRec.init with
        valid := true, injected := r.injected, count := r.clkCount, source := src16 r.clkSource, detail := r.clkDetail
        level := BitVec.ofNat 3 (treatedLevel (faultCfg s.fault key).level.toNat r.clkSource r.clkDetail)
        first := r.last, last := r.last, lastSource := r.lastSource, lastFull := r.lastFull, clkCount := r.clkCount
        clkSource := r.clkSource, clkDetail := r.clkDetail, conds := r.conds }
  else { FaultRec.init with conds := r.conds }

/-- Acknowledging record `key`: ignored while isolated (R380). -/
def ackRec (key : Nat) (s : State) : State :=
  if (faultRec s.fault key).isolated then s else { s with fault := setFaultRec s.fault key (ackedRec key s) }

/-! ## flt.rec and flt.cfg as registers -/

/-- flt.rec[k][c].status (16, Registers). -/
def recStatus (key : Nat) (r : FaultRec) : BitVec 64 :=
  BitVec.ofNat 64 (nb r.valid + 4 * nb r.cleared + 8 * nb r.escalated + 16 * nb r.isolated + 32 * nb r.injected
    + faultClass key * 2 ^ 6 + r.level.toNat * 2 ^ 9 + r.recoveries.toNat * 2 ^ 12 + r.count.toNat * 2 ^ 16
    + r.source.toNat * 2 ^ 48)

/-- flt.rec[k][c].last. -/
def recLast (r : FaultRec) : BitVec 64 := BitVec.ofNat 64 (r.last.toNat + r.lastSource.toNat * 2 ^ 48)

/-- flt.cfg[k][c]. -/
def cfgWord (c : FaultCfg) : BitVec 64 :=
  BitVec.ofNat 64 (c.level.toNat + c.ceiling.toNat * 8 + nb c.escEn * 64 + nb c.autoExit * 128
    + c.quietMs.toNat * 256 + c.maxRecover.toNat * 2 ^ 24)

/-- flt.cfg[k][c] after a write of `w`: for classes U2 and F a level or a ceiling below the code's default is
ignored (R382); levels and ceilings go to 4 at most (log entry 20). -/
def cfgWrite (key : Nat) (w : BitVec 64) (old : FaultCfg) : FaultCfg :=
  let d := defaultCfg key
  let lv : BitVec 3 := fld w 0 3
  let ce : BitVec 3 := fld w 3 3
  let low := decide (3 ≤ faultClass key)
  { level := if 4 < lv.toNat ∨ (low ∧ lv.toNat < d.level.toNat) then old.level else lv
    ceiling := if 4 < ce.toNat ∨ (low ∧ ce.toNat < d.ceiling.toNat) then old.ceiling else ce
    escEn := bit w 6, autoExit := bit w 7, quietMs := fld w 8 16, maxRecover := fld w 24 4 }

/-- The collector with the configuration of record `key` replaced. -/
def setFaultCfg (f : FaultState) (key : Nat) (c : FaultCfg) : FaultState :=
  { f with cfgs := tabSet none f.cfgs key (if c = defaultCfg key then none else some c) }

end Sys2Proof.Machine
end

