-- ==== Sys2Proof/Machine/Operands.lean ====
section
/-! DEFINITION. Operand forms: the fields of the heddle records in their published formats, the indices of the
crossbar's tables, and the addressing of slices and stacks. -/

namespace Sys2Proof.Machine

open Sys2Proof

/-! ## Window records (Table 3-2) -/

/-- hpa_base. -/
def winBase (w : BitVec 256) : Nat := fnat w 0 64
/-- span_gib. -/
def winSpan (w : BitVec 256) : Nat := fnat w 64 32
/-- binding. -/
def winBinding (w : BitVec 256) : Nat := fnat w 96 16
/-- flags[0] v. -/
def winValid (w : BitVec 256) : Bool := bit w 112
/-- iw: log2 of the interleave ways. -/
def winIw (w : BitVec 256) : Nat := fnat w 120 8
/-- ig. -/
def winIg (w : BitVec 256) : Nat := fnat w 128 8
/-- way. -/
def winWay (w : BitVec 256) : Nat := fnat w 136 8

/-! ## Binding contexts (Table 3-3) -/

/-- state: 0 FREE, 1 STAGED, 2 ACTIVE, 3 FROZEN, 4 DETACHED, 5 DRAINING. -/
def ctxState (c : BitVec 512) : Nat := fnat c 0 8
/-- The context with its state replaced. -/
def ctxWithState (c : BitVec 512) (v : Nat) : BitVec 512 := setFld c 0 8 (BitVec.ofNat 8 v)
/-- kind: 0 host window binding, 1 scribe binding. -/
def ctxKind (c : BitVec 512) : Nat := fnat c 8 8
/-- class. -/
def ctxClass (c : BitVec 512) : Nat := fnat c 16 8
/-- flags[0] heat. -/
def ctxHeat (c : BitVec 512) : Bool := bit c 24
/-- flags[1] trace. -/
def ctxTrace (c : BitVec 512) : Bool := bit c 25
/-- extent_first. -/
def ctxExtFirst (c : BitVec 512) : Nat := fnat c 32 32
/-- extent_count. -/
def ctxExtCount (c : BitVec 512) : Nat := fnat c 64 32
/-- hold_limit in µs. -/
def ctxHold (c : BitVec 512) : Nat := fnat c 96 32
/-- The context with its hold_limit replaced. -/
def ctxWithHold (c : BitVec 512) (v : BitVec 32) : BitVec 512 := setFld c 96 32 v
/-- prot_first. -/
def ctxProtFirst (c : BitVec 512) : Nat := fnat c 128 16
/-- prot_count. -/
def ctxProtCount (c : BitVec 512) : Nat := fnat c 144 8
/-- cookie. -/
def ctxCookie (c : BitVec 512) : BitVec 32 := fld c 160 32
/-- target_mask. -/
def ctxTargets (c : BitVec 512) : BitVec 64 := fld c 192 64

/-! ## Extent and page entries (Tables 3-4, 3-5) -/

/-- feid of an extent. -/
def extFeid (e : BitVec 128) : Nat := fnat e 0 16
/-- v of an extent. -/
def extValid (e : BitVec 128) : Bool := bit e 16
/-- split. -/
def extSplit (e : BitVec 128) : Bool := bit e 17
/-- proxy of an extent. -/
def extProxy (e : BitVec 128) : Bool := bit e 18
/-- heat of an extent. -/
def extHeat (e : BitVec 128) : Bool := bit e 19
/-- dev_base: device address bits [51:30]. -/
def extBase (e : BitVec 128) : Nat := fnat e 24 22
/-- page_block. -/
def extBlock (e : BitVec 128) : Nat := fnat e 46 14

/-- feid of a page entry: the old side while migrating. -/
def pgFeid (p : BitVec 256) : Nat := fnat p 0 16
/-- v of a page entry. -/
def pgValid (p : BitVec 256) : Bool := bit p 16
/-- proxy of a page entry. -/
def pgProxy (p : BitVec 256) : Bool := bit p 17
/-- heat of a page entry. -/
def pgHeat (p : BitVec 256) : Bool := bit p 18
/-- mig. -/
def pgMig (p : BitVec 256) : Bool := bit p 19
/-- mig_slot. -/
def pgSlot (p : BitVec 256) : Nat := fnat p 20 4
/-- new_feid. -/
def pgNewFeid (p : BitVec 256) : Nat := fnat p 32 16
/-- dev_base of a page entry. -/
def pgBase (p : BitVec 256) : Nat := fnat p 64 64
/-- new_base. -/
def pgNewBase (p : BitVec 256) : Nat := fnat p 128 64

/-- The fields of a page entry that belong to the migration overlay: mig, mig_slot, new_feid, new_base (R68). -/
def pgOverlayMask : BitVec 256 :=
  setFld (setFld (setFld (0#256) 19 5 (BitVec.allOnes 5)) 32 16 (BitVec.allOnes 16)) 128 64 (BitVec.allOnes 64)

/-- A page entry written by a plan or a patch: the overlay's own fields are kept from the entry in force while
it migrates and are 0 otherwise (R68, R88). -/
def pgMerge (old new : BitVec 256) : BitVec 256 :=
  if pgMig old then (new &&& ~~~ pgOverlayMask) ||| (old &&& pgOverlayMask) else new &&& ~~~ pgOverlayMask

/-! ## Route entries (Tables 3-8, 3-9) -/

/-- xp of a route entry. -/
def rtXp (r : BitVec 128) : Nat := fnat r 0 6
/-- kind of a route entry: 0 LOCAL, 1 LOCAL_LD, 2 WEFT, 3 PBR, 4 MGMT. -/
def rtKind (r : BitVec 128) : Nat := fnat r 8 3
/-- half of a route entry. -/
def rtHalf (r : BitVec 128) : Nat := fnat r 12 1
/-- ld_id of a route entry. -/
def rtLd (r : BitVec 128) : Nat := fnat r 13 4
/-- Whether the device treats the entry for `feid` as valid: v set, a kind it knows, and for PBR a FEID that
a PID can express (Table 3-9, R75). -/
def rtValid (r : BitVec 128) (feid : Nat) : Bool :=
  bit r 7 && decide (rtKind r ≤ 4) && !(decide (rtKind r = 3) && decide (4096 ≤ feid))

/-! ## Protection entries (Table 9-1) -/

/-- v. -/
def ptValid (e : BitVec 256) : Bool := bit e 0
/-- r. -/
def ptR (e : BitVec 256) : Bool := bit e 1
/-- w. -/
def ptW (e : BitVec 256) : Bool := bit e 2
/-- lock. -/
def ptLock (e : BitVec 256) : Bool := bit e 3
/-- any_feid. -/
def ptAny (e : BitVec 256) : Bool := bit e 4
/-- sub_en[k]. -/
def ptSub (e : BitVec 256) (k : Nat) : Bool := bit e (8 + k)
/-- size_log2. -/
def ptSize (e : BitVec 256) : Nat := fnat e 16 6
/-- feid of a protection entry. -/
def ptFeid (e : BitVec 256) : Nat := fnat e 32 16
/-- Start of the entry: base × 2^21. -/
def ptBase (e : BitVec 256) : Nat := fnat e 64 31 * 2 ^ 21
/-- label. -/
def ptLabel (e : BitVec 256) : BitVec 32 := fld e 128 32
/-- The entry with lock = 1. -/
def ptWithLock (e : BitVec 256) : BitVec 256 := setFld e 3 1 1

/-! ## TRAFFIC records (Tables 8-2, 8-3) -/

/-- cir. -/
def tfCir (t : BitVec 512) : Nat := fnat t 0 32
/-- pir. -/
def tfPir (t : BitVec 512) : Nat := fnat t 32 32
/-- cbs. -/
def tfCbs (t : BitVec 512) : Nat := fnat t 64 32
/-- pbs. -/
def tfPbs (t : BitVec 512) : Nat := fnat t 96 32
/-- sr. -/
def tfSr (t : BitVec 512) : Nat := fnat t 128 32
/-- sd. -/
def tfSd (t : BitVec 512) : Nat := fnat t 160 32
/-- g_rate. -/
def tfG (t : BitVec 512) : Nat := fnat t 192 32
/-- ovh. -/
def tfOvh (t : BitVec 512) : Nat := fnat t 224 8
/-- flags[0] meter_en. -/
def tfMeter (t : BitVec 512) : Bool := bit t 232
/-- flags[1] shape_en. -/
def tfShape (t : BitVec 512) : Bool := bit t 233
/-- yellow_act. -/
def tfYAct (t : BitVec 512) : Nat := fnat t 240 8
/-- red_act. -/
def tfRAct (t : BitVec 512) : Nat := fnat t 248 8
/-- yellow_class. -/
def tfYClass (t : BitVec 512) : Nat := fnat t 256 8
/-- red_class. -/
def tfRClass (t : BitVec 512) : Nat := fnat t 264 8
/-- prx_mask. -/
def tfPrx (t : BitVec 512) : Nat := fnat t 272 8

/-- rank[s] of an xp record; an all-zero record takes rank s (R209). -/
def txRank (t : BitVec 512) (s : Nat) : Nat := if t = 0 then s else fnat t (8 * s) 8
/-- starve_us of an xp record, 20 for an all-zero one. -/
def txStarve (t : BitVec 512) : Nat := if t = 0 then 20 else fnat t 64 16
/-- sample_k of an xp record, 0 for an all-zero one. -/
def txSampleK (t : BitVec 512) : Nat := if t = 0 then 0 else fnat t 80 8

/-! ## BUFFER records (Tables 5-4, 5-5) -/

/-- min[c]. -/
def bfMin (b : BitVec 512) (c : Nat) : Nat := fnat b (16 * c) 16
/-- alpha_k[c], signed. -/
def bfAlpha (b : BitVec 512) (c : Nat) : Int := (fld b (128 + 8 * c) 8).toInt
/-- res_quota[c] in MiB. -/
def bfQuota (b : BitVec 512) (c : Nat) : Nat := fnat b (192 + 16 * c) 16
/-- The global record's audit_period in µs; a record that is all 0 takes the defaults (R131; log entry 22). -/
def bfAudit (b : BitVec 512) : Nat := if fnat b 0 32 = 0 then 8000 else fnat b 0 32
/-- age_limit in µs, 0 disabling the check; 10,000 where there is no record (R134; log entry 22). -/
def bfAge (b : BitVec 512) : Nat := if b = 0 then 10000 else fnat b 32 32
/-- up_hold_limit in µs; 8,000 where there is no record (Table 5-3; log entry 22). -/
def bfUpHold (b : BitVec 512) : Nat := if b = 0 then 8000 else fnat b 64 32

/-! ## Indices -/

/-- Index of the VOQ of an input for an output, message class and service class (R91). -/
def voqIx (i o mc sc : Nat) : Nat := ((i * 64 + o) * 8 + mc) * 8 + sc
/-- Input of a VOQ index. -/
def voqIn (k : Nat) : Nat := k / 4096
/-- Output of a VOQ index. -/
def voqOut (k : Nat) : Nat := k / 64 % 64
/-- Message class of a VOQ index. -/
def voqMc (k : Nat) : Nat := k / 8 % 8
/-- Service class of a VOQ index. -/
def voqSc (k : Nat) : Nat := k % 8
/-- Index of an (input, output) pair. -/
def pairIx (i o : Nat) : Nat := i * 64 + o
/-- Index of a queue key (R117). -/
def keyIx (o mc : Nat) : Nat := o * 8 + mc

/-- Slice of a line: address[9:7] XOR address[20:18] (R8). -/
def sliceOf (a : BitVec 64) : Nat := (fld a 7 3 ^^^ fld a 18 3).toNat
/-- Home stack of a line: A where address[12] is 0, B where it is 1 (R8). -/
def stackBOf (a : BitVec 64) : Bool := bit a 12

/-! ## Message classes (R20, Table 1-6) -/

/-- Class of a message by its opcode. -/
def opClass : Op → BitVec 3
  | .memRd | .memInv | .memClnEvct | .biConflict | .memWr | .memWrPtl => 1
  | .birspI | .birspS | .birspE => 4
  | .memData | .cmp | .cmpS | .cmpE | .biConflictAck => 2
  | .bisnpInv | .bisnpData | .bisnpCur => 3
  | .ioPosted | .ioNonPosted | .ioCompletion => 5
  | .cacheD2H | .cacheH2D | .cacheRsp => 6
  | .mctp | .mgmtOther | .apply | .restore | .timeInfo => 0
  | .user => 7

/-- A CXL.mem M2S request (Req or RwD). -/
def isRequest (o : Op) : Bool :=
  match o with
  | .memRd | .memInv | .memClnEvct | .biConflict | .memWr | .memWrPtl => true
  | _ => false

/-- A request that writes data (M2S RwD). -/
def isWrite (o : Op) : Bool :=
  match o with
  | .memWr | .memWrPtl => true
  | _ => false

/-- Bytes of data a message carries by its opcode, for the messages of fixed length. -/
def opLen (o : Op) : Nat :=
  match o with
  | .memWr | .memWrPtl | .memData => 64
  | _ => 0

/-- d of R193: 64 for a request that carries or returns a line, 0 for any other. -/
def lineBytes (o : Op) : Nat :=
  match o with
  | .memRd | .memWr | .memWrPtl => 64
  | _ => 0

/-- Cells of a message: ceil(n ÷ 64) with n its bytes and its message header (R90); the header is taken as 16
bytes (log entry 23). -/
def cellsOf (m : Msg) : Nat := (m.len + 16 + 63) / 64

/-- Access kind of a request for the protection check: 0 READ, 1 WRITE, 2 OWN, 3 NODATA (Table 9-2). -/
def accessKind (o : Op) (mv : MetaV) : Nat :=
  match o with
  | .memRd => if mv = .a then 2 else 0
  | .memWr | .memWrPtl => 1
  | _ => 3

end Sys2Proof.Machine
end

