-- ==== Sys2Proof/Machine/Ops.lean ====
section
/-! DEFINITION. The named operations every block uses: time, outputs, free values, the tables of the state, late
results, rule epochs, binding counts and completions. -/

namespace Sys2Proof.Machine

open Sys2Proof

/-! ## Time -/

/-- Ticks of a weave frame (02, R95). -/
def frameTicks : Nat := 8192
/-- Ticks of one microsecond. -/
def usTicks : Nat := 8000
/-- Ticks of one millisecond. -/
def msTicks : Nat := 8000000

/-- Fabric time. -/
def now (s : State) : Nat := s.tele.time.toNat

/-- Fabric time [47:0], as stamps hold it (R7). -/
def stamp (s : State) : BitVec 48 := s.tele.time.setWidth 48

/-- The first weave-frame boundary strictly after fabric time `t` (R46, R202). -/
def nextFrame (t : Nat) : Nat := (t / frameTicks + 1) * frameTicks

/-- The clocks `d` ticks on (R332). -/
def elapse (d : Nat) (s : State) : State :=
  { s with tele := { s.tele with time := s.tele.time + BitVec.ofNat 64 d }, aon := s.aon + BitVec.ofNat 64 d }

/-- The clocks moved on to fabric time `t`, if it lies ahead: an event whose rule fixes its earliest instant does
not come before it (log entry 8). -/
def reach (t : Nat) (s : State) : State := if now s < t then elapse (t - now s) s else s

/-- The first multiple of `p` not before `t`. -/
def multipleFrom (p t : Nat) : Nat := (t + p - 1) / p * p

/-- The always-on clock moved on to tick `t`, if it lies ahead. -/
def reachAon (t : Nat) (s : State) : State := if s.aon.toNat < t then elapse (t - s.aon.toNat) s else s

/-! ## Outputs and free values -/

/-- The device puts `e` out (log entry 3). -/
def emit (e : Emit) (s : State) : State := { s with emits := s.emits ++ [e] }

/-- The device puts a list of outputs out. -/
def emitAll (es : List Emit) (s : State) : State := { s with emits := s.emits ++ es }

/-- A free value of `w` bits, new each time (log entry 4). -/
def freeVal (w : Nat) (s : State) : BitVec w := Config.freeBits w s.free

/-- The state after a free value was taken. -/
def tookFree (s : State) : State := { s with free := s.free + 1 }

/-- A block raises a code whose detail its chapter does not state: a free value (16 R378; log entry 40). -/
def raiseFree (k c : Nat) (src : BitVec 32) (s : State) : State := raise k c src (freeVal 64 s) (tookFree s)

/-- A lasting condition whose detail its chapter does not state: a free value (16 R378, R379; log entry 40). -/
def raiseFreeCond (k c : Nat) (src : BitVec 32) (s : State) : State := raiseCond k c src (freeVal 64 s) (tookFree s)

/-! ## Tables of the state -/

/-- Binding context b as in force (R65). -/
def ctx (s : State) (b : Nat) : BitVec 512 := tabGet 0 s.plan.active.binding b
/-- The state with binding context b replaced. -/
def setCtx (b : Nat) (c : BitVec 512) (s : State) : State :=
  { s with plan := { s.plan with active := { s.plan.active with
      binding := tabSet 0 s.plan.active.binding b c } } }
/-- State of binding b (Table 3-3). -/
def bstate (s : State) (b : Nat) : Nat := ctxState (ctx s b)
/-- The state with binding b in binding state `v`. -/
def setBstate (b v : Nat) (s : State) : State := setCtx b (ctxWithState (ctx s b) v) s
/-- Run-time state of binding b. -/
def brun (s : State) (b : Nat) : BindingRun := tabGet BindingRun.init s.bind b
/-- The state with the run-time state of binding b replaced. -/
def setBrun (b : Nat) (r : BindingRun) (s : State) : State := { s with bind := tabSet BindingRun.init s.bind b r }
/-- Migration slot k. -/
def migSlot (s : State) (k : Nat) : MigSlot := tabGet MigSlot.init s.mig k
/-- The state with migration slot k replaced. -/
def setMig (k : Nat) (m : MigSlot) (s : State) : State := { s with mig := tabSet MigSlot.init s.mig k m }
/-- Logical port u. -/
def port (s : State) (u : Nat) : Port := tabGet Port.init s.ports u
/-- The state with logical port u replaced. -/
def setPort (u : Nat) (p : Port) (s : State) : State := { s with ports := tabSet Port.init s.ports u p }
/-- Weft link n. -/
def weft (s : State) (n : Nat) : Weft := tabGet Weft.init s.wefts n
/-- The state with Weft link n replaced. -/
def setWeft (n : Nat) (w : Weft) (s : State) : State := { s with wefts := tabSet Weft.init s.wefts n w }
/-- Output xp x. -/
def output (s : State) (x : Nat) : Output := tabGet Output.init s.xbar.outs x
/-- The state with output xp x replaced. -/
def setOutput (x : Nat) (o : Output) (s : State) : State :=
  { s with xbar := { s.xbar with outs := tabSet Output.init s.xbar.outs x o } }
/-- Queue key k. -/
def bufKey (s : State) (k : Nat) : BufKey := tabGet BufKey.init s.xbar.keys k
/-- The state with queue key k replaced. -/
def setKey (k : Nat) (q : BufKey) (s : State) : State :=
  { s with xbar := { s.xbar with keys := tabSet BufKey.init s.xbar.keys k q } }
/-- VOQ k. -/
def voq (s : State) (k : Nat) : Voq := tabGet Voq.init s.xbar.voqs k
/-- The state with VOQ k replaced. -/
def setVoq (k : Nat) (q : Voq) (s : State) : State :=
  { s with xbar := { s.xbar with voqs := tabSet Voq.init s.xbar.voqs k q } }
/-- Pair k. -/
def pair (s : State) (k : Nat) : Pair := tabGet Pair.init s.xbar.pairs k
/-- The state with pair k replaced. -/
def setPair (k : Nat) (q : Pair) (s : State) : State :=
  { s with xbar := { s.xbar with pairs := tabSet Pair.init s.xbar.pairs k q } }
/-- Plane n. -/
def plane (s : State) (n : Nat) : Plane := tabGet Plane.init s.xbar.planes n
/-- The state with plane n replaced. -/
def setPlane (n : Nat) (p : Plane) (s : State) : State :=
  { s with xbar := { s.xbar with planes := tabSet Plane.init s.xbar.planes n p } }
/-- The meter of binding b. -/
def meter (s : State) (b : Nat) : Meter := tabGet Meter.init s.traffic.meters b
/-- The state with the meter of binding b replaced. -/
def setMeter (b : Nat) (m : Meter) (s : State) : State :=
  { s with traffic := { s.traffic with meters := tabSet Meter.init s.traffic.meters b m } }
/-- The TRAFFIC record of index i in force: an accepted set from its boundary on, else the active table's (08 R202). -/
def traf (s : State) (i : Nat) : BitVec 512 :=
  match tabGet none s.traffic.sets i with
  | some q => if q.2.toNat ≤ s.tele.time.toNat then q.1 else tabGet 0 s.plan.active.traffic i
  | none => tabGet 0 s.plan.active.traffic i
/-- The BUFFER record of index i in force. -/
def bufRec (s : State) (i : Nat) : BitVec 512 := tabGet 0 s.plan.active.buffer i
/-- The route entry of a FEID in force. -/
def route (s : State) (f : Nat) : BitVec 128 := tabGet 0 s.plan.active.route f
/-- Page entry i in HBM. -/
def pageEntry (s : State) (i : Nat) : BitVec 256 := tabGet 0 s.plan.pages i
/-- The state with page entry i written (R69: HBM and the cache line in one operation). An entry that R70 made invalid
stays so until its block is loaded afresh. DESIGN CHOICE (log entry 130): writing an entry whose line the cache does not
hold allocates no line. -/
def setPage (i : Nat) (e : BitVec 256) (s : State) : State :=
  { s with plan := { s.plan with pages := tabSet 0 s.plan.pages i e } }
/-- The counters of binding b. -/
def bindCnt (s : State) (b : Nat) : BindCnt := tabGet BindCnt.init s.tele.bind b
/-- The state with the counters of binding b replaced. -/
def setBindCnt (b : Nat) (c : BindCnt) (s : State) : State :=
  { s with tele := { s.tele with bind := tabSet BindCnt.init s.tele.bind b c } }
/-- Power domain d. -/
def domain (s : State) (d : Nat) : Domain := tabGet Domain.init s.pmu.doms d
/-- The state with power domain d replaced. -/
def setDomain (d : Nat) (v : Domain) (s : State) : State :=
  { s with pmu := { s.pmu with doms := tabSet Domain.init s.pmu.doms d v } }
/-- Scribe instance n. -/
def inst (s : State) (n : Nat) : Inst := tabGet Inst.init s.scribe.insts n
/-- The state with scribe instance n replaced. -/
def setInst (n : Nat) (i : Inst) (s : State) : State :=
  { s with scribe := { s.scribe with insts := tabSet Inst.init s.scribe.insts n i } }
/-- Slot channel n. -/
def slotCh (s : State) (n : Nat) : Slot := tabGet Slot.init s.slot.slots n
/-- The state with slot channel n replaced. -/
def setSlot (n : Nat) (c : Slot) (s : State) : State :=
  { s with slot := { s.slot with slots := tabSet Slot.init s.slot.slots n c } }

/-- A plan is VALIDATING or ARMED (R78). -/
def planBusy (s : State) : Bool :=
  match s.plan.shadowState with
  | .validating | .armed => true
  | _ => false

/-! ## Late results (R321) -/

/-- A reply with a status alone. -/
def rep (status : Nat) (detail : Nat := 0) : Reply :=
  { status := BitVec.ofNat 16 status, detail := BitVec.ofNat 32 detail, payload := [] }

/-- An OK reply with a payload. -/
def ok (payload : List Byte := []) : Reply := { status := 0, detail := 0, payload := payload }

/-- The final result of a pending command is stored under its ticket and a COMPLETE event queued (R321). -/
def finishTicket (t : BitVec 16) (r : Reply) (s : State) : State :=
  match s.mgmt.tickets.find? (fun k => k.num = t && k.result.isNone) with
  | none => s
  | some k =>
    let ts := s.mgmt.tickets.map fun x => if x.num = t then { x with result := some r } else x
    let data := BitVec.ofNat 128 (t.toNat + k.opcode.toNat * 2 ^ 16 + r.status.toNat * 2 ^ 32)
    queueEvent 2 data { s with mgmt := { s.mgmt with tickets := ts } }

/-- The final result of a list of pending commands. -/
def finishAll (ts : List (BitVec 16)) (r : Reply) (s : State) : State :=
  ts.foldl (fun s t => finishTicket t r s) s

/-! ## Rule epochs (R217 to R219) -/

/-- A new rule epoch begins: current joins prior. -/
def newEpoch (s : State) : State :=
  { s with prot := { s.prot with epoch := s.prot.epoch + 1, prior := s.prot.prior + s.prot.current,
                                 current := 0 } }

/-- An access enters flight under the current epoch. -/
def epochEnter (s : State) : State := { s with prot := { s.prot with current := s.prot.current + 1 } }

/-- The reply of a fence (R219): its epoch and prior count. -/
def fenceReply (status : Nat) (e p : BitVec 32) : Reply :=
  { status := BitVec.ofNat 16 status, detail := 0, payload := wBytes 4 e ++ wBytes 4 p }

/-- Every waiting fence completes with OK once prior is 0 (R219). -/
def fencesDone (s : State) : State :=
  if s.prot.prior = 0 then
    s.prot.fences.foldl (fun s f => finishTicket f.ticket (fenceReply 0 f.epoch 0) s)
      { s with prot := { s.prot with fences := [] } }
  else s

/-- An access checked under epoch `e` leaves flight (R218, R219). -/
def epochLeave (e : BitVec 32) (s : State) : State :=
  if e = s.prot.epoch then { s with prot := { s.prot with current := s.prot.current - 1 } }
  else fencesDone { s with prot := { s.prot with prior := s.prot.prior - 1 } }

/-! ## Binding counts (R76, R77) -/

/-- Binding b becomes FREE: its buckets read full (R201), no hold timer runs, and its pending drains
complete with OK. -/
def bindingFree (b : Nat) (s : State) : State :=
  let r := brun s b
  let m := meter s b
  finishAll r.drainTickets (ok) (setMeter b { m with tc := none, tp := none, ts := none }
    (setBrun b { r with drainTickets := [], holdStart := none, expired := false, activateAt := none }
      (setBstate b 0 s)))

/-- A DRAINING binding whose outstanding count is 0 becomes FREE (Table 3-11). -/
def drainCheck (b : Nat) (s : State) : State :=
  if bstate s b = 5 ∧ (brun s b).outstanding = 0 then bindingFree b s else s

/-- One more outstanding request of binding b. -/
def outstandingUp (b : Nat) (s : State) : State :=
  setBrun b { brun s b with outstanding := (brun s b).outstanding + 1 } s

/-- One request of binding b is completed (R76). -/
def outstandingDown (b : Nat) (s : State) : State :=
  drainCheck b (setBrun b { brun s b with outstanding := (brun s b).outstanding - 1 } s)

/-- The write-phase counter that counts a write falls as its completion returns (R83). -/
def phaseDown (p : Option (BitVec 4 × Bool)) (s : State) : State :=
  match p with
  | none => s
  | some (k, ph) =>
    let m := migSlot s k.toNat
    setMig k.toNat (if ph then { m with count1 := m.count1 - 1 } else { m with count0 := m.count0 - 1 }) s

/-! ## Counter sets (R342 to R345) -/

/-- Counter set b. -/
def cset (s : State) (b : Nat) : CSet := tabGet CSet.init s.tele.sets b
/-- The state with counter set b replaced. -/
def setCset (b : Nat) (c : CSet) (s : State) : State :=
  { s with tele := { s.tele with sets := tabSet CSet.init s.tele.sets b c } }

/-- Requester kind of a message, as a bit of priv_mask: host binding, scribe instance, management, unbound. -/
def privOf (m : Msg) : Nat :=
  match m.req with
  | .engine .. => 1
  | .mgmt => 2
  | _ => if m.mclass = 0 then 2 else if m.counted then 0 else 3

/-- Whether an event passes the filters that an evsel word enables (R343). -/
def passes (c : CSet) (ev : BitVec 64) (m : Option Msg) : Bool :=
  match m with
  | none => decide (fnat ev 4 4 = 0)
  | some m =>
    let sz := if 12 ≤ fnat c.fltAddr 0 6 ∧ fnat c.fltAddr 0 6 ≤ 52 then fnat c.fltAddr 0 6 else 12
    (!bit ev 4 || bit c.fltSrc (privOf m))
    && (!bit ev 5 || decide (fnat c.fltSrc 4 6 = m.inXp.toNat))
    && (!bit ev 6 || (isRequest m.op && decide (m.dev.toNat / 2 ^ sz = c.fltAddr.toNat % 2 ^ 52 / 2 ^ sz)))
    && (!bit ev 7 || (bit c.fltClass m.mclass.toNat && bit c.fltClass (8 + m.sclass.toNat)))

/-- tele.cs.sample of an event (14, Registers). -/
def sampleOf (m : Option Msg) : BitVec 64 :=
  match m with
  | none => 0
  | some m => BitVec.ofNat 64 (m.binding.toNat + nb m.counted * 2 ^ 13 + m.inXp.toNat * 2 ^ 14
      + (m.dev.toNat / 2 ^ 12 % 2 ^ 40) * 2 ^ 24)

/-- Whether set b counts now: enabled, inside the armed window where it asks for one, and not stopped by an
overflow (R344, R345). -/
def counting (t : TeleState) (c : CSet) : Bool :=
  c.enable && !(c.freeze && c.ovf != 0)
  && (!c.win || match t.window with
      | none => false
      | some w => decide (w.start.toNat ≤ t.time.toNat ∧ t.time.toNat < w.start.toNat + w.length.toNat))

/-- One counter of a set after an event of code `code` that adds `n`, or, for LAT_OVER, 1 where the latency `n` reaches
the threshold: a carry out of bit 47 wraps and sets its bit in ovf, and keeps the event's identity where the set freezes (R344). -/
def countOne (code n : Nat) (m : Option Msg) (c : CSet) (k : Nat) : CSet :=
  let ev := tabGet 0 c.evsel k
  if fnat ev 0 4 = code ∧ code ≠ 0 ∧ passes c ev m then
    let v := (tabGet 0 c.cnt k).toNat + (if code = 7 then nb (decide (fnat ev 32 32 ≤ n)) else n)
    { c with cnt := tabSet 0 c.cnt k (BitVec.ofNat 48 v)
             ovf := if 2 ^ 48 ≤ v then c.ovf ||| (1#8 <<< k) else c.ovf
             sample := if 2 ^ 48 ≤ v ∧ c.freeze then sampleOf m else c.sample }
  else c

/-- Whether an overflow of counter k that this event caused raises the interrupt (R344). -/
def overflowIrq (old new : CSet) : Bool :=
  (List.range 8).any fun k => bit new.ovf k && !bit old.ovf k && bit (tabGet 0 new.evsel k) 8

/-! ## Binding counters and dumps (R346, R347) -/

/-- Ticks of a dump period (R347). -/
def dumpPeriod (s : State) : Nat := 2 ^ s.tele.dumpK.toNat * frameTicks

/-- The next dump boundary that has not been taken (R347). -/
def dumpBoundary (s : State) : Nat := multipleFrom (dumpPeriod s) s.tele.dumpFrom.toNat

/-- A counter of set b that selects STALL or OCCUPANCY counts up to the present: how many cycles the condition lasted, or how
many entries they held, is free; such an event carries no attribute, so that a filter stops it (R343; log entry 86). -/
def cycleOne (aon : BitVec 64) (b : Nat) (c : CSet) (k : Nat) : CSet :=
  let code := fnat (tabGet 0 c.evsel k) 0 4
  if code = 5 ∨ code = 8 then
    countOne code (Config.cycleEvents b code aon - Config.cycleEvents b code c.cycleAt).toNat none c k
  else c

/-- The counters of cycles of set b brought up to the present: they count while the set is enabled and no overflow stops it;
both planes run at 1.25 GHz (04), the other blocks' clocks are the implementation's (R342, R344). -/
def cycleSync (aon : BitVec 64) (b : Nat) (c : CSet) : CSet :=
  let f := if b = 56 ∨ b = 57 then 5 else Config.blockClock b
  if c.enable && !(c.freeze && c.ovf != 0) then
    let c1 := (List.range 8).foldl (cycleOne aon b) c
    { c1 with cycles := c.cycles + BitVec.ofNat 64 ((aon - c.cycleAt).toNat * f / 32), cycleAt := aon }
  else { c with cycleAt := aon }

/-- A staging slot lies in a lost stack: even slots in stack A, odd ones in stack B (15 R373, Table 15-4). -/
def stagingLost (s : State) (seq : Nat) : Bool := tabGet false s.xbar.stackLost (seq % 2)

/-- Before an event is counted: at or past a dump boundary that is still to be latched, and that is not skipped, the counters
are kept as they stand, and each lat_max starts again, since the event belongs to the next dump (R346, R347). -/
def dumpEdge (s : State) : State :=
  let t := s.tele
  if t.edge.isSome ∨ t.dumpK = 0 ∨ t.dumpWriting.isSome ∨ stagingLost s (t.dumpSeq.toNat + 1) ∨ now s < dumpBoundary s then s
  else { s with tele := { t with
      edge := some (t.bind, tabMap CSet.init (cycleSync s.aon) t.sets)
      bind := tabMap BindCnt.init (fun _ c => { c with latMax := 0 }) t.bind } }

/-- The binding counters at a completion (R346, Table 14-6). -/
def countCompletion (m : Msg) (err : Bool) (s : State) : State :=
  let s := dumpEdge s
  let b := m.binding.toNat
  let c := bindCnt s b
  let lat := s.tele.time - m.born
  setBindCnt b
    { c with rdBytes := if !err && m.op = .memRd then c.rdBytes + 64 else c.rdBytes
             wrBytes := if !err && isWrite m.op then c.wrBytes + 64 else c.wrBytes
             err := if err then c.err + 1 else c.err
             latSum := c.latSum + lat
             latMax := if c.latMax.toNat < lat.toNat then satAdd 0 lat.toNat else c.latMax } s

/-- A request counted at this switch is completed toward its requester: counters, migration phase, rule epoch
and outstanding count (R76, R83, R218, R346). -/
def retire (m : Msg) (err : Bool) (s : State) : State :=
  if m.counted then
    outstandingDown m.binding.toNat (epochLeave m.epoch (phaseDown m.phase (countCompletion m err s)))
  else s

/-- A request that is discarded without a completion leaves flight and its binding's count (R218). -/
def discardReq (m : Msg) (s : State) : State :=
  if m.counted then
    outstandingDown m.binding.toNat (epochLeave m.epoch (phaseDown m.phase s))
  else s

/-- The proxied access that a backing access of slice k at line sa serves leaves flight: its tracker or writeback slot
counts it no more (R218). -/
def discardProxied (k : Nat) (sa : BitVec 48) (s : State) : State :=
  let v := tabGet Slice.init s.proxy.slices k
  let off := fun (m : Msg) => { m with counted := false }
  let put := fun (v : Slice) => { s with proxy := { s.proxy with slices := tabSet Slice.init s.proxy.slices k v } }
  match v.trackers.find? fun t => decide (t.req.sa = sa) && decide (t.stage = .backing) && t.req.counted with
  | some t =>
    discardReq t.req (put { v with trackers := v.trackers.map fun u => if u = t then { u with req := off u.req } else u })
  | none =>
    match v.wbs.find? fun m => decide (m.sa = sa) && m.counted with
    | some m => discardReq m (put { v with wbs := v.wbs.map fun u => if u = m then off u else u })
    | none => s

/-- A message is discarded without completion inside the device (R97, R107, R129): what it belongs to leaves flight, a
request, a scribe line by its completion, a proxied access by its backing access (R218). -/
def discardMsg (m : Msg) (s : State) : State :=
  match m.req with
  | .slice k sa => if isRequest m.op || decide (m.mclass = 2) then discardProxied k.toNat sa s else s
  | _ => discardReq m s

/-! ## Completions -/

/-- The completion of a request: S2M DRS for a read, NDR Cmp for any other (Table 3-6). -/
def completionOp (o : Op) : Op := if o = .memRd then .memData else .cmp

/-- The completion message of request `m`: opcode, data and poison given. A scribe line's stays in its binding's count
until it returns to the engine (R218). Only requests are coloured (08 R192); a completion is green (log entry 61). -/
def completionMsg (m : Msg) (o : Op) (mv : MetaV) (data : BitVec 512) (poison : Bool) : Msg :=
  let line := match m.req with | .engine .. => true | _ => false
  { m with op := o, mv := mv, mclass := opClass o, data := data, mask := 0, len := opLen o, poison := poison, colour := .green,
           counted := m.counted && line, phase := if line then m.phase else none }

/-- A completion leaves toward its requester; one for a scribe line or a slice's own access waits there to be taken. In
safe-stop the data path has stopped, and none leaves (16 R385). -/
def sendTo (m : Msg) (err : Bool) (s : State) : State :=
  match m.req with
  | .host u => if s.fault.safeStop then s else emit (.host u m) s
  | .engine .. => { s with scribe := { s.scribe with back := s.scribe.back ++ [(m, err)] } }
  | .slice .. => { s with proxy := { s.proxy with back := s.proxy.back ++ [(m, err)] } }
  | .fabric xp f => if s.fault.safeStop then s else emit (.fabric xp f m) s
  | .device u => if s.fault.safeStop then s else emit (.host u m) s
  | .mgmt => s

/-- The error completion of Table 3-6: a read returns poison with undefined data, a free value; any other request
returns Cmp, a write's data being discarded. -/
def errorCompletion (m : Msg) (s : State) : State :=
  let c := if m.op = .memRd then completionMsg m .memData m.mv (freeVal 512 s) true
           else completionMsg m .cmp m.mv 0 false
  sendTo c true (if m.op = .memRd then tookFree s else s)

/-- A decoded request completes in error and leaves its binding's count. A scribe line leaves it when its completion
returns to the engine (R218). -/
def failRequest (m : Msg) (s : State) : State :=
  match m.req with
  | .engine .. => errorCompletion m s
  | _ => retire m true (errorCompletion m s)

/-! ## Counted events (R342 to R345) -/

/-- MSI-X vector v of the management function on every owner port, where the event interrupt is enabled (R324). -/
def mgmtIrq (v : Nat) (s : State) : State :=
  if s.mgmt.irqEn then
    emitAll (((List.range 96).filter fun u => bit s.boot.board.ownerMask u).map
      fun u => Emit.msix (BitVec.ofNat 7 u) (BitVec.ofNat 4 v)) s
  else s

/-- Set b stored: an overflow that it did not have fires vector 5 where its evsel asks for it (R344). -/
def storeCset (b : Nat) (c : CSet) (s : State) : State :=
  if overflowIrq (cset s b) c then mgmtIrq 5 (setCset b c s) else setCset b c s

/-- An event of code `code` at block b adds `n` to the counters that select it (R342). -/
def countEv (b code n : Nat) (m : Option Msg) (s : State) : State :=
  let c := cycleSync s.aon b (cset s b)
  if counting s.tele c then
    let s := dumpEdge s
    let c1 := (List.range 8).foldl (fun c k => countOne code n m c k) c
    let set := c1.ovf &&& ~~~ c.ovf
    let c' := if set = 0 then c1
      else { c1 with ovfNew := if c.ovfAt = s.tele.time then c.ovfNew ||| set else set, ovfAt := s.tele.time }
    storeCset b c' s
  else s

/-- A message enters block b: MSG_IN and BYTES_IN. -/
def countIn (b : Nat) (m : Msg) (s : State) : State :=
  countEv b 3 (m.len + 16) (some m) (countEv b 1 1 (some m) s)

/-- A message leaves block b: MSG_OUT and BYTES_OUT. -/
def countOut (b : Nat) (m : Msg) (s : State) : State :=
  countEv b 4 (m.len + 16) (some m) (countEv b 2 1 (some m) s)

/-- An error the block logs. -/
def countErr (b : Nat) (s : State) : State := countEv b 9 1 none s

/-- Counter set of the attachment at xp x: its port or its Weft link. -/
def setOfXp (x : Nat) : Nat := x

/-! ## Page heat map (R349, R350) -/

/-- Counter index of a compacted extent-space address: one counter per 64 KiB on FB, per 128 KiB on HB. -/
def heatIx (s : State) (sa : Nat) : Nat := sa / (if s.boot.hb then 2 ^ 17 else 2 ^ 16)

/-- Counter k lies in a lost stack: it reads 0 and its increments are dropped (15 R373, Table 15-4). -/
def heatLost (s : State) (k : Nat) : Bool := tabGet false s.xbar.stackLost (k / 2048 % 2)

/-- The first n pending increments of the coalescing cache go to their counters in HBM (R350). -/
def heatDrain (n : Nat) (s : State) : State :=
  let h := (s.tele.heatInc.take n).foldl (fun t p => tabSet 0 t p.1 (satAdd (tabGet 0 t p.1) p.2.toNat)) s.tele.heat
  { s with tele := { s.tele with heat := h, heatInc := s.tele.heatInc.drop n } }

/-- A sweep starts: pending increments reach their counters, and every counter is halved (R351). -/
def heatAge (s : State) : State :=
  let s1 := heatDrain s.tele.heatInc.length s
  { s1 with tele := { s1.tele with sweeping := true, heat := tabMap 0 (fun _ v => v >>> 1) s1.tele.heat } }

/-- The next multiple of the aging period that has not been taken (R351). -/
def ageInstant (s : State) : Nat := multipleFrom (s.tele.agePeriod.toNat * msTicks) s.tele.heatFrom.toNat

/-- Before an access is counted: at or past the start of a sweep that is still to come, the halving comes first, since the
access belongs to the next period (R351, Table 14-3). -/
def heatEdge (s : State) : State :=
  if s.tele.agePeriod = 0 ∨ s.tele.aged ∨ s.tele.sweeping ∨ now s < ageInstant s then s
  else
    let s1 := heatAge s
    { s1 with tele := { s1.tele with aged := true } }

/-- An access increments its heat counter through the coalescing cache; an increment that finds the cache of 64 Ki
counters full is dropped, and the first drop raises TELE-0x0022 (R350). When the cache writes pending increments back the
spec does not say: whether one has left a full cache by now is a free value (log entry 52). -/
def heatUp (sa : Nat) (s : State) : State :=
  if s.tele.heatOn then
    let s := heatEdge s
    let k := heatIx s sa
    let v := tabGet 0 s.tele.heatInc k
    if heatLost s k then { s with tele := { s.tele with heatDropped := satAdd s.tele.heatDropped 1 } }
    else if v = 0 ∧ 65536 ≤ s.tele.heatInc.length then
      let s0 := tookFree s
      if freeVal 1 s = 1 then
        let s1 := heatDrain 1 s0
        { s1 with tele := { s1.tele with heatInc := tabSet 0 s1.tele.heatInc k 1 } }
      else
        let s1 := { s0 with tele := { s0.tele with heatDropped := satAdd s.tele.heatDropped 1 } }
        if s.tele.heatDropped = 0 then raiseFree 18 0x22 (source 0 0) s1 else s1
    else { s with tele := { s.tele with heatInc := tabSet 0 s.tele.heatInc k (satAdd v 1) } }
  else s

/-! ## Header trace ring (R352, R353) -/

/-- A trace record of a message (Table 14-8); the body's 48 bytes are the message as stored, whose layout the
spec leaves to CXL: a free value (log entry 24). -/
def traceWord (t : TeleState) (m : Msg) (dst : Nat) (egress bound : Bool) (body : BitVec 384) : BitVec 512 :=
  BitVec.ofNat 512 (t.time.toNat % 2 ^ 48 + m.inXp.toNat * 2 ^ 48 + dst % 64 * 2 ^ 54 + m.mclass.toNat * 2 ^ 60
    + nb egress * 2 ^ 63 + m.sclass.toNat * 2 ^ 64
    + (match m.colour with | .green => 0 | .yellow => 1 | .red => 2) * 2 ^ 67
    + nb m.poison * 2 ^ 69 + nb bound * 2 ^ 70 + m.binding.toNat * 2 ^ 72 + m.feid.toNat * 2 ^ 88
    + t.traceWritten.toNat % 2 ^ 24 * 2 ^ 104 + body.toNat * 2 ^ 128)

/-- One record written into the ring; in mode 1 recording stops when the ring is full, and after stop_fault when
its post_records are written, a STOPPED record then closing the recording (R352). -/
def traceWrite (w : BitVec 512) (t : TeleState) : TeleState :=
  if t.traceStopped then t
  else
    let t1 := { t with ring := tabSet 0 t.ring (t.traceWritten.toNat % ringSlots t) w,
                       traceWritten := t.traceWritten + 1 }
    let full := decide (t.traceMode = 1 ∧ ringSlots t ≤ t1.traceWritten.toNat)
    match t.traceLeft with
    | none => { t1 with traceStopped := full }
    | some k =>
      if k ≤ 1 then
        { t1 with traceLeft := some 0, traceStopped := true,
                  ring := tabSet 0 t1.ring (t1.traceWritten.toNat % ringSlots t) (traceMark t1 2 t.traceStop),
                  traceWritten := t1.traceWritten + 1 }
      else { t1 with traceLeft := some (k - 1), traceStopped := full }

/-- Whether a message meets the trace conditions at a point (R352). -/
def traced (s : State) (m : Msg) (bound : Bool) (dst : Nat) (egress : Bool) : Bool :=
  let t := s.tele
  t.traceOn && !t.traceStopped && bit t.tracePoints (nb egress)
  && ((bound && ctxTrace (ctx s m.binding.toNat)) || bit t.traceXps m.inXp.toNat || bit t.traceXps dst)
  && bit t.traceClasses m.mclass.toNat
  && decide (t.traceStart.toNat ≤ t.time.toNat)
  && (decide (t.traceLength = 0) || decide (t.time.toNat < t.traceStart.toNat + t.traceLength.toNat))

/-- A trace record that cannot be written is dropped and counted; the first drop of each enable raises
TELE-0x0021 (R353). -/
def traceDrop (s : State) : State :=
  let s1 := { s with tele := { s.tele with traceDropped := satAdd s.tele.traceDropped 1,
                                           traceGap := satAdd s.tele.traceGap 1, traceRaised := true } }
  if s.tele.traceRaised then s1 else raiseFree 18 0x21 (source 0 0) s1

/-- Whether the ring takes no record now: less than 4 ns, 32 ticks, after the last one (R353). -/
def traceFull (t : TeleState) : Bool :=
  match t.traceAt with
  | none => false
  | some a => decide (t.time.toNat < a.toNat + 32)

/-- A message meeting the trace conditions is recorded; records dropped before it are named by a DROP record
first (R352, R353). -/
def trace (m : Msg) (bound : Bool) (dst : Nat) (egress : Bool) (s : State) : State :=
  if traced s m bound dst egress then
    if traceFull s.tele then traceDrop s
    else
      let t1 := if s.tele.traceGap = 0 then s.tele
                else { traceWrite (traceMark s.tele 1 s.tele.traceGap) s.tele with traceGap := 0 }
      let t2 := traceWrite (traceWord t1 m dst egress bound (freeVal 384 s)) t1
      tookFree { s with tele := { t2 with traceAt := some s.tele.time } }
  else s

end Sys2Proof.Machine
end

