-- ==== Sys2Proof/Machine/Clock.lean ====
section
/-! DEFINITION. One tick of the clocks, which is what the block does while no command waits (log entry 1). -/

namespace Sys2Proof.Machine

open Sys2Proof

/-- Firmware increments mgmt.fw_status.heartbeat at least once per ms while RUNNING (13, Registers): in which ticks is
free (log entry 1). -/
def beat (s : State) : State :=
  if s.mgmt.fw = .running then
    { tookFree s with mgmt := { s.mgmt with heartbeat := s.mgmt.heartbeat + (freeVal 1 s).setWidth 32 } }
  else s

/-- Fabric time and the always-on clock count one tick of 125 ps (14 R332); a device held in cold reset counts nothing
(21 R494). -/
def tick (s : State) : State := if s.boot.held then s else beat (elapse 1 s)

end Sys2Proof.Machine
end

