-- ==== Sys2Proof/Machine/PowerOps.lean ====
section
/-! DEFINITION. Shared operations of the PMU: groups, aborting a staged entry, starting an exit (Power Domains and
Low-Power States). -/

namespace Sys2Proof.Machine

open Sys2Proof

/-- Group of a domain (Table 17-1). -/
def groupOf (d : Nat) : Nat :=
  if d < 104 then 0 else if d < 152 then 1 else if d < 160 then 2 else if d < 168 then 3 else if d < 170 then 4
  else if d < 186 then 5 else if d < 190 then 6 else if d = 190 then 7 else if d < 199 then 8 else if d < 215 then 9
  else if d < 217 then 10 else if d = 217 then 11 else if d = 218 then 12 else 13

/-- pmu.last_abort of an abort (17, Registers): target, stage, refusing domain, cause and stamp. -/
def abortWord (target stage dom cause : Nat) (st : BitVec 48) : BitVec 64 :=
  BitVec.ofNat 64 (target % 4 + stage % 16 * 4 + dom % 256 * 64 + cause % 4 * 2 ^ 14 + st.toNat * 2 ^ 16)

/-- DOZE or STANDBY, as pmu.state numbers the target of the entry in progress. -/
def entryTarget (p : PmuState) : Nat := if p.toStandby then 2 else 1

/-- A group's multiplier doubles, up to 64, and its refusals count (R404). -/
def doubleMult (g : Nat) (s : State) : State :=
  let m := (tabGet 1 s.pmu.mult g).toNat
  { s with pmu := { s.pmu with
      mult := tabSet 1 s.pmu.mult g (BitVec.ofNat 7 (min 64 (2 * m)))
      aborts := tabSet 0 s.pmu.aborts g (satAdd (tabGet 0 s.pmu.aborts g) 1) } }

/-- Domains whose SRAM is retained in DOZE: the heddle domains and the control domain (Table 17-3). -/
def retained (d : Nat) : Bool := decide (186 ≤ d ∧ d ≤ 190)

/-- Rail r. -/
def railOf (s : State) (r : Nat) : Rail := tabGet Rail.init s.pmu.rails r
/-- The state with rail r replaced. -/
def setRail (r : Nat) (v : Rail) (s : State) : State :=
  { s with pmu := { s.pmu with rails := tabSet Rail.init s.pmu.rails r v } }

/-- A Voltage write-and-commit: rail r is driven to `mv` and its VDone awaited (R413). -/
def railStart (r : Nat) (mv : BitVec 16) (s : State) : State :=
  setRail r { railOf s r with target := mv, vdone := false, change := some (s.tele.time, 0), failed := false,
                              enable := true } s

/-- Rail r stands at its RUN target with no change under way. -/
def railUp (s : State) (r : Nat) : Bool :=
  decide ((railOf s r).target = Config.fusedMv r) && (railOf s r).change.isNone

/-- A plane's reset or restore begins: it is in TEST from then on, unless its last check failed (04 R112). -/
def planeTest (n : Nat) (s : State) : State :=
  let p := plane s n
  if p.st = .down ∧ p.checkFail = false ∨ p.st = .up then setPlane n { p with st := .test } s else s

/-- A domain's restore begins, unless it is ON, under way or dead. -/
def restore (d : Nat) (s : State) : State :=
  let v := domain s d
  if v.st = .on ∨ v.step ≠ 0 ∨ v.dead then s
  else
    let s1 := setDomain d { v with step := 1, fromRet := decide (v.st = .ret), misses := 0, wakes := v.wakes + 1,
                                   lastUse := s.tele.time } s
    if groupOf d = 6 ∧ v.st = .ret then { s1 with plan := { s1.plan with pageCache := [] } }
    else if groupOf d = 4 then planeTest (d - 168) s1 else s1

/-- Groups in the reverse of the stage order of Table 17-5 (R407). -/
def rollOrder : List (List Nat) := [[10], [0, 3], [6], [7], [4], [5], [1, 2], [8], [13], [11], [9]]

/-- A domain was ON before the entry that was aborted, and is not back. -/
def rollsBack (s : State) (d : Nat) : Bool :=
  decide (tabGet .on s.pmu.before d = .on) && decide ((domain s d).st ≠ .on) && !(domain s d).dead

/-- The rollback of an aborted entry goes on with the next groups' restores, or is complete (R404, R407). -/
def rollNext (s : State) : State :=
  if s.pmu.rolling then
    match rollOrder.find? fun gs => (List.range 220).any fun d => gs.contains (groupOf d) && rollsBack s d with
    | none => { s with pmu := { s.pmu with rolling := false, before := [] } }
    | some gs =>
      ((List.range 220).filter fun d => gs.contains (groupOf d) && rollsBack s d).foldl (fun s d => restore d s) s
  else s

/-- A domain that was below ON before an aborted entry is back in its state, which lies no lower (R404). -/
def rolledBack (was : DomSt) (v : Domain) : Domain :=
  if was = .on ∨ v.st = was ∨ v.step ≠ 0 then v else { v with st := was }

/-- Domains and rails are rolled back: the rails at once (log entry 30), the domains by the restore order (R404). -/
def rollBack (s : State) : State :=
  let s1 := (List.range 220).foldl (fun s d => setDomain d (rolledBack (tabGet .on s.pmu.before d) (domain s d)) s) s
  let s2 := (List.range 4).foldl (fun s r =>
    if railUp s r then s
    else setRail r { railOf s r with target := Config.fusedMv r, vdone := true, change := none, failed := false,
                                     enable := true } s) s1
  rollNext { s2 with pmu := { s2.pmu with entering := false, stage := 0, rolling := true, ticket := none, stage12 := none,
                                          stage12Ticket := none, departAsked := false } }

/-- A staged entry aborts: every domain already stopped returns to the state it held when the attempt began, the abort
is recorded, PMU-0x0001 raised and the POWER_STATE_SET answered with ENTRY_ABORTED (R404, R405; log entry 30).
Cause 0 REFUSE with the refusing domain, 1 WAKE, 2 AVS. -/
def abortEntry (cause dom : Nat) (s : State) : State :=
  if s.pmu.entering then
    let w := abortWord (entryTarget s.pmu) s.pmu.stage.toNat dom cause (stamp s)
    let s0 := rollBack s
    let s1 := { s0 with pmu := { s0.pmu with lastAbort := w } }
    let s2 := if cause = 0 then doubleMult (groupOf dom) s1 else s1
    let s3 := raiseFree 16 1 (source 0 0) s2
    match s.pmu.ticket with
    | none => s3
    | some t => finishTicket t { status := 0x0C02, detail := 0, payload := wBytes 8 w } s3
  else s

/-- Device state as pmu.state numbers it. -/
def devNum (d : DevSt) : Nat :=
  match d with
  | .run => 0 | .doze => 1 | .standby => 2 | .safeStop => 3

/-- Exit from DOZE begins with VSRAM and VLANE together (Table 17-7). -/
def exitRails (s : State) : State :=
  if s.pmu.st = .doze then railStart 2 (Config.fusedMv 2) (railStart 1 (Config.fusedMv 1) s) else s

/-- A wake source arrives (R405, R415, R416): during entry it aborts the entry; in DOZE or STANDBY it starts the exit
and writes pmu.last_wake. A source not set in pmu.wake_mask does nothing. -/
def wakeBy (src index : Nat) (s : State) : State :=
  if bit s.pmu.sources src = false then s
  else if s.pmu.entering then abortEntry 1 0xFF s
  else if (s.pmu.st = .doze ∨ s.pmu.st = .standby) ∧ s.pmu.exiting = false then
    exitRails { s with pmu := { s.pmu with
        exiting := true, exitFailed := false
        lastWake := BitVec.ofNat 64 (src % 16 + index % 64 * 16 + devNum s.pmu.st * 2 ^ 10
          + (stamp s).toNat * 2 ^ 16) } }
  else s

end Sys2Proof.Machine
end

