-- ==== Sys2Proof/Machine/MemOps.lean ====
section
/-! DEFINITION. Shared operations of memory integrity: corrections, the repeat tracker, spares and uncorrectable reads
(Memory Integrity: ECC, Scrub and Remap). -/

namespace Sys2Proof.Machine

open Sys2Proof

/-! ## Words and types -/

/-- Memory type t. -/
def memType (s : State) (t : Nat) : MemType := tabGet MemType.init s.mem.types t
/-- The state with memory type t replaced. -/
def setMemType (t : Nat) (m : MemType) (s : State) : State :=
  { s with mem := { s.mem with types := tabSet MemType.init s.mem.types t m } }
/-- HBM stack k. -/
def stackOf (s : State) (k : Nat) : Stack := tabGet Stack.init s.mem.stks k
/-- The state with HBM stack k replaced. -/
def setStack (k : Nat) (v : Stack) (s : State) : State :=
  { s with mem := { s.mem with stks := tabSet Stack.init s.mem.stks k v } }

/-- A MEM fault naming a word of type t (R505). -/
def memFault (c t : Nat) (word : BitVec 64) (s : State) : State := raise 12 c (source 11 t) word s

/-- Array of an SRAM word, or pseudo-channel of an HBM word (R505). -/
def wordUnit (w : BitVec 64) : Nat := fnat w 52 12
/-- Address of a word within its array or stack. -/
def wordAddr (w : BitVec 64) : Nat := fnat w 0 52
/-- An HBM type. -/
def isHbm (t : Nat) : Bool := decide (t = 8 ∨ t = 9)
/-- Bank and row of an HBM word. -/
def rowOf (w : BitVec 64) : Nat × Nat := ((Config.hbmPlace (wordAddr w)).1, (Config.hbmPlace (wordAddr w)).2.1)

/-! ## Spares and remap (R361 to R364) -/

/-- Spare words of an array or pseudo-channel. -/
def spareCap (t : Nat) : Nat := if isHbm t then 64 else 16

/-- Lowest spare of a unit that no word has taken. -/
def freeSpare (m : MemType) (t unit : Nat) : Option Nat :=
  (List.range (spareCap t)).find? fun k => !(m.spares.any fun p => wordUnit p.1 == unit && p.2 == k)

/-- A remap log record: its 28 bytes and their CRC-32 (20 Table 20-11). -/
def logRecord (body : List Byte) : BitVec 256 := BitVec.ofNat 256 (leNat (body ++ wBytes 4 (crc32 body)))

/-- The HEADER record of a half of the remap log (20 R472). -/
def remapHeader (s : State) (gen : BitVec 32) : BitVec 256 :=
  logRecord (wBytes 8 s.boot.serial ++ zeros 12 ++ wBytes 4 gen ++ zeros 4)

/-- A WORD (kind 1) or ROW (kind 2) record. -/
def remapRecord (s : State) (kind k pch bank row word spare : Nat) : BitVec 256 :=
  logRecord (wBytes 8 s.boot.serial ++ leBytes 1 kind ++ leBytes 1 k ++ leBytes 1 pch ++ leBytes 1 bank ++ leBytes 4 row
    ++ leBytes 2 word ++ leBytes 2 spare ++ zeros 8)

/-- The WORD record of a hard word of stack k and its spare. -/
def wordRecord (s : State) (k : Nat) (w : BitVec 64) (spare : Nat) : BitVec 256 :=
  let p := Config.hbmPlace (wordAddr w)
  remapRecord s 1 k (wordUnit w) p.1 p.2.1 p.2.2 spare

/-- The ROW record of a row of stack k: unit, bank, row and spare row. -/
def rowRecord (s : State) (k : Nat) (r : Nat × Nat × Nat × Nat) : BitVec 256 :=
  remapRecord s 2 k r.1 r.2.1 r.2.2.1 0 r.2.2.2

/-- Hard words of an HBM row among the spare words in use. -/
def rowHard (m : MemType) (w : BitVec 64) : Nat :=
  (((m.spares.filter fun p => decide (wordUnit p.1 = wordUnit w) && decide (rowOf p.1 = rowOf w)).map (·.1)).dedup).length

/-- Lowest of the 8 spare rows of a bank that no row has taken. -/
def freeRow (m : MemType) (unit bank : Nat) : Option Nat :=
  (List.range 8).find? fun k =>
    !((m.rows ++ m.rowCopies).any fun r => r.1 == unit && r.2.1 == bank && r.2.2.2 == k)

/-- The third hard word of a row: the row is mapped to a free spare row of its bank, and its copy begins, unless one runs
already (R362). -/
def rowCheck (t : Nat) (w : BitVec 64) (s : State) : State :=
  let m := memType s t
  let b := (rowOf w).1
  if isHbm t ∧ 3 ≤ rowHard m w ∧ !(m.rowCopies.any fun r => decide (r.1 = wordUnit w ∧ (r.2.1, r.2.2.1) = rowOf w)) then
    match freeRow m (wordUnit w) b with
    | none => s
    | some k =>
      let r := (wordUnit w, b, (rowOf w).2, k)
      let s1 := setMemType t { m with rowCopies := m.rowCopies ++ [r] } s
      { s1 with mem := { s1.mem with remapDue := s1.mem.remapDue ++ [rowRecord s (t - 8) r] } }
  else s

/-- A hard word takes the lowest free spare of its array or pseudo-channel; with none left it stays under correction,
its tracker entry pinned, and MEM-0x0012 is raised (R361 to R363). -/
def spareWord (t : Nat) (w : BitVec 64) (s : State) : State :=
  let m := memType s t
  match freeSpare m t (wordUnit w) with
  | some k =>
    let s1 := setMemType t { m with spares := m.spares ++ [(w, k)], used := satAdd m.used 1 } s
    let s2 := if isHbm t then
        let v := stackOf s1 (t - 8)
        setStack (t - 8) { v with words := satAdd v.words 1 }
          { s1 with mem := { s1.mem with remapDue := s1.mem.remapDue ++ [wordRecord s (t - 8) w k] } }
      else s1
    rowCheck t w s2
  | none =>
    memFault 0x12 t w (setMemType t { m with
      exhausted := satAdd m.exhausted 1
      tracker := m.tracker ++ [{ word := w, start := s.tele.time, pinned := true }] } s)

/-- A word is classed as hard (R360). -/
def hardWord (t : Nat) (w : BitVec 64) (s : State) : State :=
  let m := memType s t
  spareWord t w (memFault 0x10 t w (setMemType t
    { m with hard := satAdd m.hard 1, lastHard := w, lastHardStamp := stamp s } s))

/-! ## The repeat tracker (R359) -/

/-- Ticks of the 24 h window. -/
def repeatWindow : Nat := 691200000000000

/-- Oldest unpinned entry of a tracker. -/
def oldest (l : List Tracked) : Option Tracked :=
  let u := l.filter fun e => !e.pinned
  u.find? fun e => u.all fun f => decide (e.start.toNat ≤ f.start.toNat)

/-- An error at a word enters the tracker, or finds its entry (R359, R363). -/
def track (t : Nat) (w : BitVec 64) (s : State) : State :=
  let m := memType s t
  let fresh : Tracked := { word := w, start := s.tele.time, pinned := false }
  match m.tracker.find? fun e => decide (e.word = w) with
  | some e =>
    if e.pinned then s
    else if e.start.toNat ≤ now s ∧ now s < e.start.toNat + repeatWindow then
      hardWord t w (setMemType t { m with tracker := m.tracker.filter fun x => !decide (x.word = w) } s)
    else setMemType t { m with tracker := m.tracker.map fun x => if x.word = w then fresh else x } s
  | none =>
    if m.tracker.length < 64 then setMemType t { m with tracker := m.tracker ++ [fresh] } s
    else
      match oldest m.tracker with
      | none => raise 12 0x11 (source 11 t) 0 s
      | some e =>
        raise 12 0x11 (source 11 t) 0 (setMemType t { m with
          tracker := m.tracker.filter (fun x => !decide (x = e)) ++ [fresh]
          evictions := satAdd m.evictions 1 } s)

/-- The word is pinned in its tracker (R363). -/
def pinned (m : MemType) (w : BitVec 64) : Bool := m.tracker.any fun e => decide (e.word = w) && e.pinned

/-! ## Reads (R357, R358, R366) -/

/-- A list of words without one of them. -/
def gone (w : BitVec 64) (l : List (BitVec 64)) : List (BitVec 64) := l.filter fun x => !decide (x = w)

/-- A corrected read (R357, R358): counted, reported and tracked, but not again while a write-back of the word is
pending; corrections of a pinned word count apart (R363). An injected word is reported as injected and not tracked; the
write-back, in SRAM part of the access, writes it again (R388; log entry 41). -/
def corrected (t : Nat) (w : BitVec 64) (s : State) : State :=
  let m := memType s t
  if m.writebacks.contains w then s
  else
    let m1 := { m with corrected := m.corrected + 1,
                       writebacks := if isHbm t then m.writebacks ++ [w] else m.writebacks }
    if m.injected.contains w then
      raiseWith true 12 1 (source 11 t) w (setMemType t (if isHbm t then m1 else { m1 with injected := gone w m.injected }) s)
    else if pinned m w then setMemType t { m1 with exhaustedHits := satAdd m.exhaustedHits 1 } s
    else track t w (memFault 1 t w (setMemType t m1 s))

/-- Pseudo-channels of a stack with an uncorrectable error less than 100 µs ago (R372). -/
def ueSpread (v : Stack) (t : Nat) : Nat :=
  ((v.ues.filter fun e => decide (t < e.2.toNat + 100 * usTicks)).map (·.1)).dedup.length

/-- An uncorrectable read (R366): counted, reported and tracked; the word stays bad until its owner writes it (R359). An
injected word is reported as injected and not tracked (R388). -/
def memUe (t : Nat) (w : BitVec 64) (s : State) : State :=
  let m := memType s t
  let s1 := setMemType t { m with ue := satAdd m.ue 1, bad := if m.bad.contains w then m.bad else m.bad ++ [w] } s
  let s2 := if isHbm t then
      let v := stackOf s1 (t - 8)
      setStack (t - 8) { v with
        ues := (v.ues.filter fun e => decide (now s < e.2.toNat + 100 * usTicks)) ++ [(wordUnit w, s.tele.time)] } s1
    else s1
  if m.injected.contains w then raiseWith true 12 0x20 (source 11 t) w s2 else track t w (memFault 0x20 t w s2)

/-- A read of memory type t with the outcome of its check. -/
def memRead (t : Nat) (e : Ecc) (s : State) : State :=
  match e with
  | .ok => s
  | .corrected w => corrected t w s
  | .ue w => memUe t w s

/-! ## Words of the on-die tables (R366, R370, Table 15-3) -/

/-- Words of memory type 0, found uncorrectable, that belong to entry i of table t. -/
def tableWords (s : State) (t i : Nat) : List (BitVec 64) :=
  (memType s 0).bad.filter fun w => decide (Config.tableEntry w = some (t, i))

/-- A read of entry i of on-die table t fails: an earlier read or the scrubber has found a word of it uncorrectable. -/
def tableBad (s : State) (t i : Nat) : Bool :=
  (s.plan.badWords.any fun p => decide (p.1 = (t, i))) || !(tableWords s t i).isEmpty

/-- A read meets entry i of table t uncorrectable: the words the scrubber found, or word `w` now; the entry waits for its
reload (R366, R370). -/
def tableUe (t i : Nat) (w : BitVec 64) (s : State) : State :=
  if s.plan.badWords.any fun p => decide (p.1 = (t, i)) then s
  else
    let ws := match tableWords s t i with | [] => [w] | l => l
    ws.foldl (fun s w => memUe 0 w { s with plan := { s.plan with badWords := s.plan.badWords ++ [((t, i), w)] } }) s

/-- Entry i of table t is good again: reloaded, or its line dropped. -/
def tableMend (t i : Nat) (s : State) : State :=
  let mine := fun (w : BitVec 64) => decide (Config.tableEntry w = some (t, i))
    || s.plan.badWords.any fun p => decide (p = ((t, i), w))
  let m := memType s 0
  let s1 := setMemType 0 { m with bad := m.bad.filter fun w => !mine w } s
  { s1 with plan := { s1.plan with badWords := s1.plan.badWords.filter fun p => !decide (p.1 = (t, i)) } }

/-- The banks of every table change places or are written afresh: nothing read in them before is known bad (02 R48). -/
def tablesFresh (s : State) : State :=
  let m := memType s 0
  let s1 := setMemType 0 { m with bad := m.bad.filter fun w => (Config.tableEntry w).isNone } s
  { s1 with plan := { s1.plan with badWords := [] } }

/-- The check failed. -/
def eccBad (e : Ecc) : Bool :=
  match e with
  | .ue _ => true
  | _ => false

end Sys2Proof.Machine
end

