-- ==== Sys2Proof/Machine/Staging.lean ====
section
/-! DEFINITION. The output side of the crossbar: an output's service-class timers, its resequencers and its egress staging
(Warp Crossbar R96, R97, R102, R106, R107; Shared Cell Buffer R506). -/

namespace Sys2Proof.Machine

open Sys2Proof

/-! ## An output's queues and their timers (R102) -/

/-- Whether output x's staging holds a message of service class sc. -/
def classHolds (o : Output) (sc : Nat) : Bool :=
  o.staging.any fun e => e.2.any fun m => decide (m.msg.sclass.toNat = sc)

/-- The timer of an output's service-class queue starts when the queue gets a cell (R102). -/
def outWake (x sc : Nat) (s : State) : State :=
  let o := output s x
  let g := tabGet Starve.init o.starve sc
  match g.since with
  | some _ => s
  | none => setOutput x { o with starve := tabSet Starve.init o.starve sc { g with since := some s.tele.time } } s

/-- A queue that holds no cell runs no timer and is not urgent; a promotion that ends so counts (R102). -/
def outSettle (x sc : Nat) (s : State) : State :=
  let o := output s x
  if classHolds o sc then s
  else
    let n := if 0 < (tabGet Starve.init o.starve sc).urgent then 1 else 0
    setOutput x { o with starve := tabSet Starve.init o.starve sc Starve.init, promoteOut := o.promoteOut + BitVec.ofNat 32 n } s

/-! ## The resequencer and egress staging (R96, R97, R106, R107) -/

/-- A seq that lies behind the next one to be released. -/
def released (want seq : BitVec 12) : Bool := decide (2048 ≤ (seq - want).toNat)

/-- A message of the cell's queue that a first cell finds incomplete: the rest of it was discarded (05 R124, R133,
R134). -/
def cutShort (c : ECell) (m : EMsg) : Bool :=
  decide (m.msg.inXp = c.msg.inXp) && decide (m.msg.sclass = c.msg.sclass) && decide (m.got < m.total)

/-- The staging list of a class with one more cell. -/
def stageCell (c : ECell) (l : List EMsg) : List EMsg :=
  if c.idx = 0 then
    (l.filter fun m => !cutShort c m) ++ [{ msg := c.msg, got := 1, total := c.total, stamp := c.stamp, poison := c.poison, bad := c.bad }]
  else if l.any (fun m => decide (m.msg = c.msg) && decide (m.got = c.idx)) then
    l.map fun m => if m.msg = c.msg ∧ m.got = c.idx then
        { m with got := m.got + 1, poison := m.poison || c.poison, bad := m.bad || c.bad } else m
  else l

/-- Messages of a staging list that are whole and bad. -/
def badWhole (l : List EMsg) : List EMsg := l.filter fun m => m.bad && decide (m.got = m.total)

/-- A cell leaves the resequencer for output x's staging; a message that has lost a cell is discarded when its last cell
arrives (R97, R107), and a purged cell leaves nothing there (05 R124). -/
def release (x : Nat) (c : ECell) (s : State) : State :=
  if c.skip then s
  else
    let mc := c.msg.mclass.toNat
    let o := output s x
    let l := stageCell c (tabGet [] o.staging mc)
    let gone := badWhole l
    let keep := l.filter fun m => !(m.bad && decide (m.got = m.total))
    let s1 := outWake x c.msg.sclass.toNat (setOutput x { o with staging := tabSet [] o.staging mc keep } s)
    outSettle x c.msg.sclass.toNat (gone.foldl (fun s m => discardMsg m.msg s) s1)

/-- Cells of pair (i, x) leave the resequencer in seq order, `n` of them at most (R96). -/
def releaseRun (i x : Nat) : Nat → State → State
  | 0, s => s
  | n + 1, s =>
    let p := pair s (pairIx i x)
    match p.reseq.find? fun c => decide (c.1 = p.wantSeq) with
    | none => s
    | some c =>
      releaseRun i x n (release x c.2 (setPair (pairIx i x)
        { p with wantSeq := p.wantSeq + 1, reseq := p.reseq.filter fun d => !decide (d.1 = c.1) } s))

/-- A cell, or the mark of a lost one, enters the resequencer of pair (i, x); one that was released before, or waits there
already, is discarded (R97). -/
def reseqIn (i x : Nat) (seq : BitVec 12) (c : ECell) (s : State) : State :=
  let p := pair s (pairIx i x)
  if released p.wantSeq seq || p.reseq.any (fun d => decide (d.1 = seq)) then s
  else releaseRun i x (p.reseq.length + 1) (setPair (pairIx i x) { p with reseq := p.reseq ++ [(seq, c)] } s)

/-- The cell of an unacknowledged entry as it enters a resequencer. -/
def ecellOf (u : Unacked) (poison bad : Bool) : ECell :=
  { msg := u.msg, idx := u.idx, total := u.total, stamp := u.stamp, urg := u.urg, poison := poison, bad := bad, skip := false }

/-! ## The egress transmitter (R205, R102, R103) -/

/-- Number of the crossbar clock at tick t: a cell time (R95). -/
def cellClock (t : Nat) : Nat := t * 10 / 64

/-- The queue was promoted in the clock of this send: the send wins, and there was no promotion (R103). -/
def sendWins (g : Starve) (t : Nat) : Bool := decide (g.urgent = 4) && decide (cellClock g.promoted.toNat = cellClock t)

/-- `a` put into a list sorted by a key, before the first element whose key is not smaller. -/
def insertByKey (key : Nat → Nat) (a : Nat) : List Nat → List Nat
  | [] => [a]
  | b :: l => if key a ≤ key b then a :: b :: l else b :: insertByKey key a l

/-- A list sorted by a key, elements of one key in the list's order. -/
def sortByKey (key : Nat → Nat) : List Nat → List Nat
  | [] => []
  | a :: l => insertByKey key a (sortByKey key l)

/-- Service classes of output x in the order the transmitter looks at them: promoted queues in order of promotion, then
by rank from 7 down (R205). -/
def classOrder (s : State) (x : Nat) : List Nat :=
  let st := fun c => tabGet Starve.init (output s x).starve c
  let up := (List.range 8).filter fun c => decide (0 < (st c).urgent)
  let first := sortByKey (fun c => (st c).order) up
  first ++ (List.range 8).filterMap fun j =>
    (List.range 8).find? fun c => decide (txRank (traf s (8192 + x)) c = 7 - j)

/-- Head of an output's queue of a service class and a message class: its first whole message, one of which a cell has not
come taking no turn (R106, R205; log entry 119). -/
def stagedHead (o : Output) (sc mc : Nat) : Option EMsg :=
  (tabGet [] o.staging mc).find? fun m => decide (m.msg.sclass.toNat = sc) && decide (m.got = m.total)

/-- The next message of output x: the head of the first queue, in the transmitter's order, whose head may go: service
class, message class and message (R205). -/
def pickStaged (s : State) (x : Nat) (can : Msg → Bool) : Option (Nat × Nat × EMsg) :=
  let o := output s x
  (classOrder s x).findSome? fun sc =>
    (List.range 8).findSome? fun j =>
      let mc := ((tabGet 7 o.lastClass sc).toNat + 1 + j) % 8
      match stagedHead o sc mc with
      | none => none
      | some m => if can m.msg then some (sc, mc, m) else none

/-- A message leaves output x's staging: class last served, the queue's starvation timer restarted, and its cells taken
from a promotion's quantum, which counts as it ends (R102, R205); while the output is RESUMING, one message less stands
before the held cells (05 R122). -/
def takeStaged (x sc mc : Nat) (m : EMsg) (s : State) : State :=
  let o := output s x
  let o1 := { o with staging := tabSet [] o.staging mc ((tabGet [] o.staging mc).erase m)
                     lastClass := tabSet 7 o.lastClass sc (BitVec.ofNat 3 mc), stagedMark := o.stagedMark - 1 }
  let g0 := tabGet Starve.init o.starve sc
  let g := if sendWins g0 (now s) then { g0 with urgent := 0 } else g0
  let empty := !classHolds o1 sc
  let left := if empty then 0 else g.urgent - m.total
  let g1 : Starve := { since := if empty then none else some s.tele.time, urgent := left,
                       order := if left = 0 then 0 else g.order, promoted := if left = 0 then 0 else g.promoted }
  let n := if 0 < g.urgent ∧ left = 0 then 1 else 0
  setOutput x { o1 with starve := tabSet Starve.init o1.starve sc g1, promoteOut := o1.promoteOut + BitVec.ofNat 32 n } s

/-- The next whole message of class mc in output x's staging that `p` names, as the transmitter picks it (R205). -/
def stagedFirst (s : State) (x mc : Nat) (p : Msg → Bool) : Option EMsg :=
  (pickStaged s x fun m => decide (m.mclass.toNat = mc) && p m).map fun e => e.2.2

/-- A staged message is taken by the block at xp x. -/
def unstage (x : Nat) (m : EMsg) (s : State) : State := takeStaged x m.msg.sclass.toNat m.msg.mclass.toNat m s

/-- A staged message as delivered: poisoned where a cell of it was (R107). -/
def delivered (m : EMsg) : Msg := { m.msg with poison := m.msg.poison || m.poison }

end Sys2Proof.Machine
end

