-- ==== Sys2Proof/Machine/Buffer.lean ====
section
/-! DEFINITION. Shared operations of the cell buffer and the reservoir: admission, queues, holding, purging and
resuming (Shared Cell Buffer and Reservoir). -/

namespace Sys2Proof.Machine

open Sys2Proof

/-! ## Ports and outputs -/

/-- PORT record of port p in force: the plan's once one is active, else the board table's (10 R228). -/
def portRec (s : State) (p : Nat) : BitVec 256 :=
  if s.plan.hasPlan then tabGet 0 s.plan.active.port p else tabGet 0 s.boot.board.port p
/-- mode: 0 DISABLED, 1 X8, 2 SPLIT, 3 GANG. -/
def prMode (r : BitVec 256) : Nat := fnat r 0 8
/-- role[h]: 0 DISABLED, 1 USP, 2 DSP, 3 PBR. -/
def prRole (r : BitVec 256) (h : Nat) : Nat := fnat r (8 + 8 * h) 8
/-- max_rate. -/
def prRate (r : BitVec 256) : Nat := fnat r 24 8
/-- flags, bit i. -/
def prFlag (r : BitVec 256) (i : Nat) : Bool := bit r (32 + i)
/-- slot[h]; 0xFF for none. -/
def prSlot (r : BitVec 256) (h : Nat) : Nat := fnat r (48 + 8 * h) 8
/-- down_detect_us. -/
def prDetect (r : BitVec 256) : Nat := fnat r 64 16
/-- tag_timeout_ms. -/
def prTagMs (r : BitVec 256) : Nat := fnat r 80 16

/-- The xp whose VOQs hold the cells for an xp: a ganged pair queues at its even port (R94). -/
def queueXp (s : State) (x : Nat) : Nat :=
  if x < 48 ∧ x % 2 = 1 ∧ prMode (portRec s x) = 3 then x - 1 else x

/-- Logical port that a message for xp x leaves on: the half its route entry names, the even port of a gang. -/
def egressPort (s : State) (x feid : Nat) : Nat :=
  let p := queueXp s x
  2 * p + (if prMode (portRec s p) = 2 then rtHalf (route s feid) else 0)

/-- The FEID whose route's egress half directs a message that leaves: its own, or the requester's of a completion, for all
that a route directs; none for what the virtual switch directs or a requester here gets back (R61, R74). -/
def outFeid (m : Msg) : Option Nat :=
  match m.mclass.toNat, m.req with
  | 2, .fabric _ f => some f.toNat
  | 4, .fabric _ f => some f.toNat
  | 2, .host _ => none
  | 2, .device _ => none
  | 4, .device _ => none
  | 3, .fabric _ _ => some m.feid.toNat
  | 5, .fabric _ _ => some m.feid.toNat
  | 6, .fabric _ _ => some m.feid.toNat
  | 3, _ => none
  | 5, _ => none
  | 6, _ => none
  | _, _ => some m.feid.toNat

/-- Logical port that a message for xp x leaves on: the one the egress half of its route names, a completion's requester's,
or that of the host or device the virtual switch routes it to, kept in its FEID field (R61, R74). -/
def outPort (s : State) (x : Nat) (m : Msg) : Nat :=
  match outFeid m, m.mclass.toNat, m.req with
  | some f, _, _ => egressPort s x f
  | none, 2, .host u => u.toNat
  | none, 2, .device u => u.toNat
  | none, 4, .device u => u.toNat
  | none, _, _ => m.feid.toNat % 96

/-- Source of the attachment at xp x: its logical port, its Weft link, or the device. -/
def srcOfXp (x : Nat) : BitVec 32 :=
  if x < 48 then source 1 (2 * x) else if x < 56 then source 2 (x - 48) else source 0 0

/-- A half of the port at xp x with a role is declared down and not yet UP. -/
def anyHalfDown (s : State) (x : Nat) : Bool :=
  [2 * x, 2 * x + 1].any fun u => (port s u).isDown && decide ((port s u).role ≠ 0)

/-- The loom of xp x has its die-to-die link; an xp of the core die needs none (04 R113). -/
def loomUp (s : State) (x : Nat) : Bool :=
  decide (56 ≤ x) || decide ((tabGet LoomLink.init s.xbar.looms (if x < 48 then x / 6 else x - 48)).st = .up)

/-- up_hold_limit is a limit, not 0xFFFF_FFFF, unlimited (Table 5-5). -/
def upHoldEnds (s : State) : Bool := decide (bfUpHold (bufRec s 64) ≠ 2 ^ 32 - 1)

/-! ## Admission arithmetic (R117) -/

/-- m_q of key (x, c). -/
def minOf (s : State) (x c : Nat) : Nat := bfMin (bufRec s x) c

/-- Σ m_q over all 512 keys. -/
def sumMin (s : State) : Nat :=
  s.plan.active.buffer.foldl
    (fun n p => if p.1 < 64 then n + (List.range 8).foldl (fun k c => k + bfMin p.2 c) 0 else n) 0

/-- Cells in the whole buffer (R115). -/
def bufferCells : Nat := 655360

/-- S, the shared pool. -/
def sharedPool (s : State) : Nat := bufferCells - sumMin s

/-- s_q of key k. -/
def sharedOf (s : State) (k : Nat) : Nat := (bufKey s k).n.toNat - minOf s (k / 8) (k % 8)

/-- F, the free shared count. -/
def freeShared (s : State) : Nat :=
  sharedPool s - s.xbar.keys.foldl (fun n p => n + (p.2.n.toNat - minOf s (p.1 / 8) (p.1 % 8))) 0

/-- T_q: F shifted by the key's threshold exponent. -/
def threshold (s : State) (x c : Nat) : Nat :=
  let k := bfAlpha (bufRec s x) c
  if 0 ≤ k then freeShared s * 2 ^ k.toNat else freeShared s / 2 ^ (-k).toNat

/-- Quota of key (x, c) in chunks; every quota is halved, rounded down, at each stack loss (R127, R129). -/
def quotaChunks (s : State) (x c : Nat) : Nat := bfQuota (bufRec s x) c / 2 ^ s.xbar.quotaHalvings * 256

/-! ## Cells (R115) -/

/-- Owner and colour of a cell. -/
def cellMeta (s : State) (id : Nat) : CellMeta := tabGet CellMeta.init s.xbar.cells id

/-- Cells in use in a bank. -/
def bankUsed (s : State) (bank : Nat) : Nat :=
  (s.xbar.cells.filter fun p => p.1 % 16 == bank).length

/-- Whether a bank gives cells: its domain is ON and its free list has one (R115, R399). -/
def bankGives (s : State) (bank : Nat) : Bool :=
  decide ((domain s (170 + bank)).st = .on) && decide (bankUsed s bank + tabGet 0 s.xbar.cutFree bank < 40960)

/-- The lowest free row of a bank, from row r on, looking at `n` rows. -/
def lowestRow (s : State) (bank : Nat) : Nat → Nat → Nat
  | 0, r => r
  | n + 1, r => if (cellMeta s (r * 16 + bank)).owner = .free then r else lowestRow s bank n (r + 1)

/-- The next bank of the rotation that gives cells. -/
def nextBank (s : State) : Option Nat :=
  ((List.range 16).map fun i => (s.xbar.nextBank + i) % 16).find? fun b => bankGives s b

/-- The state with a cell's metadata written: owner, and the current pass colour (R132). A cell on a free list has
no entry. -/
def own (id : Nat) (o : CellOwner) (s : State) : State :=
  let v : CellMeta := if o = .free then CellMeta.init else { owner := o, colour := s.xbar.passColour }
  { s with xbar := { s.xbar with cells := tabSet CellMeta.init s.xbar.cells id v } }

/-- The owner of a list of cells changes. -/
def ownAll (ids : List Nat) (o : CellOwner) (s : State) : State := ids.foldl (fun s i => own i o s) s

/-- `n` cells taken from the ON banks in rotation, the lowest free row of each bank first (R115; log entry 9). -/
def allocCells : Nat → State → Option (List Nat × State)
  | 0, s => some ([], s)
  | n + 1, s =>
    match nextBank s with
    | none => none
    | some b =>
      let id := lowestRow s b (s.xbar.cells.length + 1) 0 * 16 + b
      let s1 := own id .voq { s with xbar := { s.xbar with nextBank := (b + 1) % 16 } }
      match allocCells n s1 with
      | none => none
      | some (ids, s2) => some (id :: ids, s2)

/-- PRXY-0x0030 PARK_HIGH where key q is a proxy's REQ key whose cells have just reached three quarters of its minimum; the
slice named is the xp's even one (06 R149; log entry 133). -/
def parkHigh (q : Nat) (s : State) : State :=
  let x := q / 8
  if x < 56 ∨ 60 ≤ x ∨ q % 8 ≠ 1 then s
  else
    let high := decide (3 * minOf s x 1 ≤ 4 * (bufKey s q).n.toNat) && decide (minOf s x 1 ≠ 0)
    let was := tabGet false s.proxy.parkHigh (x - 56)
    let s1 := { s with proxy := { s.proxy with parkHigh := tabSet false s.proxy.parkHigh (x - 56) high } }
    if high ∧ was = false then raiseFree 7 0x30 (source 7 (2 * (x - 56))) s1 else s1

/-- A key's charge grows by `n` cells. -/
def charge (k n : Nat) (s : State) : State :=
  parkHigh k (setKey k { bufKey s k with n := (bufKey s k).n + BitVec.ofNat 20 n } s)
/-- A key's charge falls by `n` cells. -/
def uncharge (k n : Nat) (s : State) : State :=
  parkHigh k (setKey k { bufKey s k with n := (bufKey s k).n - BitVec.ofNat 20 n } s)

/-! ## Starvation timers (R102) -/

/-- Index of a VOQ group: pair and service class. -/
def groupIx (i o sc : Nat) : Nat := (i * 64 + o) * 8 + sc

/-- A VOQ group holds a cell. -/
def groupHolds (s : State) (i o sc : Nat) : Bool :=
  (List.range 8).any fun mc => let v := voq s (voqIx i o mc sc); !v.buf.isEmpty || !v.res.isEmpty

/-- The timer of a VOQ group starts when the group gets a cell. -/
def groupWake (i o sc : Nat) (s : State) : State :=
  let g := tabGet Starve.init s.xbar.starve (groupIx i o sc)
  match g.since with
  | some _ => s
  | none => { s with xbar := { s.xbar with
      starve := tabSet Starve.init s.xbar.starve (groupIx i o sc) { g with since := some s.tele.time } } }

/-- A group that holds no cell runs no timer and is not urgent; a promotion that ends so counts at the input (R102). -/
def groupSettle (i o sc : Nat) (s : State) : State :=
  if groupHolds s i o sc then s
  else
    let k := groupIx i o sc
    let n := if 0 < (tabGet Starve.init s.xbar.starve k).urgent then 1 else 0
    let s1 := { s with xbar := { s.xbar with starve := tabSet Starve.init s.xbar.starve k Starve.init } }
    setOutput i { output s1 i with promoteIn := (output s1 i).promoteIn + BitVec.ofNat 32 n } s1

/-- The group of VOQ k settled. -/
def voqSettle (k : Nat) (s : State) : State := groupSettle (voqIn k) (voqOut k) (voqSc k) s

/-! ## Reservoir segments (R126, R127) -/

/-- Chunks a stack's share holds in all: 0 once it is LOST. -/
def chunksTotal (s : State) (b : Bool) : Nat :=
  if tabGet false s.xbar.stackLost (nb b) then 0 else if s.boot.hb then 786432 else 2097152

/-- Free chunks of a stack's share. -/
def chunksFree (s : State) (b : Bool) : Nat := chunksTotal s b - tabGet 0 s.xbar.chunksUsed (nb b)

/-- Room left in the last chunk of a segment. -/
def tailRoom : List Chunk → Nat
  | [] => 0
  | [c] => 51 - c.filled
  | _ :: cs => tailRoom cs

/-- The last chunk of a segment with `n` more cells. -/
def tailFill (n : Nat) : List Chunk → List Chunk
  | [] => []
  | [c] => [{ c with cells := c.cells + n, filled := c.filled + n }]
  | c :: cs => c :: tailFill n cs

/-- New chunks that `c` more cells of a segment take. -/
def newChunks (cs : List Chunk) (c : Nat) : Nat := (c - tailRoom cs + 50) / 51

/-- `n` chunks for `c` cells, taken alternately from the stacks, from stack `b0` on, a stack without a free chunk being
passed over (R126). -/
def takeChunks : Nat → Nat → Bool → State → List Chunk × State
  | 0, _, _, s => ([], s)
  | n + 1, c, b0, s =>
    let b := if chunksFree s b0 = 0 then !b0 else b0
    let used := tabGet 0 s.xbar.chunksUsed (nb b)
    let s1 := { s with xbar := { s.xbar with chunksUsed := tabSet 0 s.xbar.chunksUsed (nb b) (used + 1) } }
    let r := takeChunks n (c - 51) (!b) s1
    ({ stackB := b, cells := min c 51, filled := min c 51 } :: r.1, r.2)

/-- Stack of a segment's next chunk: the other one than its last chunk's; a new segment begins where the segment that
began last did not (R126; log entry 9). -/
def nextStack (s : State) (cs : List Chunk) : Bool :=
  match cs.getLast? with
  | some c => !c.stackB
  | none => s.xbar.nextStackB

/-- A message of stamp `st` appended to the reservoir segment of VOQ k of key q (R127). -/
def appendRes (k q : Nat) (m : Msg) (st : BitVec 32) (s : State) : State :=
  let v := voq s k
  let c := cellsOf m
  let room := min c (tailRoom v.chunks)
  let n := newChunks v.chunks c
  let t := takeChunks n (c - room) (nextStack s v.chunks) s
  let s1 := if v.chunks = [] then { t.2 with xbar := { t.2.xbar with nextStackB := !s.xbar.nextStackB } } else t.2
  let key := bufKey s1 q
  groupWake (voqIn k) (voqOut k) (voqSc k)
    (setKey q { key with resCells := key.resCells + BitVec.ofNat 28 c, chunks := key.chunks + n }
      (setVoq k { v with res := v.res ++ [{ msg := m, cells := c, stamp := st }], chunks := tailFill room v.chunks ++ t.1 } s1))

/-- Whether the chunks charged to key q would stay within its quota with `c` more cells in VOQ k (R127). -/
def quotaAllows (k q c : Nat) (s : State) : Bool :=
  let n := newChunks (voq s k).chunks c
  decide ((bufKey s q).chunks + n ≤ quotaChunks s (q / 8) (q % 8))
  && decide (n ≤ chunksFree s false + chunksFree s true)

/-! ## Placing a message (Table 5-1) -/

/-- Placement of a message. -/
inductive Place where
  | buffer | reservoir | quota | wait
  deriving DecidableEq, Repr

/-- Case 2 or case 3 of Table 5-1 for a message of `c` cells for VOQ k (R117, R119). The free shared count must be at
least the number of the message's own cells beyond the key's minimum (log entry 31). -/
def admits (s : State) (k c : Nat) : Bool :=
  let x := voqOut k
  let mc := voqMc k
  let q := keyIx x mc
  let n := (bufKey s q).n.toNat
  let m := minOf s x mc
  decide (n + c - 1 < m)
  || (decide (sharedOf s q + c - 1 < threshold s x mc) && decide (min c (n + c - m) ≤ freeShared s))

/-- The first case of Table 5-1 that applies to a message of `c` cells for VOQ k (R117). -/
def placeOf (s : State) (k c : Nat) : Place :=
  let x := voqOut k
  let q := keyIx x (voqMc k)
  if (voq s k).chunks ≠ [] then (if quotaAllows k q c s then .reservoir else .quota)
  else if admits s k c then .buffer
  else if (output s x).st ≠ .up then (if quotaAllows k q c s then .reservoir else .quota)
  else .wait

/-- Fabric time [31:0], as a cell is stamped at its VOQ write (Table 4-1). -/
def cellStamp (s : State) : BitVec 32 := s.tele.time.setWidth 32

/-- A message of stamp `st` written to the buffer segment of VOQ k: cells allocated and charged. None where no ON bank
holds enough free cells. -/
def appendBuf (k : Nat) (m : Msg) (st : BitVec 32) (s : State) : Option State :=
  match allocCells (cellsOf m) s with
  | none => none
  | some (ids, s1) =>
    let v := voq s1 k
    let q : QMsg := { msg := m, cells := ids, total := cellsOf m, stamp := st }
    some (groupWake (voqIn k) (voqOut k) (voqSc k)
      (charge (keyIx (voqOut k) (voqMc k)) (cellsOf m) (setVoq k { v with buf := v.buf ++ [q] } s1)))

/-- RSVR-0x0001 QUOTA_FULL, once for each HELD episode of the output (R127). -/
def quotaFull (k : Nat) (s : State) : State :=
  let x := voqOut k
  let q := keyIx x (voqMc k)
  let s1 := setKey q { bufKey s q with quotaFull := true } s
  if (output s x).quotaRaised then s1
  else raiseFree 5 1 (srcOfXp x) (setOutput x { output s1 x with quotaRaised := true } s1)

/-- VOQ that a message enters for output xp x. -/
def voqOf (s : State) (x : Nat) (m : Msg) : Nat :=
  voqIx m.inXp.toNat (queueXp s x) m.mclass.toNat m.sclass.toNat

/-- A message is placed by Table 5-1: some state where it left its receive buffer, none where it waits. A message
that would break its quota raises QUOTA_FULL and waits. -/
def tryPlace (x : Nat) (m : Msg) (s : State) : Option State × State :=
  let k := voqOf s x m
  match placeOf s k (cellsOf m) with
  | .buffer => (appendBuf k m (cellStamp s) s, s)
  | .reservoir => (some (appendRes k (keyIx (voqOut k) (voqMc k)) m (cellStamp s) s), s)
  | .quota => (none, quotaFull k s)
  | .wait => (none, s)

/-- Receive buffer of an input for a message class. -/
def rxIx (m : Msg) : Nat := m.inXp.toNat * 8 + m.mclass.toNat

/-- 16-byte slots of a message on a Weft link: its Weft header and the message as stored; a notice is one slot and a
TIME_INFO three (R260, R264, 14 Table 14-2; log entry 23). -/
def weftSlots (m : Msg) : Nat :=
  match m.op with
  | .apply | .restore => 1
  | .timeInfo => 3
  | _ => 1 + (m.len + 16 + 15) / 16

/-- Slots of virtual channel v at Weft link n are freed; the channel owes a credit return (R269, R270). -/
def freeSlots (n v k : Nat) (s : State) : State :=
  let w := weft s n
  let c := tabGet WeftVc.init w.vcs v
  let c1 := { c with freed := c.freed + BitVec.ofNat 32 k, occupancy := c.occupancy - BitVec.ofNat 17 k, owed := true }
  setWeft n { w with vcs := tabSet WeftVc.init w.vcs v c1 } s

/-- Link credit of the class returns as a message leaves the receive buffer (R118); at a Weft link its slots are freed
(R269). -/
def creditBack (m : Msg) (s : State) : State :=
  let x := m.inXp.toNat
  let s := if 48 ≤ x ∧ x < 56 then freeSlots (x - 48) m.mclass.toNat (weftSlots m) s else s
  { s with xbar := { s.xbar with
      creditsReturned := tabSet 0 s.xbar.creditsReturned (rxIx m) (tabGet 0 s.xbar.creditsReturned (rxIx m) + 1) } }

/-- A message enters toward output xp x: behind messages of its class that wait at its input, by Table 5-1
otherwise (R117, R118). While the loom of its input has lost its die-to-die link it waits there, its credit withheld
(04 R113). -/
def enqueue (x : Nat) (m : Msg) (s : State) : State :=
  let w : Waiting := { msg := m, outXp := BitVec.ofNat 6 x }
  let rx := tabGet [] s.xbar.rx (rxIx m)
  let join := fun (s : State) => { s with xbar := { s.xbar with
      rx := tabSet [] s.xbar.rx (rxIx m) (tabGet [] s.xbar.rx (rxIx m) ++ [w]) } }
  if rx ≠ [] ∨ loomUp s m.inXp.toNat = false then join s
  else
    match tryPlace x m s with
    | (some s1, _) => countIn 82 m (creditBack m s1)
    | (none, s1) => join s1

/-! ## Discarding held messages (R121, R124) -/

/-- Messages discarded while held are counted for their key (buf.q_status.discarded). -/
def countDiscard (q : Nat) (s : State) : State :=
  setKey q { bufKey s q with discarded := satAdd (bufKey s q).discarded 1 } s

/-- Two records of one CXL.io or CXL.cache message. -/
def sameIo (a b : Msg) : Bool :=
  decide (a.op = b.op) && decide (a.req = b.req) && decide (a.tag = b.tag) && decide (a.feid = b.feid) && decide (a.born = b.born)

/-- A CXL.io or CXL.cache message is no longer outstanding through its vPPB (10 R241). -/
def ioGone (m : Msg) (s : State) : State :=
  { s with mgmt := { s.mgmt with ioOut := s.mgmt.ioOut.filter fun e => !sameIo m e.2 } }

/-- What becomes of a message removed from a queue of key q: a request completes in error, a non-posted CXL.io
request with Unsupported Request, anything else is discarded and counted (R121, R124). -/
def dropMsg (q : Nat) (m : Msg) (s : State) : State :=
  if isRequest m.op then failRequest m s
  else if m.op = .ioNonPosted then sendTo (completionMsg m .ioCompletion .noOp 0 true) true (ioGone m s)
  else countDiscard q (ioGone m s)

/-- Messages of a buffer segment that a purge removes, and what stays: a message partly sent is removed too, its
remaining cells being discarded. -/
def splitBuf (p : Msg → Bool) (l : List QMsg) : List QMsg × List QMsg :=
  (l.filter (fun q => p q.msg), l.filter (fun q => !p q.msg))

/-- Chunks from which the flagged cells of the segment, in order, have gone; a chunk goes with its last cell (R127,
R128). -/
def chopChunks : List Chunk → List Bool → List Chunk
  | [], _ => []
  | c :: cs, l =>
    let k := ((l.take c.cells).filter fun g => !g).length
    if k = 0 then chopChunks cs (l.drop c.cells) else { c with cells := k } :: chopChunks cs (l.drop c.cells)

/-- A resume mark after some of the messages before it have gone: `gone` flags the queue's messages in order (R122). -/
def markAfter (mark : Nat) (gone : List Bool) : Nat := mark - ((gone.take mark).filter id).length

/-- Chunks of a stack among a list. -/
def chunksIn (b : Bool) (cs : List Chunk) : Nat := (cs.filter fun c => c.stackB == b).length

/-- Chunks given back to the stacks and to key q. -/
def freeChunks (q : Nat) (gone kept : List Chunk) (s : State) : State :=
  let d := fun b => chunksIn b gone - chunksIn b kept
  let u := s.xbar.chunksUsed
  let u1 := tabSet 0 u 0 (tabGet 0 u 0 - d false)
  let u2 := tabSet 0 u1 1 (tabGet 0 u1 1 - d true)
  setKey q { bufKey s q with chunks := (bufKey s q).chunks - (gone.length - kept.length) }
    { s with xbar := { s.xbar with chunksUsed := u2 } }

/-- One VOQ purged of the messages `p` names (R124): cells freed and uncharged, chunks freed, each removed message
treated by `dropMsg`. -/
def purgeVoq (p : Msg → Bool) (k : Nat) (s : State) : State :=
  let v := voq s k
  let q := keyIx (voqOut k) (voqMc k)
  let b := splitBuf p v.buf
  let gone := v.res.filter fun r => p r.msg
  let left := v.res.filter fun r => !p r.msg
  if b.1 = [] ∧ gone = [] then s
  else
    let ids := (b.1.map (·.cells)).flatten
    let lost := (gone.map (·.cells)).sum
    let ch := chopChunks v.chunks ((v.res.map fun r => List.replicate r.cells (p r.msg)).flatten)
    let drop := (b.1.map (·.msg)) ++ gone.map (·.msg)
    let mark := markAfter v.mark ((v.buf.map fun q => p q.msg) ++ v.res.map fun r => p r.msg)
    let s1 := uncharge q ids.length (ownAll ids .free (setVoq k { buf := b.2, res := left, chunks := ch, mark := mark } s))
    let key := bufKey s1 q
    let s2 := freeChunks q v.chunks ch (setKey q { key with resCells := key.resCells - BitVec.ofNat 28 lost } s1)
    voqSettle k (drop.foldl (fun s m => dropMsg q m s) s2)

/-- Keys of the VOQs that hold something for output x. -/
def voqsTo (s : State) (x : Nat) : List Nat := (tabKeys s.xbar.voqs).filter fun k => voqOut k == x

/-- Messages waiting at ingress for output x that `p` names are purged, and their link credit returns (R124). -/
def purgeRx (p : Msg → Bool) (x : Nat) (s : State) : State :=
  let hit := fun (w : Waiting) => decide (queueXp s w.outXp.toNat = x) && p w.msg
  let gone := (s.xbar.rx.map fun e => e.2.filter hit).flatten
  let rx := tabMap [] (fun _ l => l.filter fun w => !hit w) s.xbar.rx
  gone.foldl (fun s w => dropMsg (keyIx x w.msg.mclass.toNat) w.msg (creditBack w.msg s))
    { s with xbar := { s.xbar with rx := rx } }

/-- Requests on shaper lists for output x that `p` names are purged (R124, R196). -/
def purgeShaper (p : Msg → Bool) (x : Nat) (s : State) : State :=
  let hit := fun (w : Waiting) => decide (queueXp s w.outXp.toNat = x) && p w.msg
  let gone := (s.traffic.meters.map fun e => e.2.list.filter hit).flatten
  let ms := tabMap Meter.init (fun _ m => { m with list := m.list.filter fun w => !hit w }) s.traffic.meters
  gone.foldl (fun s w => failRequest w.msg (creditBack w.msg s))
    { s with traffic := { s.traffic with meters := ms } }

/-- Whole messages in output x's staging. -/
def stagedWhole (o : Output) : Nat := (o.staging.map fun e => (e.2.filter fun m => decide (m.got = m.total)).length).sum

/-- Messages in output x's egress staging that `p` names are removed. A whole one is treated by `dropMsg`; one that is not
is resolved where its last cell lies. -/
def purgeStaging (p : Msg → Bool) (x : Nat) (s : State) : State :=
  let o := output s x
  let gone := (o.staging.map fun e => e.2.filter fun m => p m.msg && decide (m.got = m.total)).flatten
  let o1 := { o with staging := tabMap [] (fun _ l => l.filter fun m => !p m.msg) o.staging }
  let s1 := setOutput x { o1 with stagedMark := min o1.stagedMark (stagedWhole o1) } s
  (List.range 8).foldl (fun s sc => outSettle x sc s)
    (gone.foldl (fun s m => dropMsg (keyIx x m.msg.mclass.toNat) m.msg s) s1)

/-- The buffer of an acknowledged or lost cell is freed and its charge ends (R97, R117). -/
def freeCell (i x : Nat) (u : Unacked) (s : State) : State :=
  let p := pair s (pairIx i x)
  uncharge (keyIx x u.msg.mclass.toNat) 1 (own u.cellId .free
    (setPair (pairIx i x) { p with window := p.window.filter fun w => !decide (w.seq = u.seq) } s))

/-- Cells of pair k that have been sent and that `p` names are purged: one without acknowledgement is freed and its seq
passed over, one in the resequencer is passed over there. A message is resolved where its last cell lies (R124). -/
def purgePair (p : Msg → Bool) (k : Nat) (s : State) : State :=
  let i := k / 64
  let x := k % 64
  let v := pair s k
  let sent := v.window.filter fun u => p u.msg && !u.acked
  let came := v.reseq.filter fun c => p c.2.msg && !c.2.skip
  if sent = [] ∧ came = [] then s
  else
    let drop := ((sent.filter fun u => decide (u.idx + 1 = u.total)).map (·.msg))
      ++ ((came.filter fun c => decide (c.2.idx + 1 = c.2.total)).map fun c => c.2.msg)
    let mark := v.reseq.map fun c => if p c.2.msg then (c.1, { c.2 with skip := true }) else c
    let s1 := sent.foldl (fun s u => reseqIn i x u.seq { ecellOf u false false with skip := true } (freeCell i x u s))
      (setPair k { v with reseq := mark } s)
    drop.foldl (fun s m => dropMsg (keyIx x m.mclass.toNat) m s) s1

/-- Pairs toward output x. -/
def pairsTo (s : State) (x : Nat) : List Nat := (tabKeys s.xbar.pairs).filter fun k => k % 64 == x

/-- A purge of output x: every message for it that `p` names leaves the staging, the cells sent and not yet delivered, the
queues, the receive buffers and the shaper lists (R124). -/
def purge (p : Msg → Bool) (x : Nat) (s : State) : State :=
  let s1 := purgeStaging p x s
  let s2 := (voqsTo s1 x).foldl (fun s k => purgeVoq p k s) ((pairsTo s1 x).foldl (fun s k => purgePair p k s) s1)
  purgeShaper p x (purgeRx p x s2)

/-- Requests of binding b held for output x, each counted where its last cell lies: in its queues, on its way across, in
its staging, at ingress or on a shaper list (R76). -/
def heldAt (s : State) (b x : Nat) : Nat :=
  let mine := fun (m : Msg) => m.counted && decide (m.binding.toNat = b) && isRequest m.op
  let inV := (voqsTo s x).map fun k =>
    ((voq s k).buf.filter fun q => mine q.msg).length + ((voq s k).res.filter fun r => mine r.msg).length
  let inP := (pairsTo s x).map fun k =>
    ((pair s k).window.filter fun u => mine u.msg && !u.acked && decide (u.idx + 1 = u.total)).length
      + ((pair s k).reseq.filter fun c => mine c.2.msg && !c.2.skip && decide (c.2.idx + 1 = c.2.total)).length
  let inS := (output s x).staging.map fun e => (e.2.filter fun m => mine m.msg && decide (m.got = m.total)).length
  let inR := s.xbar.rx.map fun e =>
    (e.2.filter fun w => decide (queueXp s w.outXp.toNat = x) && mine w.msg).length
  let inH := s.traffic.meters.map fun e =>
    (e.2.list.filter fun w => decide (queueXp s w.outXp.toNat = x) && mine w.msg).length
  inV.sum + inP.sum + inS.sum + inR.sum + inH.sum

/-- Requests of binding b held for outputs that are not UP. -/
def heldOf (s : State) (b : Nat) : Nat :=
  ((List.range 56).map fun x => if (output s x).st = .held then heldAt s b x else 0).sum

/-! ## Holding and resuming (R120 to R123) -/

/-- Output x enters state `v`, stamped. -/
def setOutSt (x : Nat) (v : OutSt) (s : State) : State :=
  setOutput x { output s x with st := v, since := stamp s } s

/-- Output x is HELD: nothing crosses until it returns; a new HELD episode (R120, R123). -/
def holdOutput (x : Nat) (s : State) : State :=
  if (output s x).st = .held then s
  else setOutput x { output s x with st := .held, since := stamp s, quotaRaised := false } s

/-- Messages of a VOQ. -/
def voqLen (v : Voq) : Nat := v.buf.length + v.res.length

/-- Every VOQ of output x has drained past its mark. -/
def marksDone (s : State) (x : Nat) : Bool := (voqsTo s x).all fun k => decide ((voq s k).mark = 0)

/-- Output x enters RESUMING: the tail of each of its VOQs is marked, and the whole messages in its staging are to go out
first (R122). -/
def resumeOutput (x : Nat) (s : State) : State :=
  let s1 := setOutSt x .resuming s
  (voqsTo s x).foldl (fun s k => setVoq k { voq s k with mark := voqLen (voq s k) } s)
    (setOutput x { output s1 x with stagedMark := stagedWhole (output s1 x) } s1)

/-- Output x's link can take what waits in its staging: an output that is HELD keeps it (Table 5-2). -/
def notHeld (s : State) (x : Nat) : Bool := decide ((output s x).st ≠ .held)

end Sys2Proof.Machine
end

