-- ==== Sys2Proof/Machine/Traffic.lean ====
section
/-! DEFINITION. Shared operations of the traffic controller: buckets, the meter, the shaper list and the ranges of
its records (Traffic Control). -/

namespace Sys2Proof.Machine

open Sys2Proof

/-! ## Buckets (R194, R195, R201) -/

/-- Committed bucket of binding b: full where the binding has not entered ACTIVE (R201). -/
def bucketC (s : State) (b : Nat) : Nat :=
  match (meter s b).tc with
  | some v => v.toNat
  | none => tfCbs (traf s b) * 256
/-- Peak bucket of binding b. -/
def bucketP (s : State) (b : Nat) : Nat :=
  match (meter s b).tp with
  | some v => v.toNat
  | none => tfPbs (traf s b) * 256
/-- Shaper bucket of binding b. -/
def bucketS (s : State) (b : Nat) : Nat :=
  match (meter s b).ts with
  | some v => v.toNat
  | none => tfSd (traf s b) * 256

/-- The levels that a meter holds, all full for record r; a level that follows the record in force goes on doing so
(R201). -/
def fullMeter (r : BitVec 512) (m : Meter) : Meter :=
  { m with tc := m.tc.map fun _ => BitVec.ofNat 32 (tfCbs r * 256), tp := m.tp.map fun _ => BitVec.ofNat 32 (tfPbs r * 256),
           ts := m.ts.map fun _ => BitVec.ofNat 32 (tfSd r * 256) }

/-- All three buckets of binding b set full for its record in force, as at activation (R201, R211). -/
def fillBuckets (b : Nat) (s : State) : State :=
  let r := traf s b
  setMeter b { meter s b with tc := some (BitVec.ofNat 32 (tfCbs r * 256)), tp := some (BitVec.ofNat 32 (tfPbs r * 256)),
                              ts := some (BitVec.ofNat 32 (tfSd r * 256)) } s

/-- `n` refills of a meter under record r, each capped at its depth (R194, R195): a level that stands full stays so. -/
def refillMeter (n : Nat) (r : BitVec 512) (m : Meter) : Meter :=
  let up := fun (v : Option (BitVec 32)) (rate depth : Nat) =>
    v.map fun x => BitVec.ofNat 32 (min (depth * 256) (x.toNat + n * rate))
  { m with tc := up m.tc (tfCir r) (tfCbs r), tp := up m.tp (tfPir r) (tfPbs r), ts := up m.ts (tfSr r) (tfSd r) }

/-- The refills of every weave-frame boundary up to frame `f` that are still to be applied, under the records in force
(R200). -/
def refillTo (f : Nat) (s : State) : State :=
  let n := f - s.traffic.refilled.toNat
  if n = 0 then s
  else
    let ms := tabMap Meter.init (fun b m => refillMeter n (tabGet 0 s.plan.active.traffic b) m) s.traffic.meters
    { s with traffic := { s.traffic with meters := ms, refilled := BitVec.ofNat 64 f } }

/-- Sets due at boundary `t` enter the active TRAFFIC table (R202). -/
def applySets (t : Nat) (s : State) : State :=
  let due := s.traffic.sets.filterMap fun p => p.2.bind fun q => if q.2.toNat = t then some (p.1, q.1) else none
  let sets := s.traffic.sets.filter fun p => !(due.any fun d => d.1 == p.1)
  due.foldl (fun s d => { s with plan := { s.plan with active := { s.plan.active with
      traffic := tabSet 0 s.plan.active.traffic d.1 d.2 } } }) { s with traffic := { s.traffic with sets := sets } }

/-- Boundaries of the accepted sets that have come, in order. -/
def dueSets (s : State) : List Nat :=
  ((s.traffic.sets.filterMap fun p => p.2.map fun q => q.2.toNat).filter fun t => decide (t ≤ now s)).dedup.insertionSort
    (· ≤ ·)

/-- The buckets as they stand now: every set that is due applied and every boundary's refill added, each under the
records in force at it; a set's boundary refills under the new record (R200, R202). -/
def trafSync (s : State) : State :=
  let s1 := (dueSets s).foldl (fun s t => refillTo (t / frameTicks) (applySets t (refillTo (t / frameTicks - 1) s))) s
  refillTo (now s / frameTicks) s1

/-- Length in bytes that a request debits (R193). -/
def debit (s : State) (m : Msg) : Nat := lineBytes m.op + tfOvh (traf s m.binding.toNat)

/-! ## The meter (R194) -/

/-- Colour of a request of length l (in 1/256 byte) under record r and levels tc, tp, with the levels after it. -/
def colourOf (r : BitVec 512) (tc tp l : Nat) : Colour × Nat × Nat :=
  if tfMeter r = false ∨ l = 0 then (.green, tc, tp)
  else if tp < l then (.red, tc, tp)
  else if tc < l then (.yellow, tc, tp - l)
  else (.green, tc - l, tp - l)

/-- The meter of a binding colours a request and debits its buckets; the colour counters follow (R194, R210). -/
def meterReq (m : Msg) (s : State) : Colour × State :=
  let b := m.binding.toNat
  let q := colourOf (traf s b) (bucketC s b) (bucketP s b) (debit s m * 256)
  let t := meter s b
  let t1 := { t with tc := t.tc.map fun _ => BitVec.ofNat 32 q.2.1, tp := t.tp.map fun _ => BitVec.ofNat 32 q.2.2,
                     green := if q.1 = .green then t.green + 1 else t.green,
                     yellow := if q.1 = .yellow then t.yellow + 1 else t.yellow,
                     red := if q.1 = .red then t.red + 1 else t.red }
  (q.1, setMeter b t1 s)

/-- Uncorrectable bucket state: all three buckets full, TRAF-0x0020 (R211). -/
def meterUe (b : Nat) (word : BitVec 64) (s : State) : State :=
  raiseFree 9 0x20 (source 3 b) (setMeter b (fullMeter (traf s b) (meter s b)) (memUe 0 word s))

/-- Service class of a request after its colour: demoted where the action says so (R197, R198). -/
def classOf (r : BitVec 512) (cls : Nat) (c : Colour) : Nat :=
  match c with
  | .green => cls
  | .yellow => if tfYAct r = 1 then tfYClass r else cls
  | .red => if tfRAct r = 1 then tfRClass r else cls

/-! ## The shaper (R195) -/

/-- A shaped request joins its binding's list. -/
def joinShaper (x : Nat) (m : Msg) (s : State) : State :=
  let b := m.binding.toNat
  let t := meter s b
  setMeter b { t with shaped := t.shaped + 1, list := t.list ++ [{ msg := m, outXp := BitVec.ofNat 6 x }] } s

/-- A request that has been metered goes on toward output xp x: at once, or to the tail of the shaper list (R195). -/
def shape (x : Nat) (m : Msg) (s : State) : State :=
  let b := m.binding.toNat
  let r := traf s b
  let t := meter s b
  let l := debit s m * 256
  if t.list ≠ [] then joinShaper x m s
  else if tfShape r = false then enqueue x m s
  else if l ≤ bucketS s b then
    enqueue x m (setMeter b { t with ts := t.ts.map fun v => v - BitVec.ofNat 32 l } s)
  else joinShaper x m s

/-! ## Record ranges (R208, R209) -/

/-- The first offset of a list of (offset, field in range) at which a field is out of range. -/
def firstBad (l : List (Nat × Bool)) : Option Nat := (l.find? fun p => !p.2).map (·.1)

/-- The record's offset of its first field outside the ranges of Table 8-2, R197's limit on REFUSE and the conditions
of R204, for a binding of the given kind and class (check 22).  The conditions of R204 stand at g_rate
(DEDUCED, log 112). -/
def trafBindBad (r : BitVec 512) (kind cls : Nat) : Option Nat :=
  let lo := 64 + tfOvh r
  let hi := 0x00FFFFFF
  firstBad [
    (0x00, decide (tfCir r ≤ tfPir r)),
    (0x04, decide (tfPir r ≤ 0x05000000)),
    (0x08, !tfMeter r || decide (lo ≤ tfCbs r ∧ tfCbs r ≤ hi)),
    (0x0C, !tfMeter r || decide (lo ≤ tfPbs r ∧ tfPbs r ≤ hi)),
    (0x10, !tfShape r || decide (1 ≤ tfSr r ∧ tfSr r ≤ 0x05000000)),
    (0x14, !tfShape r || decide (lo ≤ tfSd r ∧ tfSd r ≤ hi)),
    (0x18, decide (tfG r % 16384 = 0) && (decide (tfG r = 0) || (tfShape r && decide (tfSr r ≤ tfG r))
      || (tfMeter r && decide (tfCir r ≤ tfG r) && decide (tfYAct r ≠ 0) && decide (tfRAct r ≠ 0)
          && decide (tfYClass r ≠ cls) && decide (tfRClass r ≠ cls)))),
    (0x1D, decide (fnat r 234 6 = 0) && !(tfShape r && decide (kind = 1))),
    (0x1E, decide (tfYAct r ≤ 1)),
    (0x1F, decide (tfRAct r ≤ 2) && !(decide (tfRAct r = 2) && decide (kind ≠ 0))),
    (0x20, decide (tfYClass r ≤ 7)),
    (0x21, decide (tfRClass r ≤ 7)),
    (0x22, decide (tfPrx r < 16)),
    (0x23, decide (fnat r 280 232 = 0))]

/-- Every field of a binding's record is in range (R208). -/
def trafBindOk (r : BitVec 512) (kind cls : Nat) : Bool := (trafBindBad r kind cls).isNone

/-- The record's offset of its first field outside the ranges of Table 8-3: all bytes 0 are in range, else a
permutation of ranks, a starvation limit and an interval (R209). -/
def trafXpBad (r : BitVec 512) : Option Nat :=
  if r = 0 then none
  else firstBad [
    (0x00, (List.range 8).all fun k => (List.range 8).any fun s => decide (fnat r (8 * s) 8 = k)),
    (0x08, decide (1 ≤ fnat r 64 16)),
    (0x0A, decide (fnat r 80 8 ≤ 7)),
    (0x0B, decide (fnat r 88 424 = 0))]

/-- Every field of an xp's record is in range (R209). -/
def trafXpOk (r : BitVec 512) : Bool := (trafXpBad r).isNone

end Sys2Proof.Machine
end

