-- ==== Sys2Proof/Machine/Protect.lean ====
section
/-! DEFINITION. Shared operations of the protection units: the check, violations and freezing (Protection Units). -/

namespace Sys2Proof.Machine

open Sys2Proof

/-- Protection entry i in force. -/
def protEntry (s : State) (i : Nat) : BitVec 256 := tabGet 0 s.plan.active.protection i

/-- The state with protection entry i replaced in the active table (R224). -/
def setProt (i : Nat) (e : BitVec 256) (s : State) : State :=
  { s with plan := { s.plan with active := { s.plan.active with
      protection := tabSet 0 s.plan.active.protection i e } } }

/-- Whether permissions r and w permit an access kind (Table 9-2). -/
def permits (e : BitVec 256) (kind : Nat) : Bool :=
  match kind with
  | 0 => ptR e
  | 1 => ptW e
  | 2 => ptR e && ptW e
  | _ => ptR e || ptW e

/-- Whether a valid entry matches: FEID, span and an enabled subregion (R212, R215). -/
def ptMatch (e : BitVec 256) (feid dev : Nat) : Bool :=
  ptValid e && (ptAny e || decide (ptFeid e = feid))
  && decide (ptBase e ≤ dev ∧ dev < ptBase e + 2 ^ ptSize e)
  && ptSub e ((dev - ptBase e) / 2 ^ (ptSize e - 3))

/-- Outcome of a protection check. -/
inductive Check where
  | allow
  /-- Violation: cause of Table 9-3 and the deciding entry. -/
  | violate (cause : Nat) (entry : Option Nat)
  /-- Entry i is uncorrectable (R222). -/
  | ue (i : Nat)
  deriving DecidableEq, Repr

/-- Whether reading entry i fails: marked bad until its reload, holding a word that the scrubber found uncorrectable, or
failing in this very read (R222, 15 R366). -/
def entryBad (s : State) (ue : Option (BitVec 14)) (i : Nat) : Bool :=
  s.prot.badEntries.contains i || tableBad s 9 i || decide (ue.map (·.toNat) = some i)

/-- The check over `n` entries from entry i on: the lowest matching entry decides (R215). The entries of a binding
are read together, so an uncorrectable one among them ends the check first (R222; log entry 25). -/
def checkFrom (s : State) (feid dev kind : Nat) : Nat → Nat → Check
  | 0, _ => .violate 1 none
  | n + 1, i =>
    let e := protEntry s i
    if ptMatch e feid dev then
      if permits e kind then .allow
      else .violate (if kind = 0 ∨ kind = 3 then 2 else 3) (some i)
    else checkFrom s feid dev kind n (i + 1)

/-- The check of an access of binding b (R215, R222). -/
def protCheck (s : State) (ue : Option (BitVec 14)) (b feid dev kind : Nat) : Check :=
  let c := ctx s b
  match (List.range (ctxProtCount c)).find? fun j => entryBad s ue (ctxProtFirst c + j) with
  | some j => .ue (ctxProtFirst c + j)
  | none => checkFrom s feid dev kind (ctxProtCount c) (ctxProtFirst c)

/-! ## Freezing -/

/-- Binding b is frozen, by a violation or by command: ACTIVE enters FROZEN, any other state stays (Table 3-11). -/
def freezeBinding (b : Nat) (byViol : Bool) (s : State) : State :=
  if bstate s b = 2 then setBrun b { brun s b with violated := byViol } (setBstate b 3 s)
  else if bstate s b = 3 ∧ byViol then setBrun b { brun s b with violated := true } s
  else s

/-- A scribe instance is frozen with cause PROT (true) or OWNER (false): READY enters FREEZING, a FREEZING or FROZEN one
takes the cause too (Table 7-2). -/
def freezeInst (n : Nat) (isProt : Bool) (s : State) : State :=
  let i := inst s n
  match i.st with
  | .ready => setInst n { i with st := .freezing, causeProt := isProt, causeOwner := !isProt } s
  | .freezing | .frozen =>
    setInst n { i with causeProt := i.causeProt || isProt, causeOwner := i.causeOwner || !isProt } s
  | _ => s

/-! ## Violations (R220) -/

/-- Where an access came from, for the violation record: host port, scribe data line or scribe ring access. -/
def violSrc (m : Msg) (ring : Bool) : Nat :=
  match m.req with
  | .engine .. => if ring then 2 else 1
  | _ => 0

/-- Instance of an access, 0 for a host's. -/
def violInst (m : Msg) : BitVec 10 :=
  match m.req with
  | .engine i .. => i
  | _ => 0

/-- Logical upstream port of an access, 0 for a scribe's. -/
def violPort (m : Msg) : BitVec 7 :=
  match m.req with
  | .host u => u
  | _ => 0

/-- The violation record of an access (R220, Protection status registers). -/
def violRec (m : Msg) (ring : Bool) (kind cause : Nat) (entry : Option Nat) (addr : BitVec 64) (s : State) : ViolRec :=
  { valid := true, kind := BitVec.ofNat 2 kind, cause := BitVec.ofNat 2 cause, src := BitVec.ofNat 2 (violSrc m ring),
    entryV := entry.isSome, binding := m.binding, inst := violInst m, port := violPort m,
    entry := match entry with | some i => BitVec.ofNat 14 i | none => 0,
    dev := m.dev.setWidth 52, addr := addr, feid := m.feid, stamp := stamp s, stampFull := s.tele.time,
    epoch := s.prot.epoch, label := match entry with | some i => ptLabel (protEntry s i) | none => 0, later := 0, inXp := m.inXp }

/-- Step 2 of R220: a host binding or a scribe instance is frozen. -/
def violFreeze (m : Msg) (s : State) : State :=
  match m.req with
  | .engine i .. => freezeInst i.toNat true s
  | _ => freezeBinding m.binding.toNat true s

/-- One violation stands before another of the same clock: lower input xp, then lower binding (R221). -/
def violBefore (a b : ViolRec) : Bool :=
  decide (a.inXp.toNat < b.inXp.toNat) || (decide (a.inXp = b.inXp) && decide (a.binding.toNat < b.binding.toNat))

/-- A record of this clock (R221). -/
def violNow (v : ViolRec) (s : State) : Bool := v.valid && decide (v.stampFull = s.tele.time)

/-- The captured violation, with PROT-0x0001 and the device address as the record holds it (R220, R225). -/
def capture (src : BitVec 32) (v : ViolRec) (s : State) : State :=
  raise 10 1 src (v.dev.setWidth 64) { s with prot := { s.prot with viol := v } }

/-- Source of a violation record (R225). -/
def violRecSource (v : ViolRec) : BitVec 32 :=
  if v.src = 0 then source 3 v.binding.toNat else source 4 v.inst.toNat

/-- A violation freezes the source, counts for the binding, and is captured with PROT-0x0001 or counted as later; of the
violations that find the record empty in one clock, the first by input xp and binding stands (R220 steps 2 and 4, R221). -/
def violation (m : Msg) (ring : Bool) (kind cause : Nat) (entry : Option Nat) (addr : BitVec 64) (s : State) : State :=
  let b := m.binding.toNat
  let s1 := violFreeze m s
  let s2 := { s1 with prot := { s1.prot with
      bindViol := tabSet 0 s1.prot.bindViol b (tabGet 0 s1.prot.bindViol b + 1) } }
  let v := violRec m ring kind cause entry addr s
  let old := s2.prot.viol
  if old.valid = false then capture (violRecSource v) v s2
  else if violNow old s2 && violBefore v old then capture (violRecSource v) { v with later := satAdd old.later 1 } s2
  else
    let first := match s2.prot.fresh with
      | some f => if violNow f s2 && violBefore f v then f else v
      | none => v
    { s2 with prot := { s2.prot with viol := { old with later := satAdd old.later 1 }, fresh := some first } }

/-- An uncorrectable entry raises PROT-0x0020 and stays bad until its reload (R222). -/
def entryUe (i : Nat) (s : State) : State :=
  if s.prot.badEntries.contains i then raise 10 0x20 (source 0 0) (BitVec.ofNat 64 i) s
  else raise 10 0x20 (source 0 0) (BitVec.ofNat 64 i)
    { s with prot := { s.prot with badEntries := s.prot.badEntries ++ [i] } }

end Sys2Proof.Machine
end

