-- ==== Sys2Proof/Machine/Access.lean ====
section
/-! DEFINITION. The decode pipeline: windows, bindings, extents, pages, migration steering, the check, the meter and
the route, for host requests and scribe lines alike (Bindings, Heddle Tables and Address Decode). -/

namespace Sys2Proof.Machine

open Sys2Proof

/-! ## The walk (R71) -/

/-- What a decode has computed so far; a field is none where its step was not reached. -/
structure Walk where
  /-- Miss cause of Table 3-7. -/
  miss : Option Nat
  /-- Binding state of a refusal. -/
  refused : Option Nat
  /-- Migration slot at whose stall queue the request waits. -/
  stall : Option Nat
  /-- Migration slot that counts the request as an old-side access. -/
  old : Option Nat
  binding : Option Nat
  /-- Extent index used. -/
  xe : Option Nat
  /-- Page entry index used. -/
  page : Option Nat
  feid : Option Nat
  dev : Option Nat
  proxy : Option Bool
  heat : Bool
  deriving DecidableEq, Repr

/-- A walk that has reached nothing. -/
def walk0 : Walk :=
  { miss := none, refused := none, stall := none, old := none, binding := none, xe := none, page := none,
    feid := none, dev := none, proxy := none, heat := false }

/-- Lowest valid window of logical port u that contains hpa (R63). -/
def windowOf (s : State) (u hpa : Nat) : Option Nat :=
  ((List.range 16).map fun w => 16 * u + w).find? fun i =>
    let w := tabGet 0 s.plan.active.window i
    winValid w && decide (winBase w ≤ hpa ∧ hpa < winBase w + winSpan w * 2 ^ 30)

/-- Whether the interleave bits of an offset equal the window's way (R64). -/
def wayOk (w : BitVec 256) (offset : Nat) : Bool :=
  decide (offset / 2 ^ (8 + winIg w) % 2 ^ winIw w = winWay w) || decide (winIw w = 0)

/-- The compacted offset (R64). -/
def compact (w : BitVec 256) (offset : Nat) : Nat :=
  let g := 8 + winIg w
  offset / 2 ^ (g + winIw w) * 2 ^ g + offset % 2 ^ g

/-- Steering of a migrating page by line (R83): FEID and base, or the slot whose stall queue it waits in; the flag
says whether the access goes to the old side. -/
def steer (s : State) (p : BitVec 256) (line : Nat) : Option (Nat × Nat × Bool) :=
  let m := migSlot s (pgSlot p)
  if line < m.watermark.toNat then some (pgNewFeid p, pgNewBase p, false)
  else if line < m.watermark.toNat + m.span.toNat then none
  else some (pgFeid p, pgBase p, true)

/-- decode_binding of R71, up to the check. -/
def decodeBinding (s : State) (b off : Nat) : Walk :=
  let c := ctx s b
  let w := { walk0 with binding := some b }
  if ctxState c ≠ 2 then { w with refused := some (ctxState c) }
  else if ctxExtCount c ≤ off / 2 ^ 30 then { w with miss := some 3 }
  else
    let xe := ctxExtFirst c + off / 2 ^ 30
    let e := tabGet 0 s.plan.active.extent xe
    let w := { w with xe := some xe }
    if extValid e = false then { w with miss := some 4 }
    else if extSplit e = false then
      { w with feid := some (extFeid e), dev := some (extBase e * 2 ^ 30 + off % 2 ^ 30),
               proxy := some (extProxy e), heat := extHeat e }
    else
      let pi := extBlock e * 512 + off / 2 ^ 21 % 512
      let p := pageEntry s pi
      let w := { w with page := some pi }
      if pgValid p = false ∨ s.plan.pageBad.contains pi then { w with miss := some 5 }
      else
        let w := { w with proxy := some (pgProxy p), heat := pgHeat p }
        if pgMig p then
          match steer s p (off / 64 % 2 ^ 15) with
          | none => { w with stall := some (pgSlot p) }
          | some (f, base, old) =>
            { w with feid := some f, dev := some (base + off % 2 ^ 21), old := if old then some (pgSlot p) else none }
        else { w with feid := some (pgFeid p), dev := some (pgBase p + off % 2 ^ 21) }

/-- decode of R71, for a host request on logical port u: the window, then the binding; with the compacted offset. -/
def decodeHost (s : State) (u hpa : Nat) : Walk × Nat :=
  match windowOf s u hpa with
  | none => ({ walk0 with miss := some 1 }, 0)
  | some i =>
    let w := tabGet 0 s.plan.active.window i
    let offset := hpa - winBase w
    if wayOk w offset then (decodeBinding s (winBinding w) (compact w offset), compact w offset)
    else ({ walk0 with miss := some 2 }, 0)

/-- Crossbar port of a decoded access: the proxy's for a proxied line, else the route entry's; none without a valid
route (R71). -/
def exitXp (s : State) (feid dev : Nat) (proxy : Bool) : Option Nat :=
  if proxy then some (56 + sliceOf (BitVec.ofNat 64 dev) / 2)
  else if rtValid (route s feid) feid then some (rtXp (route s feid)) else none

/-- A line of the page cache has the tag of page index pi (R69). -/
def pageTagged (s : State) (pi : Nat) : Bool :=
  decide (tabGet none s.plan.pageCache (pi % 262144) = some (BitVec.ofNat 5 (pi / 262144)))

/-- The page cache holds the entry of page index pi (R69); a line that is uncorrectable counts as a miss (15
Table 15-3). -/
def pageCached (s : State) (pi : Nat) : Bool := pageTagged s pi && !tableBad s 5 pi

/-- Decode needs no read of HBM for page index pi: the cache holds it, or an uncorrectable read has made it invalid
(R69, R70). -/
def pageKnown (s : State) (pi : Nat) : Bool := pageCached s pi || s.plan.pageBad.contains pi

/-- The page-cache line of pi replaced (R69). -/
def cachePage (pi : Nat) (s : State) : State :=
  let s1 := tableMend 5 pi s
  { s1 with plan := { s1.plan with
      pageCache := tabSet none s1.plan.pageCache (pi % 262144) (some (BitVec.ofNat 5 (pi / 262144))) } }

/-! ## Refusals -/

/-- Detail of a decode miss: the cause in [63:56] and the address below it (R72; log entry 26). -/
def missDetail (cause addr : Nat) : BitVec 64 := BitVec.ofNat 64 (cause * 2 ^ 56 + addr % 2 ^ 56)

/-- A decode miss raises HEDL-0x0020 with the logical port or the binding as its source (R72). -/
def decodeMiss (src : BitVec 32) (cause addr : Nat) (s : State) : State :=
  countErr 83 (raise 6 0x20 src (missDetail cause addr) s)

/-- A refusal by state increments the binding's refused-request counter (R72). -/
def refuseCount (b : Nat) (s : State) : State :=
  setBrun b { brun s b with refused := (brun s b).refused + 1 } s

/-- A request of a binding refused before it was counted: its error completion counts for the binding (Table 14-6). -/
def errCount (b : Nat) (s : State) : State :=
  let s := dumpEdge s
  setBindCnt b { bindCnt s b with err := (bindCnt s b).err + 1 } s

/-! ## From the check on -/

/-- Outcome of an access. -/
inductive Acc where
  /-- Forwarded, or waiting on a list of the device for its turn. -/
  | sent
  /-- Waiting in a migration stall queue or for a page entry. -/
  | waits
  /-- The stall queue is full, or a heddle word is being reloaded: not decoded. -/
  | blocked
  | miss (cause : Nat)
  | refused (st : Nat)
  | violated
  | protUe
  | redRefused
  deriving DecidableEq, Repr

/-- A write to the old side of a migrating page is counted by the slot's phase bit (R83). -/
def phaseUp (m : Msg) (old : Option Nat) (s : State) : Msg × State :=
  match old with
  | none => (m, s)
  | some k =>
    if isWrite m.op then
      let g := migSlot s k
      ({ m with phase := some (BitVec.ofNat 4 k, g.phase) },
       setMig k (if g.phase then { g with count1 := g.count1 + 1 } else { g with count0 := g.count0 + 1 }) s)
    else (m, s)

/-- The accepted request enters flight and goes on to output xp x (R71 enqueue, R76, R218, R346). -/
def forward (x : Nat) (m : Msg) (old : Option Nat) (heat : Bool) (s : State) : State :=
  let b := m.binding.toNat
  let p := phaseUp m old s
  let m1 := { p.1 with counted := true, epoch := s.prot.epoch, born := s.tele.time }
  let s1 := dumpEdge (epochEnter (if m.counted then p.2 else outstandingUp b p.2))
  let s2 := setBindCnt b { bindCnt s1 b with reqs := (bindCnt s1 b).reqs + 1 } s1
  let s3 := if heat || ctxHeat (ctx s b) then heatUp m.sa.toNat s2 else s2
  shape x m1 (countIn 83 m1 (countIn 85 m1 (trace m1 true x false s3)))

/-- The check, the meter and the route of an access whose walk gave a FEID and an address (R71, R215, R194). `addr` is
the address the violation record shows; `ring` marks a scribe ring access. -/
def accessTail (m : Msg) (old : Option Nat) (heat ring : Bool) (addr : BitVec 64) (ue : DecodeUe) (s : State) :
    Acc × State :=
  let s := trafSync s
  let b := m.binding.toNat
  let kind := accessKind m.op m.mv
  match protCheck s ue.prot b m.feid.toNat m.dev.toNat kind with
  | .ue i => (.protUe, entryUe i (if s.prot.badEntries.contains i then s else tableUe 9 i ue.word s))
  | .violate c i => (.violated, countErr 84 (violation m ring kind c i addr s))
  | .allow =>
    let s1 := if ue.meter then meterUe b ue.word s else s
    let q := meterReq m s1
    let r := traf s b
    if q.1 = .red ∧ tfRAct r = 2 ∧ ctxKind (ctx s b) = 0 then
      (.redRefused, raiseFree 9 1 (source 3 b)
        (setMeter b { meter q.2 b with refused := (meter q.2 b).refused + 1 } q.2))
    else
      match exitXp s m.feid.toNat m.dev.toNat m.proxy with
      | none => (.miss 6, decodeMiss (source 3 b) 6 addr.toNat q.2)
      | some x =>
        let m1 := { m with colour := q.1, sclass := BitVec.ofNat 3 (classOf r (ctxClass (ctx s b)) q.1) }
        (.sent, forward x m1 old heat q.2)

/-- The message of an access with what the walk gave it. -/
def walked (m : Msg) (w : Walk) (off : Nat) : Msg :=
  { m with binding := BitVec.ofNat 13 (w.binding.getD 0), feid := BitVec.ofNat 16 (w.feid.getD 0),
           dev := BitVec.ofNat 64 (w.dev.getD 0), proxy := w.proxy.getD false,
           sa := BitVec.ofNat 48 (w.xe.getD 0 * 2 ^ 30 + off % 2 ^ 30) }

/-- A request joins the stall queue of a migration slot, counted as outstanding, unless the queue of 256 is full
(R83, R76). -/
def stallAt (k : Nat) (m : Msg) (addr : BitVec 64) (off page : Nat) (s : State) : Acc × State :=
  let g := migSlot s k
  if 256 ≤ g.stall.length then (.blocked, s)
  else
    let s1 := if m.counted then s else outstandingUp m.binding.toNat s
    let d : Decoding :=
      { msg := { m with counted := true, born := s.tele.time }, addr := addr, off := BitVec.ofNat 64 off, page := page }
    (.waits, setMig k { migSlot s1 k with stall := g.stall ++ [d] } s1)

/-- A request waits for its page entry from HBM (R69). -/
def fetchPage (m : Msg) (addr : BitVec 64) (off page : Nat) (s : State) : State :=
  { s with plan := { s.plan with
      pageWait := s.plan.pageWait ++ [{ msg := m, addr := addr, off := BitVec.ofNat 64 off, page := page }] } }

/-- Entries of the on-die tables that a walk reads from its binding on, by section type and index: the binding, the
extent, the page-cache line and the route entry (R71). -/
def walkReads (s : State) (w : Walk) : List (Nat × Nat) :=
  (w.binding.map fun b => (3, b)).toList ++ (w.xe.map fun e => (4, e)).toList
    ++ ((w.page.filter (pageTagged s)).map fun p => (5, p)).toList
    ++ (if w.proxy = some false then (w.feid.map fun f => (1, f)).toList else [])

/-- Whether a walk reads an entry of a heddle bank that awaits its reload (15 R370); a page-cache line is read from HBM
instead (15 Table 15-3). -/
def readsBad (s : State) (w : Walk) : Bool := (walkReads s w).any fun k => decide (k.1 ≠ 5) && tableBad s k.1 k.2

/-- A decode reads entries `l` of the on-die tables: one that is uncorrectable, or that fails in this very read, waits
for its reload (15 R366, R370). -/
def badWord (l : List (Nat × Nat)) (ue : DecodeUe) (s : State) : State :=
  l.foldl (fun s k =>
    if tableBad s k.1 k.2 || decide (ue.heddle.map (fun p => (p.1.toNat, p.2.toNat)) = some k) then tableUe k.1 k.2 ue.word s
    else s) s

/-- An access of binding b at compacted offset `off`: the walk, then the tail (R71). A page entry that the page cache
does not hold is fetched first (R69). -/
def accessBinding (m : Msg) (b off : Nat) (ring : Bool) (src : BitVec 32) (addr : BitVec 64) (ue : DecodeUe)
    (s : State) : Acc × State :=
  let w := decodeBinding s b off
  let m1 := walked m w off
  let s := badWord (walkReads s w) ue s
  if readsBad s w then (.blocked, s)
  else
    match w.refused with
    | some st => (.refused st, refuseCount b s)
    | none =>
      match w.page, w.page.map (pageKnown s) with
      | some pi, some false => (.waits, fetchPage m1 addr off pi s)
      | _, _ =>
        match w.miss with
        | some c => (.miss c, decodeMiss src c addr.toNat s)
        | none =>
          match w.stall with
          | some k => stallAt k m1 addr off (w.page.getD 0) s
          | none => accessTail m1 w.old w.heat ring addr ue s

/-- A request that its port has stopped decoding waits in its receive buffer, and a scribe line at its engine
(R83, 15 R370). -/
def block (m : Msg) (addr : BitVec 64) (s : State) : State :=
  { s with plan := { s.plan with blocked := s.plan.blocked ++ [{ msg := m, addr := addr, off := 0, page := 0 }] } }

/-- First line number of a scribe access to a queue's rings: above every line of a descriptor. -/
def ringMark : Nat := 2 ^ 25 - 2

/-- A scribe access to a queue's rings in bslot 0 (R164). -/
def isRing (m : Msg) : Bool :=
  match m.req with
  | .engine _ _ _ l => decide (ringMark ≤ l % 2 ^ 25)
  | _ => false

/-- Status and detail of Table 7-6 of a line whose access fails; none where it is no halt. -/
def haltOf (a : Acc) (wr : Bool) : Option (Nat × Nat) :=
  match a with
  | .miss c => some (3, c)
  | .refused st => some (3, 0x10 + st)
  | .violated => some (1, nb wr)
  | _ => none

/-- What a line's completion tells its engine of a halt: bit 15, the status, the detail. -/
def haltTag (h : Nat × Nat) : BitVec 16 := BitVec.ofNat 16 (2 ^ 15 + h.1 * 256 + h.2)

/-- A request that was not forwarded ends: a scribe line returns to its engine with its halt, any other request gets
the error completion and counts for its binding; one that was counted leaves its binding's count (R72, R176). -/
def endAccess (m : Msg) (b : Nat) (a : Acc) (s : State) : State :=
  let s1 := if m.counted then outstandingDown b s else s
  let m1 := { m with counted := false, phase := none }
  match m.req, haltOf a (isWrite m.op) with
  | .engine .., some h => sendTo { completionMsg m1 .cmp .noOp 0 false with tag := haltTag h } true s1
  | .engine .., none => errorCompletion m1 s1
  | _, _ => errCount b (errorCompletion m1 s1)

/-- What becomes of a request after its access (R72, R220, R222, R199). -/
def outcome (m : Msg) (b : Nat) (addr : BitVec 64) (r : Acc × State) : State :=
  match r.1 with
  | .sent | .waits => r.2
  | .blocked => block m addr r.2
  | .miss _ | .refused _ | .violated | .protUe | .redRefused => endAccess m b r.1 r.2

/-- A host request on logical port u is decoded (R71): the sixteen window words of its port are read together, and one
that awaits its reload stops the port's requests (15 R370). -/
def hostAccess (m : Msg) (u : Nat) (hpa : BitVec 64) (ue : DecodeUe) (s : State) : State :=
  let ws := (List.range 16).map fun w => (2, 16 * u + w)
  let s := badWord ws ue s
  if ws.any fun k => tableBad s k.1 k.2 then block m hpa s else
  match windowOf s u hpa.toNat with
  | none => errorCompletion m (decodeMiss (source 1 u) 1 hpa.toNat s)
  | some i =>
    let w := tabGet 0 s.plan.active.window i
    let offset := hpa.toNat - winBase w
    let b := winBinding w
    if wayOk w offset then
      outcome { m with binding := BitVec.ofNat 13 b } b hpa
        (accessBinding m b (compact w offset) false (source 1 u) hpa ue s)
    else errorCompletion m (decodeMiss (source 1 u) 2 hpa.toNat s)

/-- A host whose port's REQ class has stopped decoding: a request of its port waits in `blocked`. -/
def portBlocked (s : State) (u : Nat) : Bool :=
  s.plan.blocked.any fun d => decide (d.msg.req = .host (BitVec.ofNat 7 u))

/-- A heddle or control domain is not ON: decode and the protection check wait for it (17 R400, R411, R417). -/
def decodeOff (s : State) : Bool :=
  [186, 187, 188, 189, 190].any fun d => decide ((domain s d).st ≠ .on) || decide ((domain s d).step ≠ 0)
    || (domain s d).reload

/-- A host request as its port presents it: it waits behind requests its port has stopped decoding. -/
def hostRequest (m : Msg) (u : Nat) (hpa : BitVec 64) (ue : DecodeUe) (s : State) : State :=
  if portBlocked s u || decodeOff s then block m hpa s else hostAccess m u hpa ue s

/-- No uncorrectable read. -/
def noUe : DecodeUe := { prot := none, meter := false, heddle := none, word := 0 }

/-- A scribe access of its message's binding at compacted offset `off` (R164, R165). -/
def lineAccess (m : Msg) (off : BitVec 64) (ue : DecodeUe) (s : State) : Acc × State :=
  if decodeOff s then (.blocked, s)
  else accessBinding m m.binding.toNat off.toNat (isRing m) (source 3 m.binding.toNat) off ue s

/-- The blocked requests are presented again, in order (R83, 15 R370). -/
def unblock (s : State) : State :=
  s.plan.blocked.foldl
    (fun s d => match d.msg.req with
      | .host u => hostRequest d.msg u.toNat d.addr noUe s
      | _ => outcome d.msg d.msg.binding.toNat d.addr (lineAccess d.msg d.addr noUe s))
    { s with plan := { s.plan with blocked := [] } }

/-! ## Requests that waited -/

/-- A request released from a stall queue goes to the new side (`toNew`) or to the old one, and is checked then, under
the epoch current then (R84, R86, R216); a host's whose binding a violation froze before its check is a refusal by state
(09 R220). -/
def releaseOne (toNew : Bool) (d : Decoding) (s : State) : State :=
  let p := pageEntry s d.page
  let m := { d.msg with
    feid := BitVec.ofNat 16 (if toNew then pgNewFeid p else pgFeid p)
    dev := BitVec.ofNat 64 ((if toNew then pgNewBase p else pgBase p) + d.off.toNat % 2 ^ 21) }
  let b := m.binding.toNat
  outcome m b d.addr (if bstate s b = 3 ∧ (brun s b).violated ∧ violSrc m false = 0 then (.refused 3, refuseCount b s) else
    accessTail m (if toNew then none else some (pgSlot p)) (pgHeat p) (isRing m) d.addr noUe s)

/-- The whole stall queue of slot k is released in arrival order; ports that had stopped decoding go on (R84 step 4,
R86, R83). -/
def releaseStall (toNew : Bool) (k : Nat) (s : State) : State :=
  let q := (migSlot s k).stall
  unblock (q.foldl (fun s d => releaseOne toNew d s) (setMig k { migSlot s k with stall := [] } s))

/-- The stall queue of slot k completes in error (R88): as a decode miss with cause PAGE_INVALID where `missed`, else with
the error completion alone. -/
def failStall (missed : Bool) (k : Nat) (s : State) : State :=
  let q := (migSlot s k).stall
  unblock (q.foldl
    (fun s d =>
      let b := d.msg.binding.toNat
      if missed then endAccess d.msg b (.miss 5) (decodeMiss (source 3 b) 5 d.addr.toNat s)
      else endAccess d.msg b .protUe s)
    (setMig k { migSlot s k with stall := [] } s))

end Sys2Proof.Machine
end

