-- ==== Sys2Proof/Machine/Holding.lean ====
section
/-! DEFINITION. Shared operations of holding: the bindings a down port affects, their hold timers, detaching, entering
ACTIVE, and the trigger queue of the heddle block (Bindings, Heddle Tables and Address Decode; Weave Plans). -/

namespace Sys2Proof.Machine

open Sys2Proof

/-! ## Which bindings a port affects (R66, R80) -/

/-- A CXL downstream port of xp x has been declared down, or its loom's link to the core has, and has not returned
(R80, 04 R113). -/
def dspDown (s : State) (x : Nat) : Bool :=
  [2 * x, 2 * x + 1].any fun u =>
    decide ((port s u).role = 2)
    && ((port s u).isDown || decide ((tabGet LoomLink.init s.xbar.looms (x / 6)).st ≠ .up))

/-- The xps 0 to 47 of binding b's target_mask whose downstream port is down. -/
def downTargets (s : State) (b : Nat) : List Nat :=
  (List.range 48).filter fun x => bit (ctxTargets (ctx s b)) x && dspDown s x

/-- Bindings whose target_mask has bit x, in ascending number. -/
def bindingsOf (s : State) (x : Nat) : List Nat :=
  (tabKeys s.plan.active.binding).filter fun b => bit (ctxTargets (ctx s b)) x

/-- The binding can hold requests: ACTIVE, FROZEN or DRAINING (R80). -/
def canHold (s : State) (b : Nat) : Bool := decide (bstate s b = 2 ∨ bstate s b = 3 ∨ bstate s b = 5)

/-- Held requests of binding b leave output x with the error completion (R80, R124). -/
def purgeBinding (b x : Nat) (s : State) : State :=
  purge (fun m => m.counted && decide (m.binding.toNat = b) && isRequest m.op) x s

/-- Every request that binding b holds for an output that is HELD completes in error (R76, R89). -/
def forceHeld (b : Nat) (s : State) : State :=
  (List.range 56).foldl (fun s x => if (output s x).st = .held then purgeBinding b x s else s) s

/-- Binding b enters DETACHED: what it holds, for whatever output, completes in error, and it runs no hold timer (R80,
Table 3-10). -/
def detach (b : Nat) (s : State) : State :=
  let s1 := setBstate b 4 (forceHeld b s)
  setBrun b { brun s1 b with holdStart := none, expired := false } s1

/-- The hold timer of binding b reaches its limit (R80): held requests for down ports complete in error, HEDL-0x0023 is
raised, and an ACTIVE binding enters DETACHED. A timer that stays expired completes what a thawed binding holds and
detaches it, with no second fault. -/
def expireHold (b : Nat) (s : State) : State :=
  let again := (brun s b).expired
  let s1 := (downTargets s b).foldl (fun s x => purgeBinding b x s) s
  let s2 := if again then s1 else raiseFree 6 0x23 (source 3 b) s1
  if bstate s2 b = 2 then detach b s2
  else if canHold s2 b then setBrun b { brun s2 b with expired := true } s2
  else s2

/-- The hold timer of binding b starts, unless it runs; a limit of 0 expires at once (R80). -/
def startHold (b : Nat) (s : State) : State :=
  if canHold s b && decide ((brun s b).holdStart = none) then
    let s1 := setBrun b { brun s b with holdStart := some s.tele.time } s
    if ctxHold (ctx s b) = 0 then expireHold b s1 else s1
  else s

/-- The hold timers that the down declaration of a port at xp x starts (R80). -/
def startHolds (x : Nat) (s : State) : State :=
  if dspDown s x then (bindingsOf s x).foldl (fun s b => startHold b s) s else s

/-- The timers of the bindings of xp x whose down ports have all returned stop (R80). -/
def stopHolds (x : Nat) (s : State) : State :=
  (bindingsOf s x).foldl
    (fun s b => if downTargets s b = [] then
        setBrun b { brun s b with holdStart := none, expired := false } s
      else s) s

/-- A port or link at xp x returned with another identity (R80): held requests for x complete in error, ACTIVE bindings
enter DETACHED, and HEDL-0x0024 is raised once where any did, with their count. -/
def detachFor (x : Nat) (src : BitVec 32) (s : State) : State :=
  let bs := bindingsOf s x
  let hit := bs.filter fun b => decide (bstate s b = 2)
  let s1 := (bs.filter fun b => canHold s b).foldl (fun s b => purgeBinding b x s) s
  let s2 := hit.foldl (fun s b => if bstate s b = 2 then detach b s else s) s1
  if hit = [] then s2 else raise 6 0x24 src (BitVec.ofNat 64 hit.length) s2

/-- Binding b enters ACTIVE from a state in which it held nothing: full buckets (R201), and its hold timer where a
downstream port of its targets is down (R80). -/
def activateBinding (b : Nat) (s : State) : State :=
  let s1 := fillBuckets b (setBstate b 2 s)
  let s2 := setBrun b { brun s1 b with activateAt := none } s1
  if downTargets s2 b = [] then s2 else startHold b s2

/-! ## Trigger conditions (R51, R54, R57) -/

/-- A condition waits for its lookup: a resource of classes 0 to 4 holds at most one queued condition, a NOTICE as many
as arrive (R54). -/
def pushTrigger (cls idx : Nat) (s : State) : State :=
  let t : Trigger := { cls := BitVec.ofNat 8 cls, index := BitVec.ofNat 8 idx, stamp := s.tele.time }
  if cls < 5 ∧ s.plan.trigQ.any (fun q => decide (q.cls = t.cls) && decide (q.index = t.index)) then s
  else { s with plan := { s.plan with trigQ := s.plan.trigQ ++ [t] } }

/-- The chain with the stable period of a failed resource stopped (R55). -/
def chainFailed (cls idx : Nat) (l : List ChainLink) : List ChainLink :=
  l.map fun c => if c.cls.toNat = cls ∧ c.index.toNat = idx then { c with upSince := none } else c

/-- The chain with the stable period of a recovered resource started (R55). -/
def chainUp (cls idx : Nat) (t : BitVec 64) (l : List ChainLink) : List ChainLink :=
  l.map fun c => if c.cls.toNat = cls ∧ c.index.toNat = idx ∧ c.upSince = none then { c with upSince := some t } else c

/-- A resource of trigger class 0 to 4 fails: its condition is present and waits for its lookup (R51, R54). -/
def trigger (cls idx : Nat) (s : State) : State :=
  let t : Trigger := { cls := BitVec.ofNat 8 cls, index := BitVec.ofNat 8 idx, stamp := s.tele.time }
  let others := s.plan.present.filter fun q => !(decide (q.cls = t.cls) && decide (q.index = t.index))
  pushTrigger cls idx { s with plan := { s.plan with
    present := others ++ [t], chain := chainFailed cls idx s.plan.chain } }

/-- A resource of trigger class 0 to 4 has recovered. -/
def triggerGone (cls idx : Nat) (s : State) : State :=
  { s with plan := { s.plan with
      present := s.plan.present.filter fun q => !(decide (q.cls.toNat = cls) && decide (q.index.toNat = idx))
      chain := chainUp cls idx s.tele.time s.plan.chain } }

end Sys2Proof.Machine
end

