-- ==== Sys2Proof/Machine/Nib.lean ====
section
/-! DEFINITION. Nib commands: acceptance, authorisation, replies and tickets (Management Core and Nib Mailboxes). -/

namespace Sys2Proof.Machine

open Sys2Proof

/-! ## Requesters (R308 to R311) -/

/-- Owner mailbox m. -/
def mbx (s : State) (m : Nat) : Mailbox := tabGet Mailbox.init s.mgmt.mbx m
/-- The state with owner mailbox m replaced. -/
def setMbx (m : Nat) (b : Mailbox) (s : State) : State :=
  { s with mgmt := { s.mgmt with mbx := tabSet Mailbox.init s.mgmt.mbx m b } }

/-- A write of 1 to mailbox `m`'s `done`: it is cleared, but a completion that sets it at this same fabric time prevails
(00 R11, 13 §13.4.1). -/
def doneClear (m : Nat) (s : State) : State :=
  setMbx m { mbx s m with done := decide ((mbx s m).done = true ∧ (mbx s m).doneAt = some s.tele.time) } s

/-- A trusted transport (R309). -/
def trusted (s : State) (t : Transport) : Bool :=
  match t with
  | .i3c _ => true
  | .vdm u => bit s.boot.board.ownerMask u.toNat
  | .weft n => bit s.boot.board.trustedLinks n.toNat

/-- The requester holds owner level (Table 13-1). -/
def isOwner (s : State) (q : ReqSrc) : Bool :=
  match q with
  | .mailbox _ => true
  | .mctp t _ => trusted s t

/-- The requester holds maker level (R310). -/
def isMaker (s : State) (q : ReqSrc) : Bool :=
  isOwner s q && (decide (s.sealu.lc = .blank)
    || ((decide (s.sealu.lc = .maker) || decide (s.sealu.lc = .returned)) && decide (s.mgmt.maker = some q)))

/-- Largest response of a requester's transport, header included (Table 13-2). -/
def maxResponse (q : ReqSrc) : Nat :=
  match q with
  | .mailbox _ => 65536
  | .mctp _ _ => 8192

/-- Life-cycle state as Table 19-1 numbers it. -/
def lcNum (l : Lc) : Nat :=
  match l with
  | .blank => 0 | .maker => 1 | .sealed => 2 | .owned => 3 | .returned => 4 | .spent => 5

/-- Whether the life-cycle state allows an opcode (Table 19-5, 16 R392, 19 R466). -/
def lcAllows (l : Lc) (op : Nat) : Bool :=
  match l with
  | .spent => decide (op / 256 = 1) || decide (op = 0x0E01)
  | .blank => decide (op / 256 ≠ 0x0F) && decide (op ≠ 0x0201) && decide (op ≠ 0x0E0A) && decide (op ≠ 0x0E0B)
      && decide (op ≠ 0x0E0E)
  | .maker => decide (op ≠ 0x0E0D)
  | .sealed => decide (op / 256 ≠ 0x0F) && decide (op ≠ 0x0201) && decide (op ≠ 0x0E0D) && decide (op ≠ 0x0E0E)
  | _ => decide (op ≠ 0x0E0D) && decide (op ≠ 0x0E0E)

/-! ## Acceptance (R313, R320) -/

/-- What acceptance of a command answers: carried on with, or ended. -/
inductive Accept where
  | go (s : State)
  | stop (s : State)

/-- A go write while busy or done is ignored and counted (R313). -/
def overrun (m : Nat) (s : State) : State :=
  raiseFree 13 0x20 (source 13 0) (setMbx m { mbx s m with overrun := satAdd (mbx s m).overrun 1 } s)

/-- Whether a command of the mailbox or the transport is the one accepted: its opcode, its tag, and a payload that begins
with the bytes its row carries. -/
def sameCmd (op : Nat) (tag : BitVec 16) (p : List Byte) (op' tag' : BitVec 16) (p' : List Byte) : Bool :=
  decide (op'.toNat = op) && decide (tag' = tag) && p.isPrefixOf p'

/-- The command in hand of an MCTP requester, where it is this one. -/
def mctpFind (s : State) (op : Nat) (r : Req) (p : List Byte) : Option MctpPending :=
  match r.src with
  | .mailbox _ => none
  | .mctp t e => s.mgmt.mctpWait.find? fun k =>
      decide (k.src = t) && decide (k.eid = e) && sameCmd op r.tag p k.opcode k.tag k.payload

/-- A response leaves: into the mailbox, or on its MCTP transport, where the command stops waiting (R306, R313). -/
def respond (r : Req) (op : Nat) (p : List Byte) (q : Reply) (s : State) : State :=
  match r.src with
  | .mailbox m =>
    setMbx m.toNat { mbx s m.toNat with accepted := none, answer := some (BitVec.ofNat 16 op, r.tag, q) } s
  | .mctp t e =>
    match mctpFind s op r p with
    | none => emit (.nib t e 0 (BitVec.ofNat 16 op) r.tag q.status q.detail q.payload) s
    | some k =>
      emit (.nib t e k.mtag (BitVec.ofNat 16 op) r.tag q.status q.detail q.payload)
        { s with mgmt := { s.mgmt with mctpWait := s.mgmt.mctpWait.erase k } }

/-- A command is accepted, unless MAILBOX_GO or the last MCTP packet has done so before (log entry 10). -/
def accept (r : Req) (op : Nat) (p : List Byte) (s : State) : Accept :=
  match r.src with
  | .mailbox m =>
    let b := mbx s m.toNat
    if b.busy then
      match b.accepted with
      | some (o, t, q) => if sameCmd op r.tag p o t q then .go s else .stop s
      | none => .stop s
    else if b.done then .stop (overrun m.toNat s)
    else .go (setMbx m.toNat { b with go := true, busy := true, accepted := some (BitVec.ofNat 16 op, r.tag, p) } s)
  | .mctp t e =>
    if (mctpFind s op r p).isSome then .go s
    else if 64 ≤ s.mgmt.mctpWait.length then .stop (respond r op p (rep 2) s)
    else .go { s with mgmt := { s.mgmt with
        mctpWait := s.mgmt.mctpWait ++ [{ src := t, eid := e, mtag := 0, opcode := BitVec.ofNat 16 op, tag := r.tag,
                                          payload := p }] } }

/-! ## Checks (R318) -/

/-- The hardware responder's answer while firmware is not RUNNING: HW_FAULT when HALTED, BUSY otherwise (R504). -/
def hwReply (s : State) : Reply := if s.mgmt.fw = .halted then rep 0x60 else rep 2

/-- Opcodes that safe-stop leaves answered: families 0x01 and 0x0B, POWER_STATUS and POWER_STATE_SET (R385). -/
def safeStopAllows (op : Nat) : Bool :=
  decide (op / 256 = 1) || decide (op / 256 = 0x0B) || decide (op = 0x0C01) || decide (op = 0x0C02)

/-- The failure of a command's level, life-cycle state or safe-stop, if one fails (R308, R318 step 3, R385). -/
def gate (op : Nat) (maker : Bool) (r : Req) (s : State) : Option Reply :=
  if isOwner s r.src = false then some (rep 0x20 1)
  else if maker ∧ isMaker s r.src = false then some (rep 0x20 2)
  else if lcAllows s.sealu.lc op = false then some (rep 0x21 (lcNum s.sealu.lc))
  else if s.fault.safeStop ∧ safeStopAllows op = false then some (rep 0x60)
  else none

/-- Families answered in DOZE and during staged entry without waking the device (R406, R415). -/
def quietFamily (op : Nat) : Bool := decide (op / 256 = 1) || decide (op / 256 = 0x0C)

/-- A maker-only command starts maker level's 30 minutes again (R310). -/
def makerTouch (maker : Bool) (s : State) : State :=
  if maker then { s with mgmt := { s.mgmt with makerSince := s.aon } } else s

/-- A command accepted in DOZE wakes the device and runs after RUN is reached; it stays accepted, and its row carries
it out then (R415; log entry 10). During staged entry it aborts the entry
first where COMMAND is set, and runs once the rollback is complete (R406). -/
def nibPower (op : Nat) (s : State) : Accept :=
  if quietFamily op then .go s
  else if s.pmu.entering then
    let s1 := wakeBy 0 0 s
    if s1.pmu.rolling then .stop s1 else .go s1
  else if s.pmu.st = .doze then .stop (wakeBy 0 0 s)
  else if s.pmu.rolling then .stop s
  else .go s

/-- The boot ROM hears a requester: it is on I3C port 0, in every life-cycle state except SPENT (20 R476). -/
def romHears (r : Req) (s : State) : Bool :=
  match r.src with
  | .mctp (.i3c p) _ => decide (p = 0) && decide (s.sealu.lc ≠ .spent)
  | _ => false

/-- The commands that the boot ROM implements while it waits for a recovery image (20 R476). -/
def romOp (op : Nat) : Bool := decide (op = 0x0101) || decide (op = 0x0F10) || decide (op = 0x0F11)

/-- A Nib command while the boot ROM waits for a recovery image (20 R476). -/
def nibRom (op : Nat) (r : Req) (p : List Byte) (body : State → Reply × State) (s : State) : State :=
  if romHears r s then
    match accept r op p s with
    | .stop s1 => s1
    | .go s1 =>
      if romOp op then respond r op p (body s1).1 (body s1).2 else respond r op p (rep 0x10) s1
  else s

/-- A Nib command: acceptance, the responder while firmware is not RUNNING, the checks of R318, the body, the response.
In STANDBY, and in safe-stop while firmware is not RUNNING, nothing answers (R385, R504, 17 Table 17-9).
A body answers a reply and the state after it, the same state for a status that changes nothing. A response too large
for its transport returns BAD_LENGTH and the command has no effect (R311). -/
def nib (op : Nat) (maker : Bool) (r : Req) (p : List Byte) (body : State → Reply × State) (s : State) : State :=
  if s.boot.held then s
  else if s.boot.stage = 7 then nibRom op r p body s
  else match accept r op p s with
  | .stop s1 => s1
  | .go s1 =>
    if s1.pmu.st = .standby ∨ (s1.mgmt.fw ≠ .running ∧ s1.fault.safeStop) then s1
    else if s1.mgmt.fw ≠ .running then respond r op p (hwReply s1) s1
    else
      match nibPower op s1 with
      | .stop s2 => s2
      | .go s2 =>
        match gate op maker r s2 with
        | some e => respond r op p e s2
        | none =>
          let q := body (makerTouch maker s2)
          if maxResponse r.src < 16 + q.1.payload.length then respond r op p (rep 0x11 (maxResponse r.src)) s2
          else respond r op p q.1 q.2

/-! ## Tickets (R321) -/

/-- The ticket number after `t`: 1 to 65,535, wrapping. -/
def ticketAfter (t : BitVec 16) : BitVec 16 := if t = 0xFFFF then 1 else t + 1

/-- The first number from `t` on that no held ticket has, looking at `n` numbers. -/
def freeTicket (s : State) : Nat → BitVec 16 → BitVec 16
  | 0, t => t
  | n + 1, t => if s.mgmt.tickets.any (fun k => k.num = t) then freeTicket s n (ticketAfter t) else t

/-- Ticket number the next PENDING takes. -/
def nextTicketNum (s : State) : BitVec 16 := freeTicket s 256 s.mgmt.nextTicket

/-- The state with a ticket held for a command. -/
def holdTicket (op : Nat) (r : Req) (s : State) : State :=
  let t := nextTicketNum s
  { s with mgmt := { s.mgmt with
      tickets := s.mgmt.tickets ++ [{ num := t, opcode := BitVec.ofNat 16 op, tag := r.tag, result := none }]
      nextTicket := ticketAfter t } }

/-- A command that pends: NO_RESOURCE while 256 tickets are held, else PENDING with its ticket, after `f` has started
its work with that ticket (R306, R321). -/
def pend (op : Nat) (r : Req) (f : BitVec 16 → State → State) (s : State) : Reply × State :=
  if 256 ≤ s.mgmt.tickets.length then (rep 0x30, s)
  else (rep 1 (nextTicketNum s).toNat, f (nextTicketNum s) (holdTicket op r s))

/-- BAD_FIELD with the payload offset of the first bad field. -/
def badField (off : Nat) : Reply := rep 0x12 off

end Sys2Proof.Machine
end

