-- ==== Sys2Proof/Machine/SealOps.lean ====
section
/-! DEFINITION. Shared operations of the seal unit: keys, the colophon, tokens and the security configuration (Seal
Unit, Life Cycle and the Colophon). -/

namespace Sys2Proof.Machine

open Sys2Proof

/-! ## Keys (R453, R455) -/

/-- 64 bytes of KDF(k, label, ctx): HKDF with SHA-384, salt 0 and label and ctx as info; the extract and the two expand
blocks are those of RFC 5869 (PRESUMED, log entry 6). -/
def kdf (k label ctx : List Byte) : List Byte :=
  let prk := wBytes 48 (Config.hmac (zeros 48) k)
  let t1 := wBytes 48 (Config.hmac prk (label ++ ctx ++ [1]))
  (t1 ++ wBytes 48 (Config.hmac prk (t1 ++ label ++ ctx ++ [2]))).take 64

/-- Order n of P-384 (PRESUMED, FIPS 186; log entry 6). -/
def p384Order : Nat :=
  0xFFFFFFFFFFFFFFFFFFFFFFFFFFFFFFFFFFFFFFFFFFFFFFFFC7634D81F4372DDF581A0DB248B0A77AECEC196ACCC52973

/-- Prime of P-384's field (PRESUMED, FIPS 186; log entry 6). -/
def p384Prime : Nat := 2 ^ 384 - 2 ^ 128 - 2 ^ 96 + 2 ^ 32 - 1

/-- b of P-384's equation y² = x³ − 3x + b (PRESUMED, FIPS 186; log entry 6). -/
def p384B : Nat :=
  0xB3312FA7E23EE7E4988E056BE3F82D19181D9C6EFE8141120314088F5013875AC656398D8A2ED19D2A85C8EDD3EC2AEF

/-- A 97-byte key is a valid uncompressed P-384 point: 0x04, X, Y on the curve (R455). -/
def keyPoint (key : BitVec 776) : Bool :=
  let bs := wBytes 97 key
  let x := beAt bs 1 48
  let y := beAt bs 49 48
  decide (leAt bs 0 1 = 4) && decide (x < p384Prime) && decide (y < p384Prime)
  && decide ((y * y + 3 * x) % p384Prime = (x * x * x + p384B) % p384Prime)

/-- The private scalar of 64 KDF bytes: big-endian c, d = c mod (n − 1) + 1 (R453). -/
def scalarOf (bs : List Byte) : BitVec 384 := BitVec.ofNat 384 (beAt bs 0 64 % (p384Order - 1) + 1)

/-- The 32 bytes of the UDS. -/
def udsKey (s : State) : List Byte := wBytes 32 s.sealu.uds
/-- The 8 bytes of the device serial number. -/
def serialBytes (s : State) : List Byte := wBytes 8 s.boot.serial
/-- DeviceID private key; the label is "DeviceID" in ASCII. -/
def deviceIdKey (s : State) : BitVec 384 :=
  scalarOf (kdf (udsKey s) [0x44, 0x65, 0x76, 0x69, 0x63, 0x65, 0x49, 0x44] (serialBytes s))
/-- CDI: over ROM version, firmware digest, board table digest, life-cycle state and debug flags. -/
def cdi (s : State) : BitVec 384 :=
  Config.hmac (udsKey s) (wBytes 48 (Config.sha384
    (wBytes 4 Config.romVersion ++ wBytes 48 s.sealu.fwDigest ++ wBytes 48 s.sealu.btDigest
      ++ [BitVec.ofNat 8 (lcNum s.sealu.lc), s.sealu.dbg.setWidth 8])))
/-- Alias private key; the label is "Alias" in ASCII. -/
def aliasKey (s : State) : BitVec 384 :=
  scalarOf (kdf (wBytes 48 (cdi s)) [0x41, 0x6C, 0x69, 0x61, 0x73] (serialBytes s))

/-- Plan key slot k as the life-cycle state gives it: owner keys in OWNED, the maker test key in slot 0 in MAKER and
RETURN (R455). -/
def planKeyAt (s : State) (k : Nat) : Option (BitVec 776) :=
  match s.sealu.lc with
  | .owned => if k < 4 then tabGet none s.sealu.planKeys k else none
  | .maker | .returned => if k = 0 then some Config.testKey else none
  | _ => none

/-- plan_keys: bit k set where slot k holds a key. -/
def planKeyMask (s : State) : Nat :=
  (List.range 4).foldl (fun n k => n + nb (planKeyAt s k).isSome * 2 ^ k) 0

/-- Digest in the current owner slot, 0 outside an ownership. -/
def ownerDigest (s : State) : BitVec 384 :=
  if s.sealu.lc = .owned then (tabGet none s.sealu.ownerSlots s.sealu.ownerSlot.toNat).getD 0 else 0

/-- Owner seed, under which the plan-signing key store is sealed; the label is "Owner" in ASCII (Table 19-6, R455). -/
def ownerSeed (s : State) : List Byte :=
  (kdf (udsKey s) [0x4F, 0x77, 0x6E, 0x65, 0x72] (wBytes 48 (ownerDigest s) ++ wBytes 1 s.sealu.ownerSlot)).take 32

/-- Security configuration digest of SPDM index 4 (Table 19-10). -/
def securityDigest (s : State) : BitVec 384 :=
  Config.sha384 ([BitVec.ofNat 8 (lcNum s.sealu.lc), s.sealu.claims.setWidth 8, s.sealu.dbg.setWidth 8]
    ++ wBytes 48 (ownerDigest s)
    ++ ((List.range 4).map fun k => match planKeyAt s k with
        | some key => wBytes 48 (Config.sha384 (wBytes 97 key))
        | none => zeros 48).flatten)

/-! ## Debug and test access (R452) -/

/-- Debug flags that a state lets be in force (Table 19-5; log entry 139). -/
def debugMask (l : Lc) : BitVec 4 :=
  match l with
  | .owned => 3
  | .maker | .returned => 15
  | _ => 0

/-- The path of debug flag k is open: 0 JTAG boundary scan, 1 UART output, 2 JTAG core debug and UART input, 3 scan and DFT
test (Table 19-5). A closed path's pins are inert. -/
def pathOpen (s : State) (k : Nat) : Bool :=
  match s.sealu.lc with
  | .blank => decide (k < 4)
  | .maker | .returned => decide (k < 2) || (decide (k < 4) && bit s.sealu.dbg k)
  | .sealed => decide (k < 2)
  | .owned => decide (k < 2) && bit s.sealu.dbg k
  | .spent => false

/-! ## Colophon records (R457, R458, R460) -/

/-- First part of a record, over which its chain digest is taken: bytes 0x000 to 0x17F (Table 19-7). -/
def coloHead (a : Append) (seq : BitVec 64) (boot : BitVec 32) (flags : BitVec 32) (prev : BitVec 384) : List Byte :=
  wBytes 4 (0x4F4C4F43#32) ++ wBytes 2 (1#16) ++ wBytes 2 a.kind ++ wBytes 8 seq ++ wBytes 4 boot ++ wBytes 4 flags
  ++ wBytes 8 a.stamp ++ wBytes 48 prev ++ wBytes 48 a.subject ++ leBytes 2 a.payload.length ++ zeros 14
  ++ a.payload ++ zeros (240 - a.payload.length)

/-- flags of a record: GENESIS and BROKEN give prev 0; DEBUG in every record of a boot with a debug flag in force. -/
def coloFlags (s : State) (a : Append) : BitVec 32 := if s.sealu.dbg = 0 then a.flags else a.flags ||| 4#32

/-- prev of the next record. -/
def coloPrev (s : State) (a : Append) : BitVec 384 :=
  if bit a.flags 0 || bit a.flags 1 || !s.sealu.hasHead then 0 else s.sealu.headDigest

/-- The record's own chain digest. -/
def coloDigest (s : State) (a : Append) : BitVec 384 :=
  Config.sha384 (coloHead a s.sealu.nextSeq s.sealu.boot (coloFlags s a) (coloPrev s a))

/-- The signing key of a record: DeviceID for BOOT, the alias key otherwise (Table 19-8). -/
def coloKey (s : State) (a : Append) : BitVec 384 := if a.kind = 1 then deviceIdKey s else aliasKey s

/-- The whole record, 512 bytes. -/
def coloBytes (s : State) (a : Append) : List Byte :=
  let body := coloHead a s.sealu.nextSeq s.sealu.boot (coloFlags s a) (coloPrev s a)
    ++ (wBytes 48 (Config.sha384 (wBytes 97 (Config.publicKey (coloKey s a))))).take 8 ++ zeros 8
  body ++ wBytes 96 (Config.sign (coloKey s a) body) ++ zeros 16

/-- The ring with sector of the next slot erased as the next slot reaches its start (R460). -/
def eraseAhead (next slots : Nat) (r : Tab (Option ColoRec)) : Tab (Option ColoRec) :=
  if next % 128 = 0 then tabFilter (fun k _ => !decide (k / 128 = next % slots / 128)) r else r

/-- A record is signed, programmed and read back: it becomes the head (R458). -/
def appended (a : Append) (s : State) : State :=
  let seq := s.sealu.nextSeq
  let slots := s.boot.flash.ringSlots.toNat
  let ring := tabSet none s.sealu.ring (seq.toNat % slots) (some { seq := seq, bytes := coloBytes s a })
  { s with sealu := { s.sealu with
      ring := eraseAhead (seq.toNat + 1) slots ring
      headSeq := seq, headDigest := coloDigest s a, hasHead := true, nextSeq := seq + 1, ringFault := false } }

/-- DEVICE_ATTACHED is queued after the DEVICE record's append (R459, Table 13-7). -/
def afterAppend (a : Append) (s : State) : State :=
  if a.kind = 6 then
    queueEvent 4 (BitVec.ofNat 128 (leAt a.payload 0 1 + leAt a.payload 4 8 * 2 ^ 64)) s
  else s

/-- An append fails: SEAL-0x0010 (R459). -/
def appendFailed (s : State) : State := raiseFree 14 0x10 (source 0 0) s

/-- An append begins; it completes at COLOPHON_APPEND_DONE (R458). -/
def beginAppend (a : Append) (s : State) : State :=
  { s with sealu := { s.sealu with appends := s.sealu.appends ++ [a] } }

/-- The oldest append in progress ends, with or without success. -/
def endAppend (good : Bool) (s : State) : State :=
  match s.sealu.appends with
  | [] => s
  | a :: rest =>
    let s1 := { s with sealu := { s.sealu with appends := rest } }
    if good then afterAppend a (appended a s1) else appendFailed s1

/-- Every append in progress ends, `n` of them at most, in the order in which they began. -/
def drainAppends (good : Bool) : Nat → State → State
  | 0, s => s
  | n + 1, s => drainAppends good n (endAppend good s)

/-- An append that a change waits for (R459): those begun before it end first, by the same flash; the flag says whether
it succeeded. -/
def appendNow (good : Bool) (a : Append) (s : State) : Bool × State :=
  let s1 := drainAppends good s.sealu.appends.length s
  if good then (true, afterAppend a (appended a s1)) else (false, appendFailed s1)

/-- An append of a kind, with its subject and payload, stamped now. -/
def mkAppend (s : State) (kind : Nat) (flags : BitVec 32) (subject : BitVec 384) (payload : List Byte) : Append :=
  { kind := BitVec.ofNat 16 kind, flags := flags, stamp := s.tele.time, subject := subject, payload := payload }

/-- Oldest-kept test: the record of sequence number q still in the ring. -/
def ringRecord (s : State) (q : Nat) : Option ColoRec :=
  match tabGet none s.sealu.ring (q % s.boot.flash.ringSlots.toNat) with
  | some r => if r.seq.toNat = q then some r else none
  | none => none

/-! ## Tokens (R450) -/

/-- Whether a token's signer is the one Table 19-4 names for its kind in a life-cycle state: maker keys 0 to 3, or the
owner root. -/
def tokenKindOk (l : Lc) (kind signer : Nat) : Bool :=
  let maker := decide (signer < 4)
  let owner := decide (signer = 0x10)
  match kind with
  | 1 => decide (l = .maker) && maker
  | 2 => decide (l = .sealed) && maker
  | 3 => decide (l = .owned) && owner
  | 4 => (decide (l = .owned) && owner) || (decide (l = .sealed) && maker)
  | 5 => (decide (l = .owned) && owner)
      || ((decide (l = .maker) || decide (l = .sealed) || decide (l = .returned)) && maker)
  | 6 => (decide (l = .maker) || decide (l = .returned)) && maker
  | 7 => decide (l = .owned) && owner
  | 8 => (decide (l = .owned) && owner) || ((decide (l = .maker) || decide (l = .returned)) && maker)
  | _ => false

/-- The bytes [0x00, 0xA0) of a token, which its signature covers (Table 19-3). -/
def tokenSigned (t : Token) : List Byte :=
  wBytes 4 t.magic ++ wBytes 2 t.version ++ wBytes 1 t.kind ++ wBytes 1 t.signer ++ wBytes 8 t.serial ++ wBytes 48 t.nonce
    ++ wBytes 64 t.arg ++ wBytes 32 t.reserved

/-- The 256 bytes of a token (Table 19-3). -/
def tokenBody (t : Token) : List Byte := tokenSigned t ++ beBytes 48 t.r ++ beBytes 48 t.s

/-- Digest of the public key that a signer number names: a maker key of the boot ROM that no fuse revokes, or the owner root
key of the current owner slot (R450). -/
def signerDigest (s : State) (signer : Nat) : Option (BitVec 384) :=
  if signer < 4 then if bit s.sealu.makerRevoked signer then none else some (Config.makerDigest signer)
  else if signer = 0x10 ∧ s.sealu.lc = .owned then tabGet none s.sealu.ownerSlots s.sealu.ownerSlot.toNat
  else none

/-- A signature of signed bytes verifies under the key that a signer number names (R449, R450). -/
def signedBy (s : State) (signer : Nat) (bs : List Byte) (sr ss : BitVec 384) : Bool :=
  match signerDigest s signer with
  | some d => Config.verify d (Config.sha384 bs) sr ss
  | none => false

/-- The nonce in force: none held, or expired on the always-on clock. -/
def liveNonce (s : State) : Option (BitVec 384) :=
  match s.sealu.nonce with
  | some (n, e) => if s.aon.toNat < e.toNat then some n else none
  | none => none

/-- Outcome of a token check: status and detail of the first failed condition, none where the token passes (R450). `kinds`
are the kinds the command takes. -/
def tokenFault (kinds : List Nat) (t : Token) (s : State) : Option (Nat × Nat) :=
  if t.magic ≠ 0x4E4B4F54 ∨ t.version ≠ 1 then some (0x0E01, 1)
  else if !(kinds.contains t.kind.toNat && tokenKindOk s.sealu.lc t.kind.toNat t.signer.toNat) then some (0x0E01, 2)
  else if t.serial ≠ s.boot.serial then some (0x0E01, 3)
  else if liveNonce s = none then some (0x0E02, 0)
  else if liveNonce s ≠ some t.nonce then some (0x0E01, 4)
  else if signedBy s t.signer.toNat (tokenSigned t) t.r t.s then none
  else some (0x0E01, 5)

/-- A token check: it consumes the nonce, and a failure raises SEAL-0x0001 (R450). -/
def checkToken (kinds : List Nat) (t : Token) (s : State) : Option (Nat × Nat) × State :=
  let s1 := { s with sealu := { s.sealu with nonce := none } }
  match tokenFault kinds t s with
  | none => (none, s1)
  | some f => (some f, raiseFree 14 1 (source 0 0) s1)

/-- A command that a token authorises: the check, then `f`. -/
def withToken (kinds : List Nat) (t : Token) (s : State) (f : State → Reply × State) : Reply × State :=
  match checkToken kinds t s with
  | (some e, s1) => (rep e.1 e.2, s1)
  | (none, s1) => f s1

/-- A fuse does not verify: SEAL-0x0031 and FUSE_WRITE_FAILED (R446). -/
def fuseFailed (s : State) : Reply × State := (rep 0x0E05, raiseFree 14 0x31 (source 0 0) s)

/-! ## Registers -/

/-- seal.status. -/
def sealStatus (s : State) : BitVec 64 :=
  BitVec.ofNat 64 (lcNum s.sealu.lc + s.sealu.claims.toNat * 8 + s.sealu.releases.toNat * 2 ^ 8 + planKeyMask s * 2 ^ 13
    + s.sealu.dbg.toNat * 2 ^ 17 + nb s.mgmt.maker.isSome * 2 ^ 21 + nb s.sealu.chainBroken * 2 ^ 22
    + nb s.sealu.ringFault * 2 ^ 23 + nb s.sealu.entropyFail * 2 ^ 24 + s.sealu.boot.toNat * 2 ^ 32)

end Sys2Proof.Machine
end

