-- ==== Sys2Proof/Machine/PlanCheck.lean ====
section
/-! DEFINITION. A plan image: its header, sections and records, the tables it yields, and the checks of Table 2-8 (Weave
Plans and the Ngairet Model). -/

namespace Sys2Proof.Machine

open Sys2Proof

/-! ## The image (R32 to R35) -/

/-- A section directory entry (Table 2-2). -/
structure Sect where
  type : Nat
  version : Nat
  flags : Nat
  offset : Nat
  length : Nat
  count : Nat
  size : Nat
  deriving DecidableEq, Repr

/-- Bit PATCH of a section's flags. -/
def Sect.patch (x : Sect) : Bool := decide (x.flags / 2 % 2 = 1)
/-- Bit REQUIRED of a section's flags. -/
def Sect.required (x : Sect) : Bool := decide (x.flags % 2 = 1)

/-- Directory entry i of an image. -/
def sectAt (img : List Byte) (i : Nat) : Sect :=
  let o := leAt img 0x3C 4 + 32 * i
  { type := leAt img o 2, version := leAt img (o + 2) 2, flags := leAt img (o + 4) 4, offset := leAt img (o + 8) 8,
    length := leAt img (o + 16) 8, count := leAt img (o + 24) 4, size := leAt img (o + 28) 4 }

/-- The section directory of an image. -/
def directory (img : List Byte) : List Sect := (List.range (leAt img 0x38 2)).map (sectAt img)

/-- Record size of a section type, 0 for ALTERNATE (Table 2-3). -/
def recSize (t : Nat) : Nat :=
  match t with
  | 1 => 16 | 2 => 32 | 3 => 64 | 4 => 16 | 5 => 16448 | 6 => 128 | 8 => 64 | 9 => 32 | 10 => 16 | 11 => 64 | 12 => 32
  | _ => 0

/-- Records at most of a section type (Table 2-3). -/
def recMax (t : Nat) : Nat :=
  match t with
  | 1 => 65536 | 2 => 1536 | 3 => 8192 | 4 => 262144 | 5 => 16384 | 6 => 2560 | 8 => 8256 | 9 => 16384 | 10 => 220
  | 11 => 65 | 12 => 48
  | _ => 0

/-- A section type this manual defines. -/
def knownType (t : Nat) : Bool := decide (1 ≤ t ∧ t ≤ 12)

/-- Section types that a full plan carries. -/
def requiredTypes : List Nat := [1, 2, 3, 4, 6, 8, 9, 11, 12]

/-- The section of a type, if the image carries it. -/
def sectOf (img : List Byte) (t : Nat) : Option Sect := (directory img).find? fun x => decide (x.type = t)

/-- Bytes from one record of a section to the next. -/
def stride (x : Sect) : Nat := recSize x.type + (if x.patch then 8 else 0)

/-- Index and bytes of record i of a section: with PATCH the index leads the record (R40). -/
def record (img : List Byte) (x : Sect) (i : Nat) : Nat × Nat :=
  let o := x.offset + i * stride x
  if x.patch then (leAt img o 4, leAt img (o + 8) (recSize x.type)) else (i, leAt img o (recSize x.type))

/-- A table after a section of `w`-bit records: replaced whole, or patched (R40). -/
def applySect {w : Nat} (img : List Byte) (x : Sect) (old : Tab (BitVec w)) : Tab (BitVec w) :=
  (List.range x.count).foldl (fun t i => let r := record img x i; tabSet 0 t r.1 (BitVec.ofNat w r.2))
    (if x.patch then old else [])

/-- A table of the result: its section applied where the image carries it. -/
def resultTab {w : Nat} (img : List Byte) (t : Nat) (old : Tab (BitVec w)) : Tab (BitVec w) :=
  match sectOf img t with
  | none => old
  | some x => applySect img x old

/-! ## Page blocks (R36, R44) -/

/-- Page blocks that a PAGE section carries, in record order. -/
def carriedBlocks (img : List Byte) : List Nat :=
  match sectOf img 5 with
  | none => []
  | some x => (List.range x.count).map fun i => (record img x i).2 % 65536

/-- Split and valid extents of a table: extent index and block. -/
def splitExtents (e : Tab (BitVec 128)) : List (Nat × Nat) :=
  e.filterMap fun p => if extValid p.2 && extSplit p.2 then some (p.1, extBlock p.2) else none

/-- Blocks that EXTENT patch records of alternate sets name. -/
def patchBlocks (alts : List AltSet) : List Nat :=
  (alts.map fun a => a.patches.filterMap fun p =>
    let e : BitVec 128 := p.entry.setWidth 128
    if p.section_ = 4 ∧ extValid e ∧ extSplit e then some (extBlock e) else none).flatten

/-- Blocks that a plan uses (R36). -/
def usedBlocks (t : Tables) : List Nat := (splitExtents t.extent).map (·.2) ++ patchBlocks t.alts

/-- A block the active plan uses: by its own extents or by an alternate's patch (R36). -/
def blockInUse (s : State) (b : Nat) : Bool :=
  (usedBlocks s.plan.base).contains b

/-- A PAGE record written into its block in HBM, every entry afresh (R44). -/
def writeBlock (img : List Byte) (o b : Nat) (s : State) : State :=
  (List.range 512).foldl (fun s j =>
      { s with plan := { s.plan with
          pages := tabSet 0 s.plan.pages (b * 512 + j)
            (pgMerge 0 (BitVec.ofNat 256 (leAt img (o + 64 + 32 * j) 32)))
          pageBad := s.plan.pageBad.filter fun k => !decide (k = b * 512 + j) } }) s

/-- PAGE records that have arrived whole are written, `n` of them at most; a record whose block is out of range, in use
or already written marks the load, and no later one is written (R44). -/
def loadPages : Nat → State → State
  | 0, s => s
  | n + 1, s =>
    let img := s.plan.loadBytes
    match sectOf img 5 with
    | none => s
    | some x =>
      let i := s.plan.loadBlocks.length
      let o := x.offset + i * stride x
      if s.plan.loadRefused ∨ x.count ≤ i ∨ img.length < o + stride x ∨ img.length < leAt img 0x3C 4 + 32 * leAt img 0x38 2
      then s
      else
        let b := (record img x i).2 % 65536
        if 16384 ≤ b ∨ blockInUse s b ∨ s.plan.loadBlocks.contains b then
          { s with plan := { s.plan with loadRefused := true } }
        else
          let s1 := writeBlock img (o + if x.patch then 8 else 0) b s
          loadPages n { s1 with plan := { s1.plan with loadBlocks := s1.plan.loadBlocks ++ [b] } }

/-! ## The alternate section (Tables 2-5 to 2-7) -/

/-- Patch i of a set whose patches begin at offset o. -/
def patchAt (img : List Byte) (o i : Nat) : Patch :=
  { section_ := BitVec.ofNat 16 (leAt img (o + 48 * i) 2), index := BitVec.ofNat 32 (leAt img (o + 48 * i + 4) 4),
    entry := BitVec.ofNat 256 (leAt img (o + 48 * i + 8) 32) }

/-- Descriptor of set k of an ALTERNATE section at offset o. -/
def descAt (img : List Byte) (o k : Nat) : BitVec 256 := BitVec.ofNat 256 (leAt img (o + 16 + 32 * k) 32)

/-- set of a descriptor. -/
def dSet (d : BitVec 256) : Nat := fnat d 0 16
/-- parent. -/
def dParent (d : BitVec 256) : Nat := fnat d 16 16
/-- restore_mode. -/
def dMode (d : BitVec 256) : Nat := fnat d 32 8
/-- stable_period, ms. -/
def dStable (d : BitVec 256) : Nat := fnat d 64 32
/-- patch_count. -/
def dPatches (d : BitVec 256) : Nat := fnat d 96 32
/-- patch_offset. -/
def dPatchOff (d : BitVec 256) : Nat := fnat d 128 32
/-- weave_offset. -/
def dWeaveOff (d : BitVec 256) : Nat := fnat d 160 32
/-- trigger_offset. -/
def dTrigOff (d : BitVec 256) : Nat := fnat d 192 32

/-- send of a trigger entry (Table 2-7). -/
def teSend (e : BitVec 64) : Bool := bit e 24
/-- notice_id. -/
def teNotice (e : BitVec 64) : BitVec 8 := fld e 16 8
/-- v of a trigger entry. -/
def teValid (e : BitVec 64) : Bool := bit e 15
/-- target. -/
def teTarget (e : BitVec 64) : Nat := fnat e 0 12

/-- Set k of an ALTERNATE section at offset o of the image. -/
def altAt (img : List Byte) (o k : Nat) : AltSet :=
  let d := descAt img o k
  { desc := d
    patches := (List.range (dPatches d)).map (patchAt img (o + dPatchOff d))
    hasWeave := decide (dWeaveOff d ≠ 0)
    weave := if dWeaveOff d = 0 then [] else
      (List.range 2560).foldl
        (fun t i => tabSet 0 t i (BitVec.ofNat 1024 (leAt img (o + dWeaveOff d + 128 * i) 128))) []
    triggers := (List.range 1536).foldl
      (fun t i => tabSet 0 t i (BitVec.ofNat 64 (leAt img (o + dTrigOff d + 8 * i) 8))) [] }

/-- Alternate sets of the result: the image's section, or the active ones (R42). -/
def resultAlts (img : List Byte) (old : List AltSet) : List AltSet :=
  match sectOf img 7 with
  | none => old
  | some x => (List.range (leAt img x.offset 2)).map (altAt img x.offset)

/-! ## The result (R41) -/

/-- What a delta applies to: the active tables with what run-time commands changed in them, accepted traffic sets that
are due among it, and without alternate patches. -/
def deltaBase (s : State) : Tables :=
  { (trafSync s).plan.active with route := s.plan.base.route, extent := s.plan.base.extent }

/-- The tables a loaded image yields: a full plan's own, or the active plan with the delta applied (R40, R41). -/
def resultTables (s : State) (img : List Byte) : Tables :=
  let old := if leAt img 6 2 = 1 then deltaBase s else Tables.init
  { route := resultTab img 1 old.route, window := resultTab img 2 old.window, binding := resultTab img 3 old.binding,
    extent := resultTab img 4 old.extent, weave := resultTab img 6 old.weave, traffic := resultTab img 8 old.traffic,
    protection := resultTab img 9 old.protection, power := resultTab img 10 old.power,
    buffer := resultTab img 11 old.buffer, port := resultTab img 12 old.port,
    hasPower := (sectOf img 10).isSome || old.hasPower, alts := resultAlts img old.alts }

/-! ## Guaranteed rates (R204) -/

/-- Inputs of binding b: the xp of every port with a valid window naming it, or xp 60 and 61 for a scribe binding. -/
def rateInputs (t : Tables) (b : Nat) : List Nat :=
  if ctxKind (tabGet 0 t.binding b) = 1 then [60, 61]
  else (List.range 48).filter fun x =>
    t.window.any fun p => decide (p.1 / 32 = x) && winValid p.2 && decide (winBinding p.2 = b)

/-- Outputs of binding b: target_mask and prx_mask. -/
def rateOutputs (t : Tables) (b : Nat) : List Nat :=
  (List.range 60).filter fun x =>
    if x < 56 then bit (ctxTargets (tabGet 0 t.binding b)) x
    else decide (tfPrx (tabGet 0 t.traffic b) / 2 ^ (x - 56) % 2 = 1)

/-- Whether binding b uses the pair (i, o), forward or reverse. -/
def usesPair (t : Tables) (b i o : Nat) : Bool :=
  ((rateInputs t b).contains i && (rateOutputs t b).contains o)
  || ((rateInputs t b).contains o && (rateOutputs t b).contains i)

/-- Woven slots of the pair (i, o) in class c, over both planes. -/
def pairSlots (weave : Tab (BitVec 1024)) (i o c : Nat) : Nat :=
  (weave.filter fun p =>
    bit p.2 (16 * i + 15) && decide (fnat p.2 (16 * i + 12) 3 = c) && decide (fnat p.2 (16 * i) 6 = o)).length

/-- Guaranteed rates of the bindings of class c that use the pair (i, o). -/
def pairRate (t : Tables) (i o c : Nat) : Nat :=
  ((List.range 8192).map fun b =>
    if ctxClass (tabGet 0 t.binding b) = c ∧ usesPair t b i o then tfG (tabGet 0 t.traffic b) else 0).sum

/-- A binding that oversubscribes a pair under a weave (check 14): one woven slot carries 16,384 of g_rate's units. -/
def overWoven (t : Tables) (weave : Tab (BitVec 1024)) (b : Nat) : Bool :=
  let c := ctxClass (tabGet 0 t.binding b)
  decide (tfG (tabGet 0 t.traffic b) ≠ 0)
  && (List.range 64).any fun i => (List.range 64).any fun o =>
      usesPair t b i o && decide (16384 * pairSlots weave i o c < pairRate t i o c)

/-- A woven slot is a partial permutation: no output twice among its valid entries (check 13). -/
def slotOk (w : BitVec 1024) : Bool :=
  let outs := (List.range 64).filterMap fun i => if bit w (16 * i + 15) then some (fnat w (16 * i) 6) else none
  decide outs.Nodup

/-! ## Capacity (R3, R329) -/

/-- Stacks not lost. -/
def stacksLeft (s : State) : Nat :=
  2 - nb (decide ((tabGet Stack.init s.mem.stks 0).st ≠ .up)) - nb (decide ((tabGet Stack.init s.mem.stks 1).st ≠ .up))
/-- Nominal snoop filter, in Mi entries (Table 0-2). -/
def sfNominal (s : State) : Nat := if s.boot.hb then 512 else 1024
/-- Available snoop filter. -/
def sfAvailable (s : State) : Nat := sfNominal s * stacksLeft s / 2
/-- Nominal reservoir, in MiB. -/
def resNominal (s : State) : Nat := if s.boot.hb then 6144 else 16384
/-- Available reservoir. -/
def resAvailable (s : State) : Nat := resNominal s * stacksLeft s / 2

/-! ## Binding transitions (R77) -/

/-- Whether a plan may move a binding between two states (Table 3-11). -/
def planMove (a b : Nat) : Bool :=
  decide (b ≤ 5) &&
  (decide (a = b) ||
   match a, b with
   | 0, 1 | 0, 2 | 0, 5 | 1, 2 | 1, 0 | 2, 5 | 3, 5 | 4, 2 | 4, 5 | 4, 0 => true
   | _, _ => false)

/-! ## The checks (R43, Table 2-8) -/

/-- A failed check: its index, section type and record index. -/
abbrev Fail := Nat × Nat × Nat

/-- Check `k` on one condition. -/
def must (k : Nat) (c : Bool) (sec : Nat := 0) (rec_ : Nat := 0) : Option Fail := if c then none else some (k, sec, rec_)

/-- Check `k` on every listed item: the first that fails. -/
def mustAll {α : Type} (k sec : Nat) (l : List α) (ix : α → Nat) (c : α → Bool) : Option Fail :=
  match l.find? fun x => !c x with
  | some x => some (k, sec, ix x)
  | none => none

/-- The first failure of a list of checks in order. -/
def firstFail (l : List (Option Fail)) : Option Fail := l.findSome? id

/-- The bytes of the signature block that R39 gives no field are 0. -/
def sigZeros (img : List Byte) (so : Nat) : Bool :=
  decide (leAt img (so + 6) 10 = 0) && decide (leAt img (so + 0x70) 144 = 0)

/-- The signature of an image verifies under the installed key that its block names (R39, check 5). -/
def sigVerifies (s : State) (img : List Byte) : Bool :=
  let so := leAt img 0x40 8
  match planKeyAt s (leAt img (so + 2) 2) with
  | none => false
  | some key => Config.verify (Config.sha384 (wBytes 97 key)) (Config.sha384 (img.take so)) (BitVec.ofNat 384 (beAt img (so + 0x10) 48))
      (BitVec.ofNat 384 (beAt img (so + 0x40) 48))

/-- Checks 1 to 8: header, signature, identity, generation and capacity. DESIGN CHOICE (log entry 129): the rest of R39
(the block's place, its version and its zero bytes) is tested with check 4. -/
def checksHeader (s : State) (img : List Byte) : Option Fail :=
  let so := leAt img 0x40 8
  let gen := leAt img 0x18 4
  let delta := decide (leAt img 6 2 = 1)
  firstFail [
    must 1 (decide (128 ≤ img.length) && decide (leAt img 0 4 = 0x56414557) && decide (leAt img 4 2 = 0x0100)),
    must 2 (decide (leAt img 8 8 = s.plan.loadLength.toNat) && decide (img.length = s.plan.loadLength.toNat)),
    must 3 (decide (leAt img 6 2 = s.plan.loadKind.toNat)),
    must 4 (decide (128 ≤ so ∧ so + 256 = img.length) && decide (leAt img so 2 = 1) && sigZeros img so
      && (planKeyAt s (leAt img (so + 2) 2)).isSome && decide (leAt img (so + 4) 2 = 1)),
    must 5 (sigVerifies s img),
    must 6 (decide (leAt img 0x20 8 = s.boot.serial.toNat)),
    must 7 (if delta then s.plan.hasPlan && decide (leAt img 0x1C 4 = s.plan.generation.toNat)
              && decide (s.plan.generation.toNat < gen)
            else decide (s.plan.generation.toNat < gen)),
    must 8 (decide (leAt img 0x30 4 ≤ sfAvailable s) && decide (leAt img 0x34 4 ≤ resAvailable s))]

/-- Sections of an image that overlap an earlier one in its directory. -/
def overlapping : List Sect → List Sect
  | [] => []
  | x :: xs => (xs.filter fun y =>
      decide (x.length ≠ 0) && decide (y.length ≠ 0)
      && decide (x.offset < y.offset + y.length ∧ y.offset < x.offset + x.length)) ++ overlapping xs

/-- Types that stand twice in a directory. -/
def repeated : List Sect → List Sect
  | [] => []
  | x :: xs => (xs.filter fun y => decide (y.type = x.type)) ++ repeated xs

/-- Records of a patched section whose index lies beyond the section, by place in it (check 12). -/
def badPatches (img : List Byte) (x : Sect) : List Nat :=
  if x.patch then (List.range x.count).filter fun i => !decide ((record img x i).1 < recMax x.type) else []

/-- Checks 9 to 12: the directory and its sections. DESIGN CHOICE (log entry 129): a directory entry with a reserved flag
set fails check 11, and PATCH = 1 in a full plan fails check 12. -/
def checksSections (img : List Byte) : Option Fail :=
  let so := leAt img 0x40 8
  let dir := directory img
  let known := dir.filter fun x => knownType x.type
  let full := decide (leAt img 6 2 = 0)
  firstFail [
    must 9 (decide (leAt img 0x38 2 ≤ 16) && decide (leAt img 0x3C 4 + 32 * leAt img 0x38 2 ≤ img.length)),
    mustAll 9 0 dir (·.type) (fun x => decide (x.offset % 64 = 0) && decide (x.offset + x.length ≤ so)),
    mustAll 9 0 (overlapping dir) (·.type) (fun _ => false),
    mustAll 10 0 (repeated dir) (·.type) (fun _ => false),
    mustAll 10 0 (if full then requiredTypes else []) id (fun t => dir.any fun x => decide (x.type = t)),
    mustAll 10 0 dir (·.type) (fun x => knownType x.type || !x.required),
    mustAll 11 0 known (·.type) (fun x => decide (x.version = 1) && decide (x.size = recSize x.type)
      && decide (x.flags < 4)
      && (decide (x.type = 7) || (decide (x.count ≤ recMax x.type) && decide (x.length = x.count * stride x)))),
    mustAll 12 0 known (·.type) (fun x => !x.patch || (!full && decide (x.type ≠ 6) && decide (x.type ≠ 7))),
    known.findSome? fun x => mustAll 12 x.type (badPatches img x) id (fun _ => false)]

/-- Checks 13 and 14 for one weave. -/
def checksWeave (k sec : Nat) (t : Tables) (weave : Tab (BitVec 1024)) : Option Fail :=
  firstFail [
    mustAll k sec weave (·.1) (fun p => slotOk p.2),
    mustAll (if k = 13 then 14 else k) (if k = 13 then 8 else sec) t.traffic (·.1)
      (fun p => decide (8192 ≤ p.1) || !overWoven t weave p.1)]

/-- A FEID with a valid route entry. -/
def routed (t : Tables) (f : Nat) : Bool := rtValid (tabGet 0 t.route f) f

/-- The FEID of a patch's entry is routed, where it names one. -/
def patchRouted (t : Tables) (p : Patch) : Bool :=
  let e : BitVec 128 := p.entry.setWidth 128
  if p.section_ = 4 then !extValid e || extSplit e || routed t (extFeid e)
  else if p.section_ = 5 then !pgValid p.entry || routed t (pgFeid p.entry)
  else true

/-- Record index that names a page block: its record's place in the image's PAGE section, or the block's number where the
image carries no record of it (R503; log entry 129). -/
def pageRecord (carried : List Nat) (b : Nat) : Nat :=
  match carried.findIdx? fun c => decide (c = b) with
  | some i => i
  | none => b

/-- Checks 15 to 19: routes, windows, extents and page blocks. -/
def checksDecode (s : State) (t : Tables) (carried : List Nat) : Option Fail :=
  let used := usedBlocks t
  let split := splitExtents t.extent
  firstFail [
    mustAll 15 4 t.extent (·.1) (fun p => !extValid p.2 || extSplit p.2 || routed t (extFeid p.2)),
    mustAll 15 5 s.plan.pages (fun p => pageRecord carried (p.1 / 512))
      (fun p => !(carried ++ used).contains (p.1 / 512) || !pgValid p.2 || routed t (pgFeid p.2)),
    mustAll 15 7 t.alts.zipIdx (·.2) (fun a => a.1.patches.all (patchRouted t)),
    mustAll 16 1 t.route (·.1) (fun p => decide (rtXp p.2 ≤ 62)),
    mustAll 17 2 t.window (·.1) (fun p => !winValid p.2 || decide (winBinding p.2 < 8192)),
    mustAll 17 3 t.binding (·.1) (fun p => decide (ctxExtFirst p.2 + ctxExtCount p.2 ≤ 262144)),
    mustAll 18 4 split (·.1) (fun p => decide ((split.filter fun q => q.2 == p.2).length = 1)
      && (carried.contains p.2 || blockInUse s p.2)),
    must 18 (decide (split.length ≤ 16384)) 4,
    mustAll 18 7 t.alts.zipIdx (·.2) (fun a => (patchBlocks [a.1]).all fun b => carried.contains b || blockInUse s b),
    mustAll 19 5 carried.zipIdx (·.2) (fun b => decide (b.1 < 16384) && !blockInUse s b.1),
    must 19 (!s.plan.loadRefused) 5 s.plan.loadBlocks.length]

/-- The entry's offset of its first field outside R213: the reserved bits of every entry, and the range of one with
v = 1. -/
def protBad (e : BitVec 256) : Option Nat :=
  let v := ptValid e
  firstBad [
    (0, decide (fnat e 5 3 = 0)),
    (2, (!v || decide (21 ≤ ptSize e ∧ ptSize e ≤ 50)) && decide (fnat e 22 10 = 0)),
    (6, decide (fnat e 48 16 = 0)),
    (8, !v || decide (ptBase e % 2 ^ ptSize e = 0)),
    (11, decide (fnat e 95 33 = 0)),
    (20, decide (fnat e 160 96 = 0))]

/-- A protection entry's range (R213). -/
def protOk (e : BitVec 256) : Bool := (protBad e).isNone

/-- Groups that stay ON in RUN (Table 17-3): xbar, heddle, ctl, hbm, mgmt. -/
def onOnly (d : Nat) : Bool :=
  decide (d = 168 ∨ d = 169 ∨ (186 ≤ d ∧ d ≤ 190) ∨ d = 215 ∨ d = 216 ∨ d = 218)

/-- A POWER record's ranges (R419). -/
def powerOk (r : BitVec 128) : Bool :=
  decide (fnat r 0 16 < 220) && decide (fnat r 16 8 ≤ 3) && !(onOnly (fnat r 0 16) && decide (fnat r 16 8 ≠ 0))
  && decide (fnat r 24 8 ≤ 1) && decide (1 ≤ fnat r 32 32 ∧ fnat r 32 32 ≤ 10000000) && decide (fnat r 64 64 = 0)

/-- Cells of every minimum of a BUFFER record. -/
def bfMins (b : BitVec 512) : Nat := ((List.range 8).map (bfMin b)).sum
/-- Quotas of a BUFFER record, in MiB. -/
def bfQuotas (b : BitVec 512) : Nat := ((List.range 8).map (bfQuota b)).sum

/-- A BUFFER record's ranges (Tables 5-4, 5-5). -/
def bufferOk (i : Nat) (b : BitVec 512) : Bool :=
  if i < 64 then
    (List.range 8).all (fun c => decide (-7 ≤ bfAlpha b c ∧ bfAlpha b c ≤ 3) && decide (bfQuota b c ≤ 16384))
    && decide (fnat b 320 192 = 0)
  else decide (1000 ≤ fnat b 0 32 ∧ fnat b 0 32 ≤ 1000000)
    && (decide (fnat b 32 32 = 0) || decide (100 ≤ fnat b 32 32 ∧ fnat b 32 32 ≤ 200000))

/-- Records that an image carries of a type, whole, with their place; those all 0 among them. -/
def records (img : List Byte) (type : Nat) : List (Nat × Nat) :=
  match sectOf img type with
  | none => []
  | some x => (List.range x.count).map fun i => (i, (record img x i).2)

/-- Checks 20 to 25: protection, traffic, buffer, power and binding states. -/
def checksRecords (s : State) (img : List Byte) (t : Tables) : Option Fail :=
  let xps := t.buffer.filter fun p => decide (p.1 < 64)
  firstFail [
    mustAll 20 9 t.protection (·.1) (fun p => protOk p.2),
    mustAll 20 3 t.binding (·.1)
      (fun p => decide (ctxProtCount p.2 ≤ 16) && decide (ctxProtFirst p.2 + ctxProtCount p.2 ≤ 16384)),
    mustAll 21 9 s.plan.active.protection (·.1)
      (fun p => !ptLock p.2 || decide (tabGet 0 t.protection p.1 = p.2)),
    mustAll 22 8 t.traffic (·.1) (fun p =>
      if p.1 < 8192 then trafBindOk p.2 (ctxKind (tabGet 0 t.binding p.1)) (ctxClass (tabGet 0 t.binding p.1))
      else trafXpOk p.2),
    mustAll 23 11 t.buffer (·.1) (fun p => bufferOk p.1 p.2),
    must 23 (decide ((xps.map fun p => bfMins p.2).sum ≤ 655360)
      && decide ((xps.map fun p => bfQuotas p.2).sum ≤ resAvailable s)) 11,
    mustAll 24 10 (records img 10) (·.1) (fun p => powerOk (BitVec.ofNat 128 p.2)),
    mustAll 24 10 t.power (·.1) (fun p => powerOk p.2),
    mustAll 25 3 (List.range 8192) id (fun b => planMove (bstate s b) (ctxState (tabGet 0 t.binding b)))]

/-- Whether the parent chain of set k reaches set 0 in at most `n` steps. -/
def chainReaches (alts : List AltSet) : Nat → Nat → Bool
  | 0, k => decide (k = 0)
  | n + 1, k => decide (k = 0) || (match alts[k]? with
      | some a => chainReaches alts n (dParent a.desc)
      | none => false)

/-- Check 26 on the bytes of an ALTERNATE section: counts and offsets within the section. -/
def altBytesOk (img : List Byte) (x : Sect) : Bool :=
  let n := leAt img x.offset 2
  decide (1 ≤ n ∧ n ≤ 1024) && decide (16 + 32 * n ≤ x.length)
  && (List.range n).all fun k =>
    let d := descAt img x.offset k
    decide (dSet d = k) && decide (dParent d < n) && decide (dMode d ≤ 2)
    && decide (dPatchOff d + 48 * dPatches d ≤ x.length) && decide (dTrigOff d + 12288 ≤ x.length)
    && (decide (dWeaveOff d = 0) || decide (dWeaveOff d + 128 * 2560 ≤ x.length))
    && !(decide (k = 0) && (decide (dPatches d ≠ 0) || decide (dWeaveOff d ≠ 0) || decide (dParent d ≠ 0)))

/-- Check 27 on one patch: its target section and index; the entry's size is given beside it. -/
def patchOk (p : Patch) : Bool :=
  match p.section_.toNat with
  | 1 => decide (p.index.toNat < 65536)
  | 4 => decide (p.index.toNat < 262144)
  | 5 => decide (p.index.toNat < 16384 * 512)
  | _ => false

/-- Entry sizes of the patches of an ALTERNATE section match their targets (check 27). -/
def patchSizesOk (img : List Byte) (x : Sect) : Bool :=
  (List.range (leAt img x.offset 2)).all fun k =>
    let d := descAt img x.offset k
    (List.range (dPatches d)).all fun i =>
      let o := x.offset + dPatchOff d + 48 * i
      decide (leAt img (o + 2) 2 = if leAt img o 2 = 5 then 32 else 16)

/-- Checks 26 to 28: the alternate sets. -/
def checksAlts (img : List Byte) (t : Tables) : Option Fail :=
  let alts := t.alts.zipIdx
  firstFail [
    must 26 (match sectOf img 7 with | some x => altBytesOk img x | none => true) 7,
    mustAll 26 7 alts (·.2) (fun a => chainReaches t.alts 8 a.2
      && a.1.triggers.all fun e => !teValid e.2 || decide (teTarget e.2 < t.alts.length)),
    mustAll 27 7 alts (·.2) (fun a => decide (a.1.patches.length ≤ 28672) && a.1.patches.all patchOk),
    must 27 (match sectOf img 7 with | some x => patchSizesOk img x | none => true) 7,
    alts.findSome? fun a => if a.1.hasWeave then checksWeave 28 7 t a.1.weave else none]

/-- The first failing check of Table 2-8 for the loaded image (R43). -/
def planFault (s : State) (img : List Byte) : Option Fail :=
  match firstFail [checksHeader s img, checksSections img] with
  | some f => some f
  | none =>
    let t := resultTables s img
    firstFail [checksWeave 13 6 t t.weave, checksDecode s t (carriedBlocks img), checksRecords s img t, checksAlts img t]

end Sys2Proof.Machine
end

