-- ==== Sys2Proof/Machine/AltOps.lean ====
section
/-! DEFINITION. Alternate sets at run time: looking a trigger up, entering a set, restoring, and the notices on VC0
(Weave Plans, Alternates at run time). -/

namespace Sys2Proof.Machine

open Sys2Proof

/-! ## Sets and the chain (R51, R55) -/

/-- Number of alternate sets: 1 for a plan without an ALTERNATE section. -/
def setCount (s : State) : Nat := max 1 s.plan.active.alts.length

/-- Set k as the plan store holds it. -/
def altSet (s : State) (k : Nat) : AltSet := (s.plan.active.alts[k]?).getD
  { desc := 0, patches := [], hasWeave := false, weave := [], triggers := [] }

/-- Set a chain leads to. -/
def chainEnd (l : List ChainLink) : Nat := match l.getLast? with | some c => c.set.toNat | none => 0

/-- The current set. -/
def currentSet (s : State) : Nat := chainEnd s.plan.chain

/-- Trigger entry of a set by class and index. -/
def triggerEntry (s : State) (set cls idx : Nat) : BitVec 64 := tabGet 0 (altSet s set).triggers (cls * 256 + idx)

/-- The weave a chain brings into force: its nearest set's own, or none for the plan's (R56). -/
def chainWeave (s : State) (l : List ChainLink) : Option (Tab (BitVec 1024)) :=
  (l.reverse.find? fun c => (altSet s c.set.toNat).hasWeave).map fun c => (altSet s c.set.toNat).weave

/-- Source of a trigger: the Weft link, port, loom, plane or stack; the device for a notice or a command. -/
def triggerSource (cls idx : Nat) : BitVec 32 :=
  match cls with
  | 0 => source 2 idx | 1 => source 1 idx | 2 => source 12 idx | 3 => source 5 idx | 4 => source 6 idx
  | _ => source 0 0

/-! ## Notices (R51, R56, 11 R264) -/

/-- A message of the management class that the device itself sends on VC0. -/
def vc0Msg (op : Op) (id : Nat) (len : Nat) (data : BitVec 512) : Msg :=
  { op := op, mv := .noOp, mclass := 0, sclass := 0, feid := 0, req := .mgmt, inXp := 62, tag := BitVec.ofNat 16 id,
    binding := 0, counted := false, dev := 0, sa := 0, proxy := false, data := data, mask := 0, len := len,
    poison := false, devLoad := 0, ld := none, colour := .green, epoch := 0, hops := 0, born := 0, phase := none }

/-- A VC0 message queued on every Weft link that is UP, except link `skip`. -/
def sendVc0 (m : Msg) (skip : Option Nat) (s : State) : State :=
  (List.range 8).foldl
    (fun s n => if (weft s n).st = .up ∧ (weft s n).held = false ∧ skip ≠ some n then
        setWeft n { weft s n with notices := (weft s n).notices ++ [m] } s
      else s) s

/-! ## Patches (R51, R52, R88) -/

/-- The page entry a patch replaces is kept once, for the restoration (R56). -/
def savePage (i : Nat) (s : State) : State :=
  match tabGet none s.plan.pageSaved i with
  | some _ => s
  | none => { s with plan := { s.plan with pageSaved := tabSet none s.plan.pageSaved i (some (pageEntry s i)) } }

/-- A page entry replaced by a plan record or a patch: a migrating page keeps its overlay, and one whose v becomes 0
completes what it stalled as decode misses (R88). -/
def replacePage (i : Nat) (e : BitVec 256) (s : State) : State :=
  let old := pageEntry s i
  let s1 := setPage i (pgMerge old e) s
  if pgMig old ∧ pgValid e = false then failStall true (pgSlot old) s1 else s1

/-- One patch record takes effect. -/
def applyPatch (p : Patch) (s : State) : State :=
  let i := p.index.toNat
  match p.section_.toNat with
  | 1 => { s with plan := { s.plan with active := { s.plan.active with
      route := tabSet 0 s.plan.active.route i (p.entry.setWidth 128) } } }
  | 4 => { s with plan := { s.plan with active := { s.plan.active with
      extent := tabSet 0 s.plan.active.extent i (p.entry.setWidth 128) } } }
  | 5 => replacePage i p.entry (savePage i s)
  | _ => s

/-- The patches of a set take effect in record order. -/
def applyPatches (k : Nat) (s : State) : State := (altSet s k).patches.foldl (fun s p => applyPatch p s) s

/-- Route and extent entries back to the plan store's, and page entries to what they were before the chain's patches
(R56). -/
def unpatch (s : State) : State :=
  let saved := s.plan.pageSaved
  let s1 := { s with plan := { s.plan with
      active := { s.plan.active with route := s.plan.base.route, extent := s.plan.base.extent }, pageSaved := [] } }
  saved.foldl (fun s p => match p.2 with
    | some e => replacePage p.1 e s
    | none => s) s1

/-- The tables as a chain's patches leave them: the plan's own, then each set's patches in chain order (R56, R59). -/
def rebuild (l : List ChainLink) (s : State) : State := l.foldl (fun s c => applyPatches c.set.toNat s) (unpatch s)

/-! ## Entering a set (R51) -/

/-- A set begins to apply: the chain grows, the APPLY notice goes out, and the weave it carries is loaded for the next
frame boundary. -/
def enterSet (link : ChainLink) (failed : Option Nat) (s : State) : State :=
  let a := altSet s link.set.toNat
  let s1 := { s with plan := { s.plan with
      chain := s.plan.chain ++ [link], work := .applying
      weaveDue := if a.hasWeave then some (some a.weave) else s.plan.weaveDue } }
  match link.notice with
  | none => s1
  | some id => sendVc0 (vc0Msg .apply id.toNat 4 0) failed s1

/-- A trigger is earlier than another: by stamp, then class, then index (R54). -/
def trigBefore (a b : Trigger) : Bool :=
  decide (a.stamp.toNat < b.stamp.toNat)
  || (decide (a.stamp = b.stamp) && (decide (a.cls.toNat < b.cls.toNat)
      || (decide (a.cls = b.cls) && decide (a.index.toNat < b.index.toNat))))

/-- The trigger whose turn it is (R54). -/
def firstTrigger : List Trigger → Option Trigger
  | [] => none
  | t :: ts =>
    match firstTrigger ts with
    | none => some t
    | some u => if trigBefore u t then some u else some t

/-- What a trigger without a valid entry does (R53, R58; Table 2-6). DESIGN CHOICE (log entry 72): unforeseen is 1 from an
unforeseen event until a plan activates or PLAN_APPLY_ALTERNATE runs. -/
def noEntry (cls idx : Nat) (s : State) : State :=
  if cls ≤ 2 then
    raiseFree 6 0x10 (triggerSource cls idx) { s with plan := { s.plan with unforeseen := 1 } }
  else if cls = 5 then raiseFree 6 0x11 (source 0 0) s
  else s

/-- A notice whose ID entered the current set or an ancestor (R53). -/
def noticeKnown (s : State) (cls idx : Nat) : Bool :=
  decide (cls = 5) && s.plan.chain.any fun c => decide (c.cls.toNat = 5) && decide (c.index.toNat = idx)

/-- One trigger is looked up in the current set's table (R51, R53, R54). -/
def lookupTrigger (t : Trigger) (s : State) : State :=
  let cls := t.cls.toNat
  let idx := t.index.toNat
  if noticeKnown s cls idx then s
  else
    let e := triggerEntry s (currentSet s) cls idx
    if teValid e then
      let up := s.plan.present.all fun q => !(decide (q.cls = t.cls) && decide (q.index = t.index))
      enterSet { set := BitVec.ofNat 16 (teTarget e), cls := t.cls, index := t.index,
                 notice := if teSend e then some (teNotice e) else none, byCommand := false,
                 upSince := if up ∧ cls < 5 then some s.tele.time else none }
        (if cls = 0 then some idx else none) s
    else noEntry cls idx s

/-- The trigger-bank entry of a lookup in the current set's table: an entry of the ALTERNATE section's table (Table 2-7). -/
def triggerKey (s : State) (t : Trigger) : Nat := currentSet s * 1536 + t.cls.toNat * 256 + t.index.toNat

/-- The heddle block looks triggers up in turn, `n` at most, while no patches are being applied and no restoration is
rewriting entries (R54); one whose entry is uncorrectable waits for its reload (R59). A restoration that waits for its
weave-frame boundary delays none (R56; log entry 131). -/
def heddleNextN : Nat → State → State
  | 0, s => s
  | n + 1, s =>
    if s.plan.work ≠ .idle then s
    else
      match firstTrigger s.plan.trigQ with
      | none => s
      | some t =>
        if tableBad s 7 (triggerKey s t) then tableUe 7 (triggerKey s t) 0 s
        else heddleNextN n (lookupTrigger t { s with plan := { s.plan with trigQ := s.plan.trigQ.erase t } })

/-- Triggers stamped before boundary `bd` that still wait are handled under the plan in force, `n` of them at most; no
patch application is finished any more (R57). -/
def handleOld (bd : Nat) : Nat → State → State
  | 0, s => s
  | n + 1, s =>
    match firstTrigger (s.plan.trigQ.filter fun t => decide (t.stamp.toNat < bd)) with
    | none => s
    | some t =>
      handleOld bd n (lookupTrigger t { s with plan := { s.plan with work := .idle, trigQ := s.plan.trigQ.erase t } })

/-- The next piece of work of the heddle block (R54). -/
def heddleNext (s : State) : State := heddleNextN (s.plan.trigQ.length + 1) s

/-- An APPLY notice arrives (R53, R54): ignored where its ID is on the chain, dropped where the queue is full. -/
def noticeIn (id : BitVec 8) (s : State) : State :=
  if noticeKnown s 5 id.toNat then s
  else if 128 ≤ s.plan.trigQ.length then raiseFree 6 0x11 (source 0 0) s
  else heddleNext (pushTrigger 5 id.toNat s)

/-- The patches in progress are in force (R51): HEDL-0x0002, and the next piece of work (R54). DESIGN CHOICE (log entry
81): all patches of a set take effect together here. -/
def patchesDone (s : State) : State :=
  match s.plan.work, s.plan.chain.getLast? with
  | .applying, some c =>
    let s1 := applyPatches c.set.toNat s
    let s2 := raiseFree 6 2 (triggerSource c.cls.toNat c.index.toNat)
      { s1 with plan := { s1.plan with work := .idle } }
    heddleNext s2
  | _, _ => s

/-! ## Leaving a set (R55, R56) -/

/-- Set a restoration to the parent goes to: the parent where it is set 0 or on the chain, else the set the current one
was entered from. -/
def parentOf (s : State) : BitVec 16 :=
  let l := s.plan.chain.dropLast
  let p := dParent (altSet s (currentSet s)).desc
  if p = 0 ∨ l.any (fun c => decide (c.set.toNat = p)) then BitVec.ofNat 16 p else BitVec.ofNat 16 (chainEnd l)

/-- Restore mode of the current set: 0 where the command PLAN_APPLY_ALTERNATE entered it (R60). -/
def currentMode (s : State) : Nat :=
  match s.plan.chain.getLast? with
  | none => 0
  | some c => if c.byCommand then 0 else dMode (altSet s c.set.toNat).desc

/-- stable_period of the current set in ms; 0 takes stable_default (Table 2-5). -/
def stablePeriod (s : State) : Nat :=
  let d := dStable (altSet s (currentSet s)).desc
  if d = 0 then s.plan.stableDefault.toNat else d

/-- The chain up to set k: nothing for set 0. -/
def chainTo (k : Nat) : List ChainLink → List ChainLink
  | [] => []
  | c :: cs => if k = 0 then [] else if c.set.toNat = k then [c] else c :: chainTo k cs

/-- A restoration is wanted; it begins at a weave-frame boundary after the work in progress (R56). -/
def wantRestore (k : BitVec 16) (s : State) : State := { s with plan := { s.plan with restoreWant := some k } }

/-- A RESTORE notice arrives (R55, mode 2): it must carry the ID that entered the current set. -/
def restoreIn (id : BitVec 8) (s : State) : State :=
  match s.plan.chain.getLast? with
  | none => s
  | some c =>
    if currentMode s = 2 ∧ c.cls = 5 ∧ c.index = id then wantRestore (parentOf s) s else s

/-- A restoration rewrites the patched entries at its boundary: the chain shortens, RESTORE notices leave for the sets
left, deepest first, the weave is due at the next boundary, and HEDL-0x0003 is raised (R56). -/
def restoreTo (k : BitVec 16) (s : State) : State :=
  let kept := chainTo k.toNat s.plan.chain
  let left := s.plan.chain.drop kept.length
  let s1 := rebuild kept { s with plan := { s.plan with chain := kept } }
  let s2 := left.reverse.foldl (fun s c => match c.notice with
    | some id => sendVc0 (vc0Msg .restore id.toNat 4 0) none s
    | none => s) s1
  let s3 := if left.any (fun c => (altSet s c.set.toNat).hasWeave) then
      { s2 with plan := { s2.plan with weaveDue := some (chainWeave s kept) } } else s2
  match left.head? with
  | none => { s3 with plan := { s3.plan with work := .rewriting } }
  | some c => raiseFree 6 3 (triggerSource c.cls.toNat c.index.toNat)
      { s3 with plan := { s3.plan with work := .rewriting } }

/-- A weave that is due takes effect at its boundary (R51, R56). -/
def switchWeave (s : State) : State :=
  match s.plan.weaveDue with
  | none => s
  | some none => { s with plan := { s.plan with weaveDue := none, altWeave := [], altWeaveOn := false } }
  | some (some w) => { s with plan := { s.plan with weaveDue := none, altWeave := w, altWeaveOn := true } }

/-- The weave in force (R503). -/
def weaveNow (s : State) : Tab (BitVec 1024) := if s.plan.altWeaveOn then s.plan.altWeave else s.plan.active.weave

end Sys2Proof.Machine
end

