-- ==== Sys2Proof/Machine/XbarOps.lean ====
section
/-! DEFINITION. Shared operations of the warp crossbar: the ready vector, choosing a cell, the shuttle matcher, sending,
plane loss and loom link loss (Warp Crossbar, Weave Slots and the Shuttle Matcher). -/

namespace Sys2Proof.Machine

open Sys2Proof

/-! ## Egress staging and the ready vector (R92, R506) -/

/-- Cells an output's staging holds for one message class (R506; log entry 7). -/
def stagingCap (x mc : Nat) : Nat := 65 + Config.stagingExtra (x * 8 + mc)

/-- Cells of class mc at output x: in staging, in its resequencers, and sent to it but not yet acknowledged. -/
def stagingUsed (s : State) (x mc : Nat) : Nat :=
  let st := ((tabGet [] (output s x).staging mc).map fun m => m.got).sum
  let ps := s.xbar.pairs.map fun p =>
    if p.1 % 64 = x then
      (p.2.reseq.filter fun c => decide (c.2.msg.mclass.toNat = mc) && !c.2.skip).length
        + (p.2.window.filter fun c => decide (c.msg.mclass.toNat = mc) && !c.acked).length
    else 0
  st + ps.sum

/-- Egress tags of logical port u or of a Weft link, by the crossbar port they serve (R19; log entry 7). -/
def tagCap (k : Nat) : Nat := 1 + Config.tagExtra k

/-- A message that takes an egress tag: a request of CXL.mem or CXL.cache, a BISnp, a non-posted CXL.io request (R19, R238,
10 Table 10-5). -/
def needsTag (m : Msg) : Bool :=
  match m.op with
  | .ioNonPosted | .cacheD2H | .cacheH2D => true
  | _ => isRequest m.op || decide (m.mclass = 3)

/-- A free tag at the egress port of a message for output x (R19, R92). -/
def tagFree (s : State) (x : Nat) (m : Msg) : Bool :=
  if x < 48 then decide ((port s (outPort s x m)).tags.length < tagCap (outPort s x m))
  else if x < 56 then decide ((weft s (x - 48)).tags.length < tagCap (x + 48))
  else true

/-- The port or link that a message for output x leaves on is in L0 or UP; one that is not presents a ready vector of
all zeros (R231). -/
def attached (s : State) (x : Nat) (m : Msg) : Bool :=
  if x < 48 then (port s (outPort s x m)).inL0
  else if x < 56 then decide ((weft s (x - 48)).st = .up)
  else true

/-- Output x takes cells of message m's class at all (R92): it is not HELD, its port is in L0 and, for REQ, its egress port
holds a free tag. -/
def takesClass (s : State) (x : Nat) (m : Msg) : Bool :=
  notHeld s x && attached s x m && (decide (m.mclass ≠ 1) || tagFree s x m)

/-- Output x is ready for a cell of message m (R92): it takes the class, and the class's staging space has room. -/
def ready (s : State) (x : Nat) (m : Msg) : Bool :=
  takesClass s x m && decide (stagingUsed s x m.mclass.toNat < stagingCap x m.mclass.toNat)

/-! ## Choosing a cell (R93, R97, R98) -/

/-- The cell an input would send. -/
inductive Pick where
  /-- Resend of the unacknowledged cell of this seq. -/
  | resend (seq : BitVec 12)
  /-- The next cell of the VOQ with this index. -/
  | fresh (k : Nat)
  deriving DecidableEq, Repr

/-- A resend of group (i, x, sc) that may cross on plane n: on the other plane than before while that plane is up. Its
output takes its class; the cell's place in the staging space is kept since its first send. -/
def resendOf (s : State) (n i x sc : Nat) : Option Pick :=
  ((pair s (pairIx i x)).window.find? fun u =>
    u.due && decide (u.msg.sclass.toNat = sc) && takesClass s x u.msg
    && (decide (u.plane.toNat ≠ n) || decide ((plane s (1 - n)).st ≠ .up))).map fun u => .resend u.seq

/-- The head of VOQ k may cross (R92, R122): its output is ready for it, and while the output is RESUMING what its staging
held has gone out, and the head lies before the queue's mark or every mark has drained. -/
def headReady (s : State) (k : Nat) : Bool :=
  match (voq s k).buf with
  | [] => false
  | q :: _ =>
    decide (q.cells ≠ []) && ready s (voqOut k) q.msg
    && (decide ((output s (voqOut k)).st = .up)
      || (decide ((output s (voqOut k)).stagedMark = 0) && (decide (0 < (voq s k).mark) || marksDone s (voqOut k))))

/-- The head message of VOQ k is partly sent. -/
def partlySent (s : State) (k : Nat) : Bool :=
  match (voq s k).buf with
  | [] => false
  | q :: _ => decide (q.cells.length < q.total)

/-- The fresh cell of group (i, x, sc): a message already partly sent, else the next ready class after the one last
served (R93). -/
def freshOf (s : State) (i x sc : Nat) : Option Pick :=
  if 64 ≤ (pair s (pairIx i x)).window.length then none
  else
    let last := (tabGet 7 s.xbar.lastServed (groupIx i x sc)).toNat
    let ks := ((List.range 8).map fun j => voqIx i x ((last + 1 + j) % 8) sc).filter fun k => headReady s k
    match ks.find? fun k => partlySent s k with
    | some k => some (.fresh k)
    | none => ks.head?.map .fresh

/-- The cell of group (i, x, sc) for a slot on plane n: a resend ahead of every other cell (R97). -/
def pickGroup (s : State) (n i x sc : Nat) : Option Pick :=
  if (output s x).st = .held then none
  else
    match resendOf s n i x sc with
    | some p => some p
    | none => freshOf s i x sc

/-- Priority of group (i, o, sc) at output o (R99). In a slot to either xp of a ganged pair the rank is that of the slot's own
xp (log entry 116). -/
def groupPrio (s : State) (i o sc : Nat) : Nat :=
  if 0 < (tabGet Starve.init s.xbar.starve (groupIx i (queueXp s o) sc)).urgent then 8
  else txRank (traf s (8192 + o)) sc

/-- Groups of input i for output o that hold an eligible cell. -/
def eligible (s : State) (n i o : Nat) : List Nat :=
  (List.range 8).filter fun sc => (pickGroup s n i (queueXp s o) sc).isSome

/-- request_priority(i, o) of R100. -/
def requestPrio (s : State) (n i o : Nat) : Option Nat :=
  match eligible s n i o with
  | [] => none
  | l => some (l.foldl (fun p sc => max p (groupPrio s i o sc)) 0)

/-- The class whose group an input serves in a matched slot: one with a message partly sent, else the group of highest
priority, promoted groups in order of promotion (R93, R103). -/
def matchedClass (s : State) (n i o : Nat) : Option Nat :=
  let x := queueXp s o
  let l := eligible s n i o
  let mid := l.find? fun sc => match pickGroup s n i x sc with
    | some (.fresh k) => partlySent s k
    | _ => false
  match mid with
  | some sc => some sc
  | none =>
    let top := l.foldl (fun p sc => max p (groupPrio s i o sc)) 0
    let best := l.filter fun sc => decide (groupPrio s i o sc = top)
    let order := fun sc => (tabGet Starve.init s.xbar.starve (groupIx i x sc)).order
    best.find? fun sc => best.all fun sc' => decide (order sc ≤ order sc')

/-! ## The shuttle matcher (R100, R101) -/

/-- The first of a list of numbers at or after a pointer, wrapping at 64. -/
def firstFrom (ptr : Nat) : List Nat → Option Nat
  | [] => none
  | x :: xs =>
    match firstFrom ptr xs with
    | none => some x
    | some y => if (x + 64 - ptr) % 64 ≤ (y + 64 - ptr) % 64 then some x else some y

/-- The candidate of highest priority, the first at or after the pointer. -/
def bestFrom (ptr : Nat) (l : List (Nat × Nat)) : Option Nat :=
  let top := l.foldl (fun p c => max p c.2) 0
  firstFrom ptr ((l.filter fun c => decide (c.2 = top)).map (·.1))

/-- A match in progress on a plane: free inputs and outputs, pairs matched, those of the first iteration, pointers. -/
structure Matching where
  ins : List Nat
  outs : List Nat
  pairs : List (Nat × Nat)
  first : Nat
  gptr : Tab (BitVec 6)
  aptr : Tab (BitVec 6)
  deriving DecidableEq, Repr

/-- One request-grant-accept iteration. -/
def matchIter (s : State) (n iter : Nat) (m : Matching) : Matching :=
  let grants := m.outs.filterMap fun o =>
    (bestFrom (tabGet 0 m.gptr o).toNat
      (m.ins.filterMap fun i => (requestPrio s n i o).map fun p => (i, p))).map fun i => (o, i)
  let accepts := m.ins.filterMap fun i =>
    (bestFrom (tabGet 0 m.aptr i).toNat
      (grants.filterMap fun g => if g.2 = i then (requestPrio s n i g.1).map fun p => (g.1, p) else none)).map
      fun o => (i, o)
  let m1 := { m with
    ins := m.ins.filter fun i => !(accepts.any fun a => a.1 == i)
    outs := m.outs.filter fun o => !(accepts.any fun a => a.2 == o)
    pairs := m.pairs ++ accepts }
  if iter = 1 then
    accepts.foldl (fun m a => { m with
        first := m.first + 1
        gptr := tabSet 0 m.gptr a.2 (BitVec.ofNat 6 (a.1 + 1))
        aptr := tabSet 0 m.aptr a.1 (BitVec.ofNat 6 (a.2 + 1)) }) m1
  else m1

/-! ## Sending (R93, R96, R97, R102) -/

/-- The timer of a VOQ group after it has sent a cell: restarted, and one cell less of a promotion's quantum; the
promotion counts as it ends (R102). -/
def groupSent (i x sc : Nat) (s : State) : State :=
  let k := groupIx i x sc
  let g0 := tabGet Starve.init s.xbar.starve k
  let g := if sendWins g0 (now s) then { g0 with urgent := 0 } else g0
  let empty := !groupHolds s i x sc
  let left := if empty then 0 else g.urgent - 1
  let s1 := { s with xbar := { s.xbar with
    starve := tabSet Starve.init s.xbar.starve k
      { since := if empty then none else some s.tele.time, urgent := left, order := if left = 0 then 0 else g.order
        promoted := if left = 0 then 0 else g.promoted } } }
  if 0 < g.urgent ∧ left = 0 then
    setOutput i { output s1 i with promoteIn := (output s1 i).promoteIn + 1 } s1
  else s1

/-- Payload bytes of cell `idx` of a message: 64, but for the last one (Table 4-1 len; the message header is taken as 16
bytes, log entry 23). -/
def cellLen (m : Msg) (idx : Nat) : Nat := min 64 (m.len + 16 - 64 * idx)

/-- Bits [119:0] of the header of a cell that crosses from xp i to xp x (Table 4-1); the SECDED code over them stands in
[127:120]. -/
def cellHeader (i x : Nat) (u : Unacked) : BitVec 120 :=
  let c := match u.msg.colour with | .green => 0 | .yellow => 1 | .red => 2
  BitVec.ofNat 120 (x % 64 + i % 64 * 2 ^ 6 + u.msg.mclass.toNat * 2 ^ 12 + u.msg.sclass.toNat * 2 ^ 15
    + nb (decide (u.idx = 0)) * 2 ^ 18 + nb (decide (u.idx + 1 = u.total)) * 2 ^ 19 + nb u.msg.poison * 2 ^ 20
    + nb u.urg * 2 ^ 21 + c * 2 ^ 22 + u.seq.toNat * 2 ^ 24 + u.msg.feid.toNat * 2 ^ 36
    + u.msg.binding.toNat * 2 ^ 52 + nb u.msg.counted * 2 ^ 65 + cellLen u.msg u.idx * 2 ^ 66 + u.plane.toNat * 2 ^ 73
    + u.stamp.toNat * 2 ^ 80)

/-- The next cell of VOQ k crosses on plane n: numbered, unacknowledged, and out of the queue (R93, R96). -/
def sendFresh (n k : Nat) (s : State) : State :=
  let v := voq s k
  match v.buf with
  | [] => s
  | q :: rest =>
    match q.cells with
    | [] => s
    | c :: cs =>
      let i := voqIn k
      let x := voqOut k
      let p := pair s (pairIx i x)
      let g := tabGet Starve.init s.xbar.starve (groupIx i x (voqSc k))
      let u : Unacked :=
        { seq := p.nextSeq, cellId := c, msg := q.msg, idx := q.total - q.cells.length, total := q.total,
          stamp := q.stamp, urg := decide (0 < g.urgent) && !sendWins g (now s), plane := BitVec.ofNat 1 n,
          lostOn := BitVec.ofNat 1 n, sentAt := s.tele.time, resends := 0, flying := true, due := false, acked := false }
      let s1 := setPair (pairIx i x) { p with nextSeq := p.nextSeq + 1, window := p.window ++ [u] } s
      let v' := if cs = [] then { v with buf := rest, mark := v.mark - 1 }
                else { v with buf := { q with cells := cs } :: rest }
      let s2 := own c .awaitingAck (setVoq k v' s1)
      let s3 := if cs = [] then countOut 82 q.msg s2 else s2
      let s3 := if u.idx = 0 then countIn (56 + n) q.msg s3 else s3
      groupSent i x (voqSc k) { s3 with xbar := { s3.xbar with
        lastServed := tabSet 7 s3.xbar.lastServed (groupIx i x (voqSc k)) (BitVec.ofNat 3 (voqMc k)) } }

/-- The resend of a pair's cell crosses on plane n (R97). -/
def sendAgain (n i x : Nat) (seq : BitVec 12) (s : State) : State :=
  let p := pair s (pairIx i x)
  let w := p.window.map fun u => if u.seq = seq then
      { u with plane := BitVec.ofNat 1 n, lostOn := u.plane, sentAt := s.tele.time, resends := u.resends + 1,
               flying := true, due := false }
    else u
  setPair (pairIx i x) { p with window := w } s

/-- A chosen cell of group (i, x, sc) crosses on plane n. -/
def sendPick (n i x sc : Nat) (p : Pick) (s : State) : State :=
  match p with
  | .fresh k => sendFresh n k s
  | .resend q => groupSent i x sc (sendAgain n i x q s)

/-- A group's cell crosses to output o on plane n, and counts; none where the group has none to send. -/
def sendCell (n i o sc : Nat) (a : Nat × State) : Nat × State :=
  match pickGroup a.2 n i (queueXp a.2 o) sc with
  | none => a
  | some p => (a.1 + 1, sendPick n i (queueXp a.2 o) sc p a.2)

/-! ## One slot (R95, R98, R100) -/

/-- First tick of slot a, counted from fabric time 0: 6.4 ticks a slot. -/
def slotTick (a : Nat) : Nat := (a * 64 + 9) / 10
/-- First slot that begins at or after tick t. -/
def slotAt (t : Nat) : Nat := (t * 10 + 63) / 64

/-- Woven entries of a slot on a plane: input, output and class; an entry whose word is uncorrectable acts as v = 0
until it is reloaded (15 Table 15-3). -/
def wovenOf (s : State) (n slot : Nat) : List (Nat × Nat × Nat) :=
  let w := tabGet 0 (weaveNow s) (1280 * n + slot % 1280)
  (List.range 64).filterMap fun i =>
    if bit w (16 * i + 15) && !tableBad s 6 ((1280 * n + slot % 1280) * 64 + i) then
      some (i, fnat w (16 * i) 6, fnat w (16 * i + 12) 3)
    else none

/-- Inputs that hold a cell or a resend. -/
def busyInputs (s : State) : List Nat :=
  (List.range 64).filter fun i =>
    s.xbar.voqs.any (fun p => voqIn p.1 == i) || s.xbar.pairs.any (fun p => p.1 / 64 == i)

/-- Slot counter k of a plane grows by d. -/
def slotUp (k d : Nat) (p : Plane) : Plane :=
  { p with slotCnt := tabSet 0 p.slotCnt k (tabGet 0 p.slotCnt k + BitVec.ofNat 64 d) }

/-- Ticks between the start of a slot's match computation and the slot: 4 cell times, rounded up (R98). -/
def matchLead : Nat := 26

/-- A cell that stood in its queue when the match computation of a slot at tick t began: a resend, or a message written at
least 4 cell times before (R98; log entry 117). -/
def stoodBefore (s : State) (t : Nat) (p : Pick) : Bool :=
  match p with
  | .resend _ => true
  | .fresh k =>
    match (voq s k).buf with
    | [] => false
    | q :: _ => decide (matchLead ≤ (BitVec.ofNat 32 t - q.stamp).toNat)

/-- A woven entry is fixed where its input holds a cell of its class for its output, which is ready for it; a fixed pair's
cell always crosses, so that the next entry is looked at with that cell sent (R98). -/
def fixEntry (n t : Nat) (a : List (Nat × Nat × Nat) × State) (e : Nat × Nat × Nat) : List (Nat × Nat × Nat) × State :=
  let x := queueXp a.2 e.2.1
  match pickGroup a.2 n e.1 x e.2.2 with
  | some p => if stoodBefore a.2 t p then (a.1 ++ [e], sendPick n e.1 x e.2.2 p a.2) else a
  | none => a

/-- One slot of plane n: woven pairs fixed first and their cells sent, the rest matched, and every matched pair's cell sent
(R98, R100). -/
def runSlot (n slot : Nat) (s : State) : State :=
  let woven := wovenOf s n slot
  let f := woven.foldl (fixEntry n (slotTick slot)) ([], s)
  let fixed := f.1
  let p := plane f.2 n
  let m0 : Matching :=
    { ins := (busyInputs f.2).filter fun i => !(fixed.any fun e => e.1 == i)
      outs := (List.range 64).filter fun o => !(fixed.any fun e => e.2.1 == o)
      pairs := [], first := 0, gptr := p.gptr, aptr := p.aptr }
  let m := matchIter f.2 n 3 (matchIter f.2 n 2 (matchIter f.2 n 1 m0))
  let r := m.pairs.foldl (fun a q => match matchedClass a.2 n q.1 q.2 with
    | none => a
    | some sc => sendCell n q.1 q.2 sc a) (0, setPlane n { p with gptr := m.gptr, aptr := m.aptr, nextSlot := slot + 1 } f.2)
  setPlane n (slotUp 4 (64 - fixed.length - r.1) (slotUp 3 m.first (slotUp 2 m.pairs.length
    (slotUp 1 (woven.length - fixed.length) (slotUp 0 fixed.length (plane r.2 n)))))) r.2

/-! ## Plane loss (R109 to R112) -/

/-- The first symptom of an UP plane is noted; later ones add nothing (R109). -/
def planeSymptom (n : Nat) (c : PlaneCause) (s : State) : State :=
  let p := plane s n
  if p.st = .up ∧ p.symptom = none then setPlane n { p with symptom := some (c, s.tele.time) } s else s

/-- The plane's error counts of the current frame; a new frame starts them at 0. -/
def frameCounts (t : Nat) (p : Plane) : Plane :=
  if p.errFrame.toNat = t / frameTicks then p
  else { p with errFrame := BitVec.ofNat 64 (t / frameTicks), hdrErr := [], recovered := [] }

/-- Output x counts a header failure on plane n: 16 in one frame are a symptom (R109). -/
def headerError (n x : Nat) (s : State) : State :=
  let p := slotUp 5 1 (frameCounts (now s) (plane s n))
  let k := tabGet 0 p.hdrErr x + 1
  let s1 := countErr (56 + n) (raiseFree 3 0x10 (source 5 n)
    (setPlane n { p with hdrErr := tabSet 0 p.hdrErr x k } s))
  if 16 ≤ k then planeSymptom n .headerErrors s1 else s1

/-- Output x counts a cell of input i that a resend recovered from plane n: 4 in one frame are a symptom (R109). -/
def recoveredCell (n i x : Nat) (s : State) : State :=
  let p := frameCounts (now s) (plane s n)
  let k := tabGet 0 p.recovered (pairIx i x) + 1
  let s1 := setPlane n { p with recovered := tabSet 0 p.recovered (pairIx i x) k } s
  if 4 ≤ k then planeSymptom n .resends s1 else s1

/-- Cells last sent on plane n whose acknowledgement has not come are to be resent on the other plane (R110 step 4). -/
def resendPlane (n : Nat) (s : State) : State :=
  let hit := fun (u : Unacked) => decide (u.plane.toNat = n) && !u.due
  let k := (s.xbar.pairs.map fun p => (p.2.window.filter hit).length).sum
  let ps := tabMap Pair.init
    (fun _ p => { p with window := p.window.map fun u => if hit u then { u with flying := false, due := true } else u })
    s.xbar.pairs
  let s1 := { s with xbar := { s.xbar with pairs := ps } }
  setPlane n { plane s1 n with resendCount := satAdd (plane s1 n).resendCount k } s1

/-- Plane n is on its way back in an exit from DOZE or a rollback: it was ON before the entry (17 R404, R408). -/
def comingBack (s : State) (n : Nat) : Bool :=
  (s.pmu.exiting || s.pmu.rolling) && decide (tabGet .on s.pmu.before (168 + n) = .on)

/-- Plane n has been lost and does not carry traffic: DOWN, STANDBY, or in TEST after a loss; a plane in TEST at an exit from
DOZE or in a rollback has not been lost (R111, R112, 17 R404, R408). -/
def planeLost (s : State) (n : Nat) : Bool :=
  match (plane s n).st with
  | .up => false
  | .down | .standby => true
  | .test => !comingBack s n

/-- Plane n is declared lost with a cause (R109 to R112): PLANE_DOWN, its cells to the other plane, PLANE_LOSS indexed,
its domain awaiting its one reset. The loss of the second plane raises NO_PLANE (R111). -/
def planeDown (n : Nat) (c : PlaneCause) (s : State) : State :=
  let p := plane s n
  if p.st ≠ .up then s
  else
    let s1 := setPlane n { p with st := .down, cause := c, lossCount := satAdd p.lossCount 1, symptom := none,
                                  checkFail := false, rejoin := false, hdrErr := [], recovered := [] } s
    let d := domain s1 (168 + n)
    let s2 := setDomain (168 + n) { d with st := .off, step := 0, fromRet := false, misses := 0 } (resendPlane n s1)
    let s3 := trigger 3 n (raiseFreeCond 3 1 (source 5 n) s2)
    if planeLost s3 (1 - n) then raiseFree 3 3 (source 0 0) s3 else s3

/-! ## Loom links (R113) -/

/-- Loom link n. -/
def loom (s : State) (n : Nat) : LoomLink := tabGet LoomLink.init s.xbar.looms n
/-- The state with loom link n replaced. -/
def setLoom (n : Nat) (l : LoomLink) (s : State) : State :=
  { s with xbar := { s.xbar with looms := tabSet LoomLink.init s.xbar.looms n l } }

/-- Outputs that cross the link of loom n. -/
def loomXps (n : Nat) : List Nat := [6 * n, 6 * n + 1, 6 * n + 2, 6 * n + 3, 6 * n + 4, 6 * n + 5, 48 + n]

/-- The external link of xp x stayed up: its Weft link is UP, or one of its logical ports is and neither half of it waits
for its own return (R113, 10 R237). -/
def linkLive (s : State) (x : Nat) : Bool :=
  if x < 48 then ([2 * x, 2 * x + 1].any fun u => decide ((port s u).st = .up)) && !anyHalfDown s x
  else decide ((weft s (x - 48)).st = .up) && !(weft s (x - 48)).held

end Sys2Proof.Machine
end

