-- ==== Sys2Proof/Machine/BufOps.lean ====
section
/-! DEFINITION. Shared operations of the cell buffer's background work: refill, lost chunks, the audit and age discard
(Shared Cell Buffer and Reservoir). -/

namespace Sys2Proof.Machine

open Sys2Proof

/-! ## Refill (R127, R128) -/

/-- Cells of a VOQ's buffer segment. -/
def segCells (v : Voq) : Nat := (v.buf.map fun q => q.cells.length).sum

/-- `n` cells leave a segment's chunks, head first; a chunk goes when its last cell has left. -/
def takeFromChunks : Nat → List Chunk → List Chunk
  | _, [] => []
  | n, c :: cs => if c.cells ≤ n then takeFromChunks (n - c.cells) cs else { c with cells := c.cells - n } :: cs

/-- The head message of VOQ k's segment leaves the reservoir; the queue's resume mark is as the caller leaves it. -/
def popRes (k : Nat) (s : State) : State :=
  let v := voq s k
  match v.res with
  | [] => s
  | r :: rest =>
    let q := keyIx (voqOut k) (voqMc k)
    let ch := takeFromChunks r.cells v.chunks
    let s1 := setVoq k { v with res := rest, chunks := ch } s
    let key := bufKey s1 q
    freeChunks q v.chunks ch (setKey q { key with resCells := key.resCells - BitVec.ofNat 28 r.cells } s1)

/-- Messages of VOQ k's segment are refilled while the head chunk's cells last and case 2 or 3 admits the next one,
`n` of them at most; `room` is what is left of the head chunk. They keep their stamps and their place before the resume
mark (R128, R122). -/
def refill (k : Nat) : Nat → Nat → State → State
  | 0, _, s => s
  | n + 1, room, s =>
    match (voq s k).res with
    | [] => s
    | r :: _ =>
      if room = 0 ∨ admits s k r.cells = false then s
      else
        match appendBuf k r.msg r.stamp (popRes k s) with
        | none => s
        | some s1 => refill k n (room - r.cells) s1

/-! ## Lost chunks (R129, R130) -/

/-- The cells [a, b) of a segment meet a lost chunk. -/
def meetsLost (lost : Nat → Chunk → Bool) (a b : Nat) : Nat → Nat → List Chunk → Bool
  | _, _, [] => false
  | j, p, c :: cs => (lost j c && decide (p < b) && decide (a < p + c.cells)) || meetsLost lost a b (j + 1) (p + c.cells) cs

/-- A segment's messages, each with whether a cell of it lies in a lost chunk. -/
def lostFlags (lost : Nat → Chunk → Bool) (chunks : List Chunk) : Nat → List RMsg → List (RMsg × Bool)
  | _, [] => []
  | p, r :: rs => (r, meetsLost lost p (p + r.cells) 0 0 chunks) :: lostFlags lost chunks (p + r.cells) rs

/-- The chunks of VOQ k's segment that `lost` names are lost, with every message that has a cell in one; its requesters
see their completion timeout, and what the messages belong to leaves flight (R129, 09 R218). Answers the number of messages
lost too. -/
def loseChunks (k : Nat) (lost : Nat → Chunk → Bool) (s : State) : Nat × State :=
  let v := voq s k
  let q := keyIx (voqOut k) (voqMc k)
  let f := lostFlags lost v.chunks 0 v.res
  let gone := (f.filter (·.2)).map (·.1)
  let left := (f.filter fun r => !r.2).map (·.1)
  let ch := chopChunks v.chunks ((f.map fun r => List.replicate r.1.cells r.2).flatten)
  let mark := markAfter v.mark ((v.buf.map fun _ => false) ++ f.map (·.2))
  let s1 := setVoq k { v with res := left, chunks := ch, mark := mark } s
  let key := bufKey s1 q
  let s2 := freeChunks q v.chunks ch
    (setKey q { key with resCells := key.resCells - BitVec.ofNat 28 (gone.map (·.cells)).sum } s1)
  let s3 := voqSettle k (gone.foldl (fun s r => discardMsg r.msg s) s2)
  (gone.length, { s3 with xbar := { s3.xbar with
    lostMsgs := tabSet 0 s3.xbar.lostMsgs (voqOut k) (tabGet 0 s3.xbar.lostMsgs (voqOut k) + gone.length) } })

/-! ## Audit (R131 to R133) -/

/-- A pass starts, in a new colour (R131). -/
def startPass (s : State) : State :=
  { s with xbar := { s.xbar with
      auditPhase := .walk, auditRun := false, auditStart := s.tele.time, passColour := !bit s.xbar.passes 0 } }

/-- Cells on the buffer's lists: in VOQs, in the proxy's park lists (06 R149) and in acknowledgement windows. -/
def listed (s : State) : List Nat :=
  (s.proxy.slices.map fun p => (p.2.park.map (·.cells)).flatten).flatten ++ (s.xbar.voqs.map fun p => (p.2.buf.map (·.cells)).flatten).flatten
  ++ (s.xbar.pairs.map fun p => p.2.window.map (·.cellId)).flatten

/-- The pass colour written into a cell's metadata. -/
def colourCell (s : State) (id : Nat) : State :=
  { s with xbar := { s.xbar with
      cells := tabSet CellMeta.init s.xbar.cells id { cellMeta s id with colour := s.xbar.passColour } } }

/-- The first `n` cells of a buffer segment; the messages cut off or cut short, and the cells cut off. -/
def cutAfter : Nat → List QMsg → List QMsg × List Msg × List Nat
  | _, [] => ([], [], [])
  | n, q :: qs =>
    let r := cutAfter (n - q.cells.length) qs
    if q.cells.length ≤ n then (q :: r.1, r.2.1, r.2.2)
    else if n = 0 then (r.1, q.msg :: r.2.1, q.cells ++ r.2.2)
    else ({ q with cells := q.cells.take n } :: r.1, q.msg :: r.2.1, q.cells.drop n ++ r.2.2)

/-- The walk finds VOQ k broken after `n` good cells: the list is truncated and BUF-0x0022 raised; what is cut off is on
no list until the sweep (R133). -/
def breakVoq (k n : Nat) (s : State) : State :=
  let v := voq s k
  let c := cutAfter n v.buf
  let q := keyIx (voqOut k) (voqMc k)
  let kept := c.1.length
  let gone := (List.range v.buf.length).map fun j => decide (kept ≤ j)
  let s1 := uncharge q c.2.2.length (setVoq k { v with buf := c.1, mark := markAfter v.mark gone } s)
  let s2 := voqSettle k (c.2.1.foldl (fun s m => discardMsg m s) s1)
  raise 4 0x22 (srcOfXp (voqOut k)) (BitVec.ofNat 64 q) s2

/-- The walk finds the acknowledgement window of pair k broken after `n` good cells: what is cut off is not sent again, and
its key ends its charge (R133). -/
def breakWindow (k n : Nat) (s : State) : State :=
  let x := k % 64
  let p := pair s k
  let cut := p.window.drop n
  let s1 := cut.foldl (fun s u => uncharge (keyIx x u.msg.mclass.toNat) 1 s) (setPair k { p with window := p.window.take n } s)
  let s2 := cut.foldl (fun s u => if u.acked then s else reseqIn (k / 64) x u.seq (ecellOf u false true) s) s1
  raise 4 0x22 (srcOfXp x) (BitVec.ofNat 64 (keyIx x ((cut.head?.map fun u => u.msg.mclass.toNat).getD 0))) s2

/-- The walk finds a bank's free list broken: `n` free cells are cut off it until the sweep (R133). -/
def breakFree (b n : Nat) (s : State) : State :=
  raiseFree 4 0x22 (source 0 0)
    { s with xbar := { s.xbar with cutFree := tabSet 0 s.xbar.cutFree b (min n (40960 - bankUsed s b)) } }

/-- A list that the walk finds broken is truncated (R133). -/
def breakList (s : State) (b : BrokenList) : State :=
  match b with
  | .voq k n => breakVoq k.toNat n.toNat s
  | .window i x n => breakWindow (pairIx i.toNat x.toNat) n.toNat s
  | .free b n => breakFree b.toNat n.toNat s

/-- Cells that the sweep reclaims: in use, and not of the pass colour. -/
def leaked (s : State) : List Nat :=
  (s.xbar.cells.filter fun p => decide (p.2.owner ≠ .free) && p.2.colour != s.xbar.passColour).map (·.1)

/-! ## Age discard (R134, R135) -/

/-- The head message of VOQ k is over age: its output is UP, it has no reservoir segment, and its stamp lies at least
age_limit back. -/
def overAge (s : State) (k : Nat) : Bool :=
  let v := voq s k
  match v.buf with
  | [] => false
  | q :: _ =>
    decide ((output s (voqOut k)).st = .up) && decide (v.chunks = [])
    && decide (bfAge (bufRec s 64) ≠ 0)
    && decide (bfAge (bufRec s 64) * usTicks ≤ (s.tele.time.setWidth 32 - q.stamp).toNat)

/-- The head message of VOQ k is discarded for its age. -/
def ageDiscard (k : Nat) (s : State) : State :=
  let v := voq s k
  match v.buf with
  | [] => s
  | q :: rest =>
    let x := voqOut k
    let key := keyIx x (voqMc k)
    let s1 := uncharge key q.cells.length (ownAll q.cells .free (setVoq k { v with buf := rest, mark := v.mark - 1 } s))
    let o := output s1 x
    let s2 := setOutput x { o with ageCells := o.ageCells + BitVec.ofNat 32 q.cells.length, ageMsgs := o.ageMsgs + 1 } s1
    let s3 := voqSettle k (raise 4 0x30 (srcOfXp x) (BitVec.ofNat 64 x) s2)
    if isRequest q.msg.op then failRequest q.msg s3 else s3

end Sys2Proof.Machine
end

