-- ==== Sys2Proof/Machine/Respond.lean ====
section
/-! DEFINITION. Completions on their way back through the crossbar, and which logical port a message leaves on. -/

namespace Sys2Proof.Machine

open Sys2Proof

/-- Engine that works on a descriptor's line. -/
def engineOf (s : State) (inst : BitVec 10) (q : BitVec 2) (index : BitVec 16) (line : Nat) : Nat :=
  match s.scribe.descs.find? fun d => decide (d.inst = inst) && decide (d.q = q) && decide (d.index = index)
      && decide (d.order = line / 2 ^ 25) with
  | some d => d.engine.toNat
  | none => 0

/-- Crossbar port of a requester: its port's, engines 0 to 7 and 8 to 15 at xp 60 and 61, a slice at xp 56 + k ÷ 2, the
management complex at xp 62 (01 Table 1-4). -/
def xpOfReq (s : State) (r : Requester) : Nat :=
  match r with
  | .host u => queueXp s (u.toNat / 2)
  | .device u => queueXp s (u.toNat / 2)
  | .engine i q x l => 60 + engineOf s i q x l / 8
  | .slice k _ => 56 + k.toNat / 2
  | .fabric xp _ => xp.toNat
  | .mgmt => 62

/-- A completion enters the crossbar at xp `at_` toward its requester. -/
def deliver (at_ : Nat) (c : Msg) (s : State) : State :=
  enqueue (xpOfReq s c.req) { c with inXp := BitVec.ofNat 6 at_ } s

/-- Latency of a completed request at set b: LAT_SUM and LAT_OVER (14 Table 14-5). -/
def countLat (b : Nat) (m : Msg) (s : State) : State :=
  let lat := (s.tele.time - m.born).toNat
  countEv b 7 lat (some m) (countEv b 6 lat (some m) s)

/-- A request is completed with c, which enters the crossbar at xp `at_`; it leaves flight, unless it is a scribe line,
which does so when its completion reaches the engine (R76, R218). -/
def completeWith (at_ : Nat) (m c : Msg) (err : Bool) (s : State) : State :=
  let s1 := deliver at_ c s
  match m.req with
  | .engine .. => s1
  | _ => retire m err s1

end Sys2Proof.Machine
end

