-- ==== Sys2Proof/Machine/LaneOps.lean ====
section
/-! DEFINITION. Shared operations of the lane array: which lanes a port or link has, presets, and lane states (Lane Array
and Signal Integrity). -/

namespace Sys2Proof.Machine

open Sys2Proof

/-- Lane l. -/
def lane (s : State) (l : Nat) : Lane := tabGet Lane.init s.lane.lanes l
/-- The state with lane l replaced. -/
def setLane (l : Nat) (v : Lane) (s : State) : State :=
  { s with lane := { s.lane with lanes := tabSet Lane.init s.lane.lanes l v } }
/-- Quad q. -/
def quad (s : State) (q : Nat) : Quad := tabGet Quad.init s.lane.quads q
/-- The state with quad q replaced. -/
def setQuad (q : Nat) (v : Quad) (s : State) : State :=
  { s with lane := { s.lane with quads := tabSet Quad.init s.lane.quads q v } }
/-- L0p state of logical port u. -/
def l0pOf (s : State) (u : Nat) : L0p := tabGet L0p.init s.lane.l0p u
/-- The state with the L0p state of logical port u replaced. -/
def setL0p (u : Nat) (v : L0p) (s : State) : State :=
  { s with lane := { s.lane with l0p := tabSet L0p.init s.lane.l0p u v } }

/-- The reference input that quad q's PLL runs from is present (R286, R287). -/
def quadRef (s : State) (q : Nat) : Bool :=
  if 96 ≤ q then bit s.lane.present 2 else bit s.lane.present (if bit s.lane.refSel (q / 12) then 1 else 0)

/-- A lane state in which its quad's PLL runs (Table 12-4). -/
def pllRuns (st : LaneSt) : Bool :=
  match st with
  | .l0 | .l0pIdle | .l1Pll | .test => true
  | .l1NoPll | .off => false

/-- Quad q's PLL follows its lanes and its reference: locked, at their rate, while one needs it and the reference is
there (R285, R287). -/
def quadTouch (q : Nat) (s : State) : State :=
  let on := ((List.range 4).map fun i => lane s (4 * q + i)).filter fun v => pllRuns v.st
  let lock := !on.isEmpty && quadRef s q
  let v := quad s q
  let rate := match on with | w :: _ => if lock then w.rate else v.rate | [] => v.rate
  if v.pllLock = lock ∧ v.rate = rate then s else setQuad q { v with pllLock := lock, rate := rate } s

/-- Lane l replaced, and its quad's PLL following it. -/
def putLane (l : Nat) (v : Lane) (s : State) : State := quadTouch (l / 4) (setLane l v s)

/-- Lanes of logical port u by its PORT record: eight, four for a split half, sixteen for a ganged pair (R285, Table 3-1). -/
def lanesOf (s : State) (u : Nat) : List Nat :=
  let p := u / 2
  let h := u % 2
  match prMode (portRec s p) with
  | 1 => if h = 0 then (List.range 8).map (8 * p + ·) else []
  | 2 => (List.range 4).map (8 * p + 4 * h + ·)
  | 3 => if h = 0 ∧ p % 2 = 0 then (List.range 16).map (8 * p + ·) else []
  | _ => []

/-- Lanes of Weft link n. -/
def weftLanes (n : Nat) : List Nat := (List.range 4).map (384 + 4 * n + ·)

/-- Logical port that lane l serves, of a CXL lane (R285). -/
def portOfLane (s : State) (l : Nat) : Nat :=
  let p := l / 8
  match prMode (portRec s p) with
  | 2 => 2 * p + l % 8 / 4
  | 3 => 2 * (p - p % 2)
  | _ => 2 * p

/-! ## Presets (R288 to R291, Tables 12-2, 12-3) -/

/-- A preset record from its fields. -/
def presetRec (l rate flags txp : Nat) (taps : BitVec 32) (ctle cmin cmax dfe flt h1 : Nat) : BitVec 128 :=
  BitVec.ofNat 128 (l + rate * 2 ^ 16 + flags * 2 ^ 24 + txp * 2 ^ 32 + taps.toNat * 2 ^ 40 + ctle * 2 ^ 72
    + cmin * 2 ^ 80 + cmax * 2 ^ 88 + dfe * 2 ^ 96 + flt * 2 ^ 104 + h1 * 2 ^ 112)

/-- The default preset (Table 12-3); a Weft lane's carries its explicit taps 0, −6, 50, −8. -/
def defaultPreset (l rate : Nat) : BitVec 128 :=
  if rate ≤ 1 then presetRec l rate 0 1 0 12 0 31 4 0 96
  else if rate ≤ 6 then presetRec l rate 0 5 0 12 0 31 12 4 96
  else presetRec l rate 2 0 0xF832FA00#32 12 0 31 12 4 96

/-- The record of the working copy for a lane and rate (R289, R291). -/
def presetOf (s : State) (l rate : Nat) : BitVec 128 :=
  match tabGet none s.lane.presets (l * 8 + rate) with
  | some r => r
  | none => defaultPreset l rate

/-- lane of a preset record. -/
def psLane (r : BitVec 128) : Nat := fnat r 0 16
/-- rate of a preset record. -/
def psRate (r : BitVec 128) : Nat := fnat r 16 8
/-- flags[2] unused. -/
def psUnused (r : BitVec 128) : Bool := bit r 26
/-- CTLE start, minimum and maximum. -/
def psCtle (r : BitVec 128) : Nat × Nat × Nat := (fnat r 72 8, fnat r 80 8, fnat r 88 8)
/-- h1_max. -/
def psH1 (r : BitVec 128) : Nat := fnat r 112 8
/-- tap[k], signed. -/
def psTap (r : BitVec 128) (k : Nat) : Int := (fld r (40 + 8 * k) 8).toInt

/-- Offset of the first byte of a preset record that lies outside its range (Table 12-2, R289); none for a valid one. -/
def presetBad (r : BitVec 128) : Option Nat :=
  let l := psLane r
  let rate := psRate r
  let c := psCtle r
  if 416 ≤ l then some 0
  else if 7 < rate ∨ (rate = 7 ∧ l < 384) ∨ (rate < 7 ∧ 384 ≤ l) then some 2
  else if 8 ≤ fnat r 24 8 then some 3
  else if (rate ≤ 1 ∧ 1 < fnat r 32 8) ∨ (2 ≤ rate ∧ rate ≤ 6 ∧ 10 < fnat r 32 8) then some 4
  else if bit r 25 && (decide (64 < (psTap r 0).natAbs + (psTap r 1).natAbs + (psTap r 2).natAbs + (psTap r 3).natAbs)
      || decide (psTap r 2 < 32)) then some 5
  else if 31 < c.1 ∨ 31 < c.2.1 ∨ 31 < c.2.2 ∨ c.1 < c.2.1 ∨ c.2.2 < c.1 then some 9
  else if fnat r 96 8 = 0 ∨ 12 < fnat r 96 8 then some 12
  else if 4 < fnat r 104 8 then some 13
  else if psH1 r = 0 ∨ 127 < psH1 r then some 14
  else if fnat r 120 8 ≠ 0 then some 15
  else none

/-! ## Adaptation (R293, R294) -/

/-- A coefficient that has moved by at most `k` and stays within `lim`: the line decides where, a free value (log entry
137). -/
def drift (f : BitVec 64) (k lim : Nat) (h : BitVec 8) : BitVec 8 :=
  let lo := max (-(lim : Int)) (h.toInt - k)
  let hi := min (lim : Int) (h.toInt + k)
  if hi < lo then h else BitVec.ofInt 8 (lo + (f.toNat % ((hi - lo).toNat + 1) : Nat))

/-- Positions of the floating taps: those enabled stand anywhere from 13 to 48, the others at 0 (R293). -/
def driftPos (f : BitVec 64) (taps : Nat) : BitVec 24 :=
  BitVec.ofNat 24 ((List.range (min taps 4)).foldl (fun n k => n + (13 + fnat f (16 * k) 16 % 36) * 2 ^ (6 * k)) 0)

/-- A converged lane that carries data has adapted up to the present: at most 1 LSB per 64 ns for each coefficient, within
h1_max and the enabled taps (R293). -/
def adaptSync (l : Nat) (s : State) : State :=
  let v := lane s l
  let k := (s.tele.time - v.adaptAt).toNat / 512
  if (v.st = .l0 ∨ v.st = .test) ∧ v.converged ∧ 0 < k then
    let r := v.preset.getD (presetOf s l v.rate.toNat)
    let w := { v with
      adaptAt := s.tele.time
      h1 := drift (freeVal 64 s) k (psH1 r) v.h1
      h2 := if fnat r 96 8 < 2 then 0 else drift (freeVal 64 (tookFree s)) k 127 v.h2
      floatPos := driftPos (freeVal 64 (tookFree (tookFree s))) (fnat r 104 8) }
    setLane l w (tookFree (tookFree (tookFree s)))
  else s

/-! ## Lane states (R294, R295) -/

/-- The margin scans of the lanes ls end ABORTED: a lane leaves L0 or its test, or its link is down (R302). -/
def endScans (ls : List Nat) (s : State) : State :=
  let ms := s.lane.margins.map fun m => if ls.contains m.lane then { m with aborted := true } else m
  { s with lane := { s.lane with margins := ms } }

/-- Lane l enters a power state, its adaptation ending or resuming there; one that leaves OFF starts afresh from its preset
at the rate, and one that enters OFF keeps nothing (R294). -/
def laneTo (st : LaneSt) (rate : Nat) (l : Nat) (s : State) : State :=
  let s := adaptSync l s
  let v : Lane := { lane s l with adaptAt := s.tele.time }
  if v.st = st ∧ v.rate.toNat = rate then s
  else if st = .off then
    endScans [l] (putLane l { v with st := .off, since := stamp s, converged := false, signal := false, ctle := 0, h1 := 0,
                                     h2 := 0, floatPos := 0, limitRaised := false, preset := none } s)
  else
    let fresh := decide (v.st = .off) || decide (v.rate.toNat ≠ rate)
    let r := presetOf s l rate
    let v1 := { v with st := st, rate := BitVec.ofNat 3 rate, since := if v.st = st then v.since else stamp s }
    let s1 := if st = .l0 then s else endScans [l] s
    putLane l (if fresh then { v1 with ctle := BitVec.ofNat 5 (psCtle r).1, h1 := 0, h2 := 0, floatPos := 0,
                                       converged := false, limitRaised := false, preset := some r } else v1) s1

/-- A list of lanes enters a power state. -/
def lanesTo (st : LaneSt) (rate : Nat) (ls : List Nat) (s : State) : State :=
  ls.foldl (fun s l => laneTo st rate l s) s

/-- The lanes of a training link: signal present, equalising afresh from their presets, their decision feedback at 0
(R291, R292; DEDUCED: a preset record gives no value of h1, h2 or float_pos). Their margin scans have ended. -/
def equalise (rate : Nat) (ls : List Nat) (s : State) : State :=
  endScans ls <| ls.foldl (fun s l =>
    let v := lane s l
    let r := presetOf s l rate
    putLane l { v with st := .l0, rate := BitVec.ofNat 3 rate, signal := true, converged := false, limitRaised := false,
                       ctle := BitVec.ofNat 5 (psCtle r).1, h1 := 0, h2 := 0, floatPos := 0,
                       adaptAt := s.tele.time, preset := some r,
                       since := if v.st = .l0 then v.since else stamp s } s) s

end Sys2Proof.Machine
end

