-- ==== Sys2Proof/Machine/ProxyOps.lean ====
section
/-! DEFINITION. Shared operations of the coherence proxy: homing, the snoop filter, the directory cache, trackers, the line
state table and departure (Coherence Proxy and Snoop Filter). -/

namespace Sys2Proof.Machine

open Sys2Proof

/-! ## Homing (R141, R142) -/

/-- Line number of a shared address. -/
def lineNo (sa : BitVec 48) : Nat := sa.toNat / 64
/-- x of R142. -/
def sfX (sa : BitVec 48) : Nat := (fnat sa 13 19 * 8 + fnat sa 10 2 * 2 + fnat sa 6 1) ^^^ (fnat sa 32 16 * 64)
/-- Snoop-filter set of a line within its partition. -/
def sfSet (s : State) (sa : BitVec 48) : Nat := if s.boot.hb then sfX sa / 2 else sfX sa
/-- Tag of a line. -/
def sfTag (s : State) (sa : BitVec 48) : Nat :=
  if s.boot.hb then sfX sa % 2 * 2 ^ 16 + fnat sa 32 16 else fnat sa 32 16
/-- Home stack of a line is stack B. -/
def homeB (sa : BitVec 48) : Bool := bit sa 12
/-- Slice of a line. -/
def saSlice (sa : BitVec 48) : Nat := sliceOf (sa.setWidth 64)
/-- Coarse-tracker region of a line. -/
def regionOf (sa : BitVec 48) : Nat := sa.toNat / 2 ^ 26
/-- The line is homed on a lost stack (R159). -/
def homeLost (s : State) (hsB : Bool) : Bool := s.proxy.degraded && decide (hsB = s.proxy.lostStack)
/-- Stack whose partition a line with home stack hsB is looked up in. -/
def sfStack (s : State) (hsB : Bool) : Bool := if homeLost s hsB then !hsB else hsB
/-- Index of way 0 of a set of the snoop filter. -/
def sfIx (sl : Nat) (stackB : Bool) (set : Nat) : Nat := ((sl * 2 + nb stackB) * 2 ^ 22 + set) * 16
/-- Number of a set over all partitions. -/
def sfSetNo (s : State) (sa : BitVec 48) : Nat := sfIx (saSlice sa) (sfStack s (homeB sa)) (sfSet s sa) / 16
/-- Index of way 0 of a line's directory set: by the stack of the partition it is looked up in (R146, R159). -/
def dirIx (s : State) (sa : BitVec 48) : Nat := (nb (sfStack s (homeB sa)) * 8192 + sfSet s sa % 8192) * 16
/-- The shared address of a snoop-filter entry from its slice, set, tag and home stack. -/
def saOf (s : State) (sl set tag : Nat) (hsB : Bool) : BitVec 48 :=
  let hi := tag % 2 ^ 16
  let x := (if s.boot.hb then set * 2 + tag / 2 ^ 16 % 2 else set) ^^^ (hi * 64)
  let a : BitVec 48 := BitVec.ofNat 48 (hi * 2 ^ 32 + x / 8 * 2 ^ 13 + nb hsB * 2 ^ 12 + x / 2 % 4 * 2 ^ 10 + x % 2 * 64)
  setFld a 7 3 (BitVec.ofNat 3 sl ^^^ fld a 18 3)

/-! ## Entries (Table 6-2) -/

/-- Entry valid. -/
def enV (e : BitVec 128) : Bool := bit e 17
/-- Home stack B. -/
def enHs (e : BitVec 128) : Bool := bit e 18
/-- Line state: 0 UNK, 1 S, 2 A. -/
def enState (e : BitVec 128) : Nat := fnat e 19 2
/-- fmt VEC. -/
def enVec (e : BitVec 128) : Bool := bit e 21
/-- Pointers of a PTR entry. -/
def enPtrs (e : BitVec 128) : List Nat := (List.range (fnat e 22 4)).map fun j => fnat e (32 + 7 * j) 7
/-- Physical ports a VEC entry marks. -/
def enBits (e : BitVec 128) : List Nat := (List.range 48).filter fun g => bit e (32 + g)

/-- Logical port u exists (10 Table 10-1). -/
def portExists (s : State) (u : Nat) : Bool :=
  let r := portRec s (u / 2)
  decide (queueXp s (u / 2) = u / 2) && (if u % 2 = 0 then decide (prMode r ≠ 0) else decide (prMode r = 2))

/-- Logical port u has departed and its sweep has not completed (R154). -/
def isDeparted (s : State) (u : Nat) : Bool := bit s.proxy.departed u

/-- Holders an entry names: its pointers, or every existing logical port of each marked physical port (R145). -/
def enAll (s : State) (e : BitVec 128) : List Nat :=
  if enV e = false then []
  else if enVec e then ((enBits e).map fun g => [2 * g, 2 * g + 1].filter fun u => portExists s u).flatten
  else enPtrs e
/-- Holders an access sees: a departed port is treated as absent (R154). -/
def holders (s : State) (e : BitVec 128) : List Nat := (enAll s e).filter fun u => !isDeparted s u

/-- A PTR entry. -/
def ptrEntry (tag : Nat) (hsB : Bool) (st : Nat) (l : List Nat) : BitVec 128 :=
  BitVec.ofNat 128 (tag + 2 ^ 17 + nb hsB * 2 ^ 18 + st * 2 ^ 19 + l.length * 2 ^ 22
    + (l.zipIdx.map fun p => p.1 * 2 ^ (32 + 7 * p.2)).sum)
/-- A VEC entry in state S. -/
def vecEntry (tag : Nat) (hsB : Bool) (gs : List Nat) : BitVec 128 :=
  BitVec.ofNat 128 (tag + 2 ^ 17 + nb hsB * 2 ^ 18 + 2 ^ 19 + 2 ^ 21 + (gs.dedup.map fun g => 2 ^ (32 + g)).sum)
/-- The line's entry in a state with the given holders: VEC beyond 12. -/
def newEntry (s : State) (sa : BitVec 48) (st : Nat) (l : List Nat) : BitVec 128 :=
  if 12 < l.length then vecEntry (sfTag s sa) (homeB sa) (l.map (· / 2)) else ptrEntry (sfTag s sa) (homeB sa) st l
/-- An S entry with one more sharer (R145): VEC at the 13th, and VEC it stays. -/
def addSharer (s : State) (sa : BitVec 48) (e : BitVec 128) (u : Nat) : BitVec 128 :=
  if enVec e then vecEntry (sfTag s sa) (homeB sa) (u / 2 :: enBits e)
  else newEntry s sa 1 (if (enPtrs e).contains u then enPtrs e else enPtrs e ++ [u])
/-- An entry after Evict(u): a VEC bit stays, since the other half may still hold the line (R145). -/
def evictSharer (s : State) (sa : BitVec 48) (e : BitVec 128) (u : Nat) : BitVec 128 :=
  if enVec e then e
  else
    let l := (enPtrs e).filter (· ≠ u)
    if l = [] then 0 else ptrEntry (sfTag s sa) (homeB sa) (enState e) l
/-- An entry after the departure of u (R145, R154). -/
def dropHolder (s : State) (e : BitVec 128) (u : Nat) : BitVec 128 :=
  if enV e = false then e
  else if enVec e then
    let other := if u % 2 = 0 then u + 1 else u - 1
    let gs := if portExists s other && !isDeparted s other then enBits e else (enBits e).filter (· ≠ u / 2)
    if gs = [] then 0 else vecEntry (fnat e 0 17) (enHs e) gs
  else if (enPtrs e).contains u then
    let l := (enPtrs e).filter (· ≠ u)
    if l = [] then 0 else ptrEntry (fnat e 0 17) (enHs e) (enState e) l
  else e

/-! ## Slices and their parts -/

/-- Slice k. -/
def slice (s : State) (k : Nat) : Slice := tabGet Slice.init s.proxy.slices k
/-- The state with slice k replaced. -/
def setSlice (k : Nat) (v : Slice) (s : State) : State :=
  { s with proxy := { s.proxy with slices := tabSet Slice.init s.proxy.slices k v } }
/-- Slice counter i grows by n (Table 6-8). -/
def sliceCnt (k i n : Nat) (s : State) : State :=
  let v := slice s k
  setSlice k { v with cnt := tabSet 0 v.cnt i (tabGet 0 v.cnt i + BitVec.ofNat 64 n) } s
/-- Snoop-filter entry at an index. -/
def sfGet (s : State) (i : Nat) : BitVec 128 := tabGet 0 s.proxy.sf i
/-- The state with a snoop-filter entry written; a set's victim pointer in way 0 stays. -/
def sfPut (i : Nat) (e : BitVec 128) (s : State) : State :=
  let e1 := if i % 16 = 0 then setFld e 116 4 (fld (sfGet s i) 116 4) else e
  { s with proxy := { s.proxy with sf := tabSet 0 s.proxy.sf i e1 } }
/-- The victim pointer of a set moves. -/
def sfPtr (base p : Nat) (s : State) : State :=
  { s with proxy := { s.proxy with sf := tabSet 0 s.proxy.sf base (setFld (sfGet s base) 116 4 (BitVec.ofNat 4 p)) } }

/-- Way of a line in its snoop-filter set: valid, of the line's tag and home stack, and no UNK marker. -/
def sfWay (s : State) (sa : BitVec 48) : Option Nat :=
  let base := sfSetNo s sa * 16
  ((List.range 16).map (base + ·)).find? fun i =>
    let e := sfGet s i
    enV e && decide (enState e ≠ 0) && decide (fnat e 0 17 = sfTag s sa) && (enHs e == homeB sa)

/-- Directory way of a line. -/
def dirWay (s : State) (sa : BitVec 48) : Option Nat :=
  ((List.range 16).map (dirIx s sa + ·)).find? fun i =>
    match tabGet none (slice s (saSlice sa)).dir i with
    | some d => decide (d.line.toNat = lineNo sa)
    | none => false
/-- The line's directory entry. -/
def dirGet (s : State) (sa : BitVec 48) : Option DirWay :=
  (dirWay s sa).bind fun i => tabGet none (slice s (saSlice sa)).dir i
/-- The state with directory way i of slice k replaced. -/
def dirPut (k i : Nat) (d : Option DirWay) (s : State) : State :=
  let v := slice s k
  setSlice k { v with dir := tabSet none v.dir i d } s

/-- A line has an active request tracker. -/
def lineTracked (s : State) (sa : BitVec 48) : Bool :=
  (slice s (saSlice sa)).trackers.any fun t => decide (lineNo t.req.sa = lineNo sa)
/-- A line is being recalled. -/
def lineEvicting (s : State) (sa : BitVec 48) : Bool :=
  (slice s (saSlice sa)).evicts.any fun t => decide (lineNo t.sa = lineNo sa)
/-- A line has an active request or eviction tracker: requests for it wait (R148). -/
def lineBusy (s : State) (sa : BitVec 48) : Bool := lineTracked s sa || lineEvicting s sa
/-- A writeback slot forwards a write to the line. -/
def lineForwarding (s : State) (sa : BitVec 48) : Bool :=
  (slice s (saSlice sa)).wbs.any fun m => decide (lineNo m.sa = lineNo sa)
/-- A line is pinned: a tracker works on it, or it is being written (R146, R153). -/
def linePinned (s : State) (sa : BitVec 48) : Bool := lineBusy s sa || lineForwarding s sa

/-! ## Coarse tracker (R147) -/

/-- The coarse tracker's copy in stack A (false) or B is lost. -/
def coarseLost (s : State) (b : Bool) : Bool := s.proxy.degraded && decide (s.proxy.lostStack = b)

/-- Coarse entry of a region, from a copy that is not lost. -/
def coarse (s : State) (r : Nat) : BitVec 128 :=
  if s.proxy.degraded ∧ s.proxy.lostStack = false then tabGet 0 s.proxy.coarseB r else tabGet 0 s.proxy.coarseA r
/-- The coarse entry of a region written to both copies. -/
def setCoarse (r : Nat) (e : BitVec 128) (s : State) : State :=
  let a := if s.proxy.degraded ∧ s.proxy.lostStack = false then s.proxy.coarseA else tabSet 0 s.proxy.coarseA r e
  let b := if s.proxy.degraded ∧ s.proxy.lostStack = true then s.proxy.coarseB else tabSet 0 s.proxy.coarseB r e
  { s with proxy := { s.proxy with coarseA := a, coarseB := b } }
/-- Ports a region's coarse entry names. -/
def coarseHosts (s : State) (sa : BitVec 48) : List Nat :=
  (List.range 96).filter fun u => bit (coarse s (regionOf sa)) u
/-- Word of a region's coarse entry within its stack (15 Table 15-4). -/
def coarseWord (s : State) (r : Nat) : BitVec 64 :=
  Config.hbmWord ((if s.boot.hb then 0x2C0000000 else 0x580000000) + r / 4 * 64)

/-- The copy of a region's coarse entry in a stack is uncorrectable. -/
def coarseUe (s : State) (r : Nat) (b : Bool) : Bool := (memType s (8 + nb b)).bad.contains (coarseWord s r)

/-- One read of a copy of a region's coarse entry: an uncorrectable one is reported and rewritten from the other (R157). -/
def coarseMend (r : Nat) (b : Bool) (s : State) : State :=
  if coarseUe s r b then
    let s1 := memUe (8 + nb b) (coarseWord s r) s
    let m := memType s1 (8 + nb b)
    setMemType (8 + nb b) { m with bad := gone (coarseWord s r) m.bad } s1
  else s

/-- The coarse entry of a line's region is read: from the copy that bit 12 of its offset names, and from the other one where
that is uncorrectable or lost (15 R367, R157). With no good copy its content is a free value (log entry 134). -/
def coarseRead (sa : BitVec 48) (s : State) : State :=
  let r := regionOf sa
  let b := decide (r / 256 % 2 = 1)
  let good := fun c => !coarseLost s c && !coarseUe s r c
  if good b then s
  else
    let s1 := if coarseLost s b then s else coarseMend r b s
    if good (!b) then s1
    else
      let s2 := if coarseLost s (!b) then s1 else coarseMend r (!b) s1
      setCoarse r (freeVal 128 s2) (tookFree s2)

/-- An entry of the line's region is created. -/
def coarseUp (sa : BitVec 48) (s : State) : State :=
  let s := coarseRead sa s
  let e := coarse s (regionOf sa)
  setCoarse (regionOf sa) (setFld e 96 21 (fld e 96 21 + 1)) s
/-- An entry of the line's region is freed: at 0 with sticky = 0 the hosts are cleared; sticky counts as 1 in degraded
mode. -/
def coarseDown (sa : BitVec 48) (s : State) : State :=
  let s := coarseRead sa s
  let e := coarse s (regionOf sa)
  let n : BitVec 21 := fld e 96 21 - 1
  let e1 := setFld e 96 21 n
  setCoarse (regionOf sa) (if n = 0 ∧ bit e 117 = false ∧ s.proxy.degraded = false then setFld e1 0 96 0 else e1) s
/-- A line of the region is granted to host u. -/
def coarseGrant (sa : BitVec 48) (u : Nat) (s : State) : State :=
  let s := coarseRead sa s
  let e := coarse s (regionOf sa)
  if bit e u then s else setCoarse (regionOf sa) (e ||| (1#128 <<< u)) s

/-! ## Snoop-filter and directory entries -/

/-- Lowest invalid way of a line's snoop-filter set; way 0 of a set that holds an UNK marker is not one (R145, R157). -/
def sfFree (s : State) (sa : BitVec 48) : Option Nat :=
  let base := sfSetNo s sa * 16
  let unk := s.proxy.unkSets.contains (sfSetNo s sa)
  ((List.range 16).map (base + ·)).find? fun i => !enV (sfGet s i) && !(unk && i == base)

/-- A directory way leaves the cache: a changed entry reaches HBM (R146). One whose set holds no way for it any more takes
an invalid one; with none, the line is unknown at its next access (R157, R159). -/
def dirWriteBack (sa : BitVec 48) (d : DirWay) (s : State) : State :=
  if d.dirty = false then s
  else
    match sfWay s sa with
    | some i => sfPut i d.entry s
    | none =>
      match sfFree s sa with
      | some i => if enV d.entry then sfPut i d.entry s else s
      | none => s

/-- Shared address of a directory way. -/
def dirSa (d : DirWay) : BitVec 48 := BitVec.ofNat 48 (d.line.toNat * 64)

/-- A way of the line's directory set for it: an empty one, else the first unpinned one from the victim pointer on. -/
def dirRoom (s : State) (sa : BitVec 48) : Option Nat :=
  let base := dirIx s sa
  let v := slice s (saSlice sa)
  match ((List.range 16).map (base + ·)).find? fun i => decide (tabGet none v.dir i = none) with
  | some i => some i
  | none =>
    let p := (tabGet 0 v.dirPtr (base / 16)).toNat
    ((List.range 16).map fun j => base + (p + j) % 16).find? fun i =>
      match tabGet none v.dir i with
      | some d => !linePinned s (dirSa d)
      | none => true

/-- The line's entry in the directory, pinned while a tracker works on the line: `e`, where it held none; none where every
way is pinned. -/
def dirInstall (sa : BitVec 48) (e : BitVec 128) (s : State) : Option State :=
  let k := saSlice sa
  let d : DirWay := { line := BitVec.ofNat 42 (lineNo sa), entry := e, dirty := false, pinned := true }
  match dirWay s sa with
  | some i => some (match tabGet none (slice s k).dir i with
    | some old => dirPut k i (some { old with pinned := true }) s
    | none => s)
  | none =>
    match dirRoom s sa with
    | none => none
    | some i =>
      let s1 := match tabGet none (slice s k).dir i with
        | some old => dirWriteBack (dirSa old) old s
        | none => s
      let v := slice s1 k
      some (dirPut k i (some d)
        (setSlice k { v with dirPtr := tabSet 0 v.dirPtr (i / 16) (BitVec.ofNat 4 (i % 16 + 1)) } s1))

/-- The line's entry changes; an entry without a holder is freed (R144, R145). -/
def setEntry (sa : BitVec 48) (e : BitVec 128) (s : State) : State :=
  let s1 := match dirWay s sa with
    | some i => dirPut (saSlice sa) i
        (some { line := BitVec.ofNat 42 (lineNo sa), entry := e, dirty := enV e, pinned := linePinned s sa }) s
    | none => s
  if enV e then s1
  else
    match sfWay s1 sa with
    | some i => coarseDown sa (sfPut i 0 s1)
    | none => s1

/-- The newest entry of a line: the directory's, else the snoop filter's; 0 where it has none. -/
def lineEntry (s : State) (sa : BitVec 48) : BitVec 128 :=
  match dirGet s sa with
  | some d => d.entry
  | none => match sfWay s sa with | some i => sfGet s i | none => 0

/-- The line's directory entry once nothing may pin it any more: unpinned, or dropped where the line is in state I
(R146). -/
def dirSettle (sa : BitVec 48) (s : State) : State :=
  let k := saSlice sa
  if linePinned s sa then s
  else
    match dirWay s sa with
    | none => s
    | some i =>
      match tabGet none (slice s k).dir i with
      | none => s
      | some d => dirPut k i (if enV d.entry then some { d with pinned := false } else none) s

/-! ## Errors in the directory (R157) -/

/-- A snoop-filter set is uncorrectable: way 0 holds an UNK marker and the other ways are invalid (R157). -/
def setUe (sa : BitVec 48) (s : State) : State :=
  let n := sfSetNo s sa
  let s1 := (List.range 15).foldl (fun s i => sfPut (n * 16 + 1 + i) 0 s) (sfPut (n * 16) (BitVec.ofNat 128 (2 ^ 17)) s)
  let s2 := { s1 with proxy := { s1.proxy with
      unkSets := if s1.proxy.unkSets.contains n then s1.proxy.unkSets else s1.proxy.unkSets ++ [n] } }
  raiseFree 7 0x41 (source 7 (saSlice sa)) s2

/-- A word of directory way i of slice k that the scrubber has found uncorrectable (15 R366). -/
def dirBad (s : State) (k i : Nat) : Option (BitVec 64) :=
  (memType s 2).bad.find? fun w => decide (Config.dirEntry w = some (k, i))

/-- The directory is looked up for a line that no tracker works on: whether it hits. An uncorrectable entry is lost with
its snoop-filter set (R146, R157). -/
def dirLook (sa : BitVec 48) (s : State) : Bool × State :=
  let k := saSlice sa
  match dirWay s sa with
  | none => (false, s)
  | some i =>
    match dirBad s k i with
    | none => (true, s)
    | some w =>
      let s1 := memUe 2 w s
      let m := memType s1 2
      (false, setUe sa (dirPut k i none (setMemType 2 { m with bad := gone w m.bad } s1)))

/-- A miss of the line means that its holders are unknown (R157, R159). -/
def unknownMiss (s : State) (sa : BitVec 48) : Bool :=
  homeLost s (homeB sa) || s.proxy.unkSets.contains (sfSetNo s sa)

/-! ## Messages of a slice -/

/-- Backing location of a line: FEID and device address, from the extent or page entry in force (R141). -/
def backingOf (s : State) (sa : BitVec 48) : Option (Nat × Nat) :=
  let e := tabGet 0 s.plan.active.extent (sa.toNat / 2 ^ 30)
  if extValid e = false then none
  else if extSplit e = false then some (extFeid e, extBase e * 2 ^ 30 + sa.toNat % 2 ^ 30)
  else
    let p := pageEntry s (extBlock e * 512 + sa.toNat / 2 ^ 21 % 512)
    if pgValid p then some (pgFeid p, pgBase p + sa.toNat % 2 ^ 21) else none

/-- A request of slice k's own toward a backing device; `tag` 0 serves a tracker, 1 a writeback slot, 2 a poisoned
line. None where the FEID has no route. -/
def sendBacking (m : Msg) (tag : Nat) (s : State) : Option State :=
  let k := saSlice m.sa
  match exitXp s m.feid.toNat m.dev.toNat false with
  | none => none
  | some x =>
    some (enqueue x { m with req := .slice (BitVec.ofNat 3 k) m.sa, inXp := BitVec.ofNat 6 (56 + k / 2),
                             tag := BitVec.ofNat 16 tag, counted := false, phase := none, mclass := 1,
                             proxy := false } s)

/-- A line that a departed port may have modified is written to its backing device with poison, where loss_poison says
so (R154); its data is a free value. -/
def poisonLine (sa : BitVec 48) (s : State) : State :=
  if s.proxy.lossPoison = false then s
  else
    match backingOf s sa with
    | none => s
    | some (f, d) =>
      let m : Msg := { vc0Msg .memWr 2 64 (freeVal 512 s) with
        mclass := 1, feid := BitVec.ofNat 16 f, dev := BitVec.ofNat 64 d, sa := sa, poison := true }
      match sendBacking m 2 (tookFree s) with
      | none => s
      | some s1 => sliceCnt (saSlice sa) 7 1 s1

/-- Time kept for a BISnp: its send while the port is UP, the part of bi_timeout already counted while it is not. -/
def waitStart (s : State) (u : Nat) : BitVec 64 := if (port s u).st = .up then s.tele.time else 0

/-- A BISnp to host u (R143, R152): at sa + prxy.hpa_offset[u], in the service class of the request it serves. -/
def sendSnoop (o : Op) (sa : BitVec 48) (sc : BitVec 3) (u : Nat) (s : State) : State :=
  let k := saSlice sa
  let m : Msg := { vc0Msg o u 0 0 with
    mclass := 3, sclass := sc, feid := BitVec.ofNat 16 u, req := .slice (BitVec.ofNat 3 k) sa,
    inXp := BitVec.ofNat 6 (56 + k / 2), dev := sa.setWidth 64 + tabGet 0 s.proxy.hpaOffset u, sa := sa, proxy := true }
  enqueue (queueXp s (u / 2)) m (sliceCnt k 3 1 s)

/-- BISnp of a round's kind. -/
def roundOp (r : RoundKind) : Op :=
  match r with
  | .data => .bisnpData | .cur => .bisnpCur | _ => .bisnpInv

/-! ## The line state table (R152, Table 6-4) -/

/-- Kind of a message at a proxied line (Table 6-1). -/
inductive PxEvent where
  | rdA | rdS | rdI | wrA | wrS | wrI | evict
  deriving DecidableEq, Repr

/-- Event of a message; a scribe line, and a departed host, reads and writes as RdI and WrI (R139, R154). -/
def pxEvent (s : State) (m : Msg) : Option PxEvent :=
  let cached : Bool := match m.req with | .host u => !isDeparted s u.toNat | _ => false
  match m.op with
  | .memRd => some (if m.mv = .a ∧ cached then .rdA else if m.mv = .s ∧ cached then .rdS else .rdI)
  | .memWr => some (if m.mv = .a ∧ cached then .wrA else if m.mv = .s ∧ cached then .wrS else .wrI)
  | .memWrPtl => some .wrI
  | .memClnEvct => some .evict
  | _ => none

/-- Host that a request came from, if it may hold lines. -/
def hostOf (s : State) (m : Msg) : Option Nat :=
  match m.req with
  | .host u => if isDeparted s u.toNat then none else some u.toNat
  | _ => none

/-- An event that grants a copy. -/
def grants (e : PxEvent) : Bool :=
  match e with
  | .rdA | .rdS | .wrA | .wrS => true
  | _ => false
/-- An event that writes. -/
def writes (e : PxEvent) : Bool :=
  match e with
  | .wrA | .wrS | .wrI => true
  | _ => false

/-- The round an event needs before its read or forward: kind and targets (Table 6-4). -/
def roundOf (st : Nat) (hs : List Nat) (e : PxEvent) (h : Option Nat) : RoundKind × List Nat :=
  let others := hs.filter fun u => some u ≠ h
  if others = [] then (.none, [])
  else if st = 2 then
    match e with
    | .rdS => (.data, others)
    | .rdI => (.cur, others)
    | .evict => (.none, [])
    | _ => (.inv, others)
  else
    match e with
    | .rdS | .rdI | .evict => (.none, [])
    | _ => (.inv, others)

/-- The entry after an event's completion: `e` is the entry it finds then, `ans` the A holder's answer in its round (0
none, 1 BIRspI, 2 BIRspS, 3 BIRspE; Table 6-4). A read whose host has departed since ends as RdI, whatever round it has
had. -/
def nextEntry (s : State) (sa : BitVec 48) (e : BitVec 128) (ev : PxEvent) (h : Option Nat) (snooped : List Nat)
    (round : RoundKind) (ans : Nat) : BitVec 128 :=
  let hs := holders s e
  let one := fun (st : Nat) => match h with | some u => newEntry s sa st [u] | none => 0
  match ev with
  | .rdA | .wrA => one 2
  | .wrS => one 1
  | .wrI => 0
  | .evict => match h with | some u => evictSharer s sa e u | none => e
  | .rdS =>
    match h with
    | none => e
    | some u =>
      if round = .data then (if ans = 1 then newEntry s sa 1 [u] else newEntry s sa 1 (snooped ++ [u]))
      else if enState e = 1 ∧ enV e ∧ hs ≠ [] then addSharer s sa e u
      else newEntry s sa 1 [u]
  | .rdI =>
    if round = .cur ∨ round = .data then
      (if ans = 1 then 0 else if ans = 2 then newEntry s sa 1 snooped else newEntry s sa 2 snooped)
    else if round = .inv ∨ enState e = 2 then 0
    else e

/-- The completion an event ends with (Tables 6-1, 6-4). -/
def pxReplyOf (m : Msg) (ev : PxEvent) (data : BitVec 512) (poison : Bool) : Msg :=
  match ev with
  | .rdA => completionMsg m .memData .a data poison
  | .rdS => completionMsg m .memData .s data poison
  | .rdI => completionMsg m .memData .i data poison
  | .wrA => completionMsg m .cmpE .noOp 0 false
  | .wrS => completionMsg m .cmpS .noOp 0 false
  | _ => completionMsg m .cmp .noOp 0 false

/-- That completion with the DevLoad of the backing response it follows (08 R206). -/
def pxReply (m : Msg) (ev : PxEvent) (c : Msg) : Msg :=
  { pxReplyOf m ev c.data c.poison with devLoad := c.devLoad }

/-! ## Victims (R145, R153) -/

/-- Way of the line's set for a new entry: the lowest invalid one, else the victim (R145). A victim's line needs a place in
the directory, where it stays pinned (R146, R153). -/
def sfRoom (s : State) (sa : BitVec 48) : Option (Nat × Bool) :=
  let base := sfSetNo s sa * 16
  match sfFree s sa with
  | some i => some (i, false)
  | none =>
    let p := fnat (sfGet s base) 116 4
    let ways := (List.range 16).map fun j => base + (p + j) % 16
    (ways.find? fun i =>
      let e := sfGet s i
      let v := saOf s (saSlice sa) (sfSet s sa) (fnat e 0 17) (enHs e)
      decide (enState e ≠ 0) && !linePinned s v && ((dirWay s v).isSome || (dirRoom s v).isSome)).map (·, true)

/-- The victim at index i moves into an eviction tracker, its line pinned in the directory, and its holders are sent
BISnpInv; an A holder that has departed leaves a poisoned line (R153, R154). -/
def recallWay (k i set : Nat) (sc : BitVec 3) (s : State) : State :=
  let e0 := sfGet s i
  let sa := saOf s k set (fnat e0 0 17) (enHs e0)
  let e := lineEntry s sa
  let s0 := coarseDown sa (sfPtr (i / 16 * 16) (i % 16 + 1) (sfPut i 0 s))
  let s1 := if enState e = 2 ∧ enAll s0 e ≠ [] ∧ holders s0 e = [] then poisonLine sa s0 else s0
  let s2 := (dirInstall sa e s1).getD s1
  let hs := holders s2 e
  let s3 := sliceCnt k 4 1 s2
  if hs = [] then (match dirWay s3 sa with | some j => dirPut k j none s3 | none => s3)
  else
    let v := slice s3 k
    let t : Evict := { sa := sa, hs := enHs e, entry := e, waiting := hs.map fun u => (u, waitStart s3 u) }
    hs.foldl (fun s u => sendSnoop .bisnpInv sa sc u s) (setSlice k { v with evicts := v.evicts ++ [t] } s3)

/-- Room for a new entry of the line, reserved with no holder yet: none where every way is pinned or no eviction tracker is
free (R145, R148). -/
def reserve (sa : BitVec 48) (sc : BitVec 3) (s : State) : Option State :=
  let e := newEntry s sa 1 []
  match sfRoom s sa with
  | none => none
  | some (i, victim) =>
    if victim ∧ 512 ≤ (slice s (saSlice sa)).evicts.length then none
    else
      let s1 := if victim then recallWay (saSlice sa) i (sfSet s sa) sc s else s
      some (coarseUp sa (sfPut i e s1))

/-! ## Trackers (R148 to R152) -/

/-- The tracker of a line, changed by `f`. -/
def mapTracker (sa : BitVec 48) (f : Tracker → Tracker) (s : State) : State :=
  let k := saSlice sa
  let v := slice s k
  setSlice k { v with trackers := v.trackers.map fun t => if lineNo t.req.sa = lineNo sa then f t else t } s

/-- The tracker of a line. -/
def trackerOf (s : State) (sa : BitVec 48) : Option Tracker :=
  (slice s (saSlice sa)).trackers.find? fun t => decide (lineNo t.req.sa = lineNo sa)

/-- A tracker ends: its line is unpinned; an entry without a holder, the one reserved for it among them, is freed, and an I
line leaves the directory (R146). -/
def endTracker (sa : BitVec 48) (s : State) : State :=
  let k := saSlice sa
  let v := slice s k
  let s1 := setSlice k { v with trackers := v.trackers.filter fun t => !decide (lineNo t.req.sa = lineNo sa) } s
  let e := lineEntry s1 sa
  dirSettle sa (if enAll s1 e = [] then setEntry sa 0 s1 else s1)

/-- The completion of a tracker's or a slot's request leaves toward its requester. -/
def pxComplete (m c : Msg) (err : Bool) (s : State) : State := completeWith (56 + saSlice m.sa / 2) m c err s

/-- A tracker's request completes in error, and the tracker ends. -/
def pxFail (m : Msg) (s : State) : State := endTracker m.sa (failRequest m s)

/-- Every BIRsp of the round is in: the read or the forward goes to the backing device (R152). -/
def goBacking (t : Tracker) (s : State) : State :=
  let s1 := mapTracker t.req.sa (fun t => { t with stage := .backing }) s
  match sendBacking t.req 0 s1 with
  | none => pxFail t.req s1
  | some s2 => s2

/-- The round of a tracker is complete: an Evict, which has no backing access, ends; any other event goes on. -/
def roundDone (t : Tracker) (s : State) : State :=
  if pxEvent s t.req = some .evict then
    endTracker t.req.sa (pxComplete t.req (pxReplyOf t.req .evict 0 false) false s)
  else goBacking t s

/-- A round starts: its BISnps go out, and the tracker waits for the answers. -/
def startRound (t : Tracker) (r : RoundKind) (l : List Nat) (broadcast : Bool) (s : State) : State :=
  let sa := t.req.sa
  let s1 := mapTracker sa (fun t => { t with
      stage := .snoop, round := r, snooped := l, answer := 0, broadcast := broadcast,
      waiting := l.map fun u => (u, waitStart s u) }) s
  let s2 := if broadcast then sliceCnt (saSlice sa) 5 1 s1 else s1
  l.foldl (fun s u => sendSnoop (roundOp r) sa t.req.sclass u s) s2

/-- A departed A holder found by an access: its line is poisoned and its entry freed (R154). -/
def clearDeparted (sa : BitVec 48) (s : State) : State :=
  let e := lineEntry s sa
  if enV e ∧ enAll s e ≠ [] ∧ holders s e = [] then
    setEntry sa 0 (if enState e = 2 then poisonLine sa s else s)
  else s

/-- A request whose line's entry is known acts by Table 6-4, from its tracker: Evict completes at once, any other event
snoops first and then goes to the backing device. It waits where its new entry finds no room (R145). -/
def act (t : Tracker) (s : State) : State :=
  let m := t.req
  let sa := m.sa
  match pxEvent s m with
  | none => pxFail m s
  | some ev =>
    let h := hostOf s m
    let unknown := unknownMiss s sa && !enV (lineEntry s sa) && t.round == .none
    match dirInstall sa (lineEntry s sa) s with
    | none => mapTracker sa (fun t => { t with stage := .allPinned }) s
    | some s1 =>
      let s2 := clearDeparted sa s1
      let e := lineEntry s2 sa
      let s2 := if unknown then coarseRead sa s2 else s2
      let l := (coarseHosts s2 sa).filter fun u => some u ≠ h ∧ !isDeparted s2 u
      if unknown ∧ l ≠ [] ∧ ev = .evict then startRound t .inv l true s2
      else if ev = .evict then
        let isHolder := match h with | some u => (holders s2 e).contains u | none => false
        let s3 := if isHolder then setEntry sa (nextEntry s2 sa e .evict h [] .none 0) s2 else s2
        endTracker sa (pxComplete m (pxReplyOf m .evict 0 false) false s3)
      else
        let need := grants ev && !enV e
        match (if need then reserve sa m.sclass s2 else some s2) with
        | none => mapTracker sa (fun t => { t with stage := .allPinned }) s2
        | some s3 =>
          if unknown ∧ l ≠ [] then startRound t .inv l true s3
          else
            let r := roundOf (enState e) (holders s3 e) ev h
            if r.2 = [] then goBacking t s3 else startRound t r.1 r.2 false s3

/-- A tracker whose line's entry is not in the directory: the entry gets a pinned place there and its snoop-filter set is
read (R146); it waits where every way of its directory set is pinned. -/
def startFill (t : Tracker) (s : State) : State :=
  let sa := t.req.sa
  match dirInstall sa (lineEntry s sa) s with
  | some s1 => mapTracker sa (fun t => { t with stage := .fill }) s1
  | none => mapTracker sa (fun t => { t with stage := .allPinned }) s

/-- A message takes a request tracker (R148); its line's entry is looked up in the directory (R146). -/
def takeTracker (m : Msg) (s : State) : State :=
  let k := saSlice m.sa
  let look := dirLook m.sa s
  let t : Tracker := { req := m, stage := if look.1 then .backing else .fill, round := .none, waiting := [], snooped := [],
                       answer := 0, broadcast := false, known := look.1 }
  let v := slice look.2 k
  let s1 := sliceCnt k (if look.1 then 1 else 2) 1 (setSlice k { v with trackers := v.trackers ++ [t] } look.2)
  if look.1 then act t s1 else startFill t s1

/-- A request tracker is free: a message on a wait list holds one too (01 R23; log entry 132). -/
def trackerFree (s : State) (k : Nat) : Bool :=
  decide ((slice s k).trackers.length + (slice s k).waits.length < 16384)

/-- A message that finds no free tracker is parked: its cells stay in the shared buffer, charged to its key (R149). -/
def parkMsg (m : Msg) (s : State) : State :=
  let k := saSlice m.sa
  let a := (allocCells (cellsOf m) s).getD ([], s)
  let v := slice a.2 k
  charge (keyIx (56 + k / 2) 1) (cellsOf m) (setSlice k { v with park := v.park ++ [{ msg := m, cells := a.1 }] } a.2)

/-- A parked message leaves the park list, its cells and their charge freed. -/
def unpark (k : Nat) (p : Parked) (s : State) : State :=
  let v := slice s k
  uncharge (keyIx (56 + k / 2) 1) (cellsOf p.msg) (ownAll p.cells .free (setSlice k { v with park := v.park.erase p } s))

/-- Every copy of a line but host u's goes: none is held elsewhere, or the round of the line's tracker invalidates the
rest (log entry 32). -/
def aloneOr (s : State) (sa : BitVec 48) (u : Nat) : Bool :=
  decide (holders s (lineEntry s sa) = [u])
  || (slice s (saSlice sa)).trackers.any fun t => decide (lineNo t.req.sa = lineNo sa) && decide (t.stage = .snoop)
      && decide (t.round = .inv)

/-- A write from a host that its line's entry, or the victim's, records as a holder is applied on arrival (R150, R153); on
a line with other holders it is while they are being invalidated (log entry 32). -/
def holderWrites (s : State) (m : Msg) : Bool :=
  isWrite m.op &&
  match hostOf s m with
  | none => false
  | some u =>
    match (slice s (saSlice m.sa)).evicts.find? fun t => decide (lineNo t.sa = lineNo m.sa) with
    | some t => (holders s t.entry).contains u
    | none => (holders s (lineEntry s m.sa)).contains u && aloneOr s m.sa u

/-- A holder's write takes a free writeback slot, updates the entry as Table 6-4 gives for that host, and is forwarded
(R150). -/
def writeback (m : Msg) (s : State) : State :=
  let k := saSlice m.sa
  let look := if linePinned s m.sa then (true, s) else dirLook m.sa s
  let s := sliceCnt k (if look.1 then 1 else 2) 1 look.2
  let ev := (pxEvent s m).getD .wrI
  let e := nextEntry s m.sa 0 ev (hostOf s m) [] .none 0
  let s1 := if lineEvicting s m.sa then
      let v := slice s k
      setSlice k { v with evicts := v.evicts.map fun t => if lineNo t.sa = lineNo m.sa then { t with entry := e } else t } s
    else
      let s0 := (dirInstall m.sa (lineEntry s m.sa) s).getD s
      if enV e = false ∧ lineTracked s m.sa then setEntry m.sa (newEntry s m.sa 1 []) s0
      else match dirWay s0 m.sa, sfWay s0 m.sa with
        | none, some i => if enV e then sfPut i e s0 else setEntry m.sa e s0
        | _, _ => setEntry m.sa e s0
  match sendBacking m 1 s1 with
  | none => dirSettle m.sa (failRequest m s1)
  | some s2 =>
    let v2 := slice s2 k
    setSlice k { v2 with wbs := v2.wbs ++ [m] } s2

/-- The tracker a message needs is free: a writeback slot for a holder's write, a request tracker for any other (R148). -/
def kindFree (s : State) (k : Nat) (wr : Bool) : Bool :=
  if wr then decide ((slice s k).wbs.length < 1024) else trackerFree s k

/-- A message with the tracker it needs: a holder's write is applied, a request whose line has an active tracker waits on
the line, any other becomes its line's active tracker (R148). -/
def admitMsg (m : Msg) (s : State) : State :=
  let k := saSlice m.sa
  if holderWrites s m then writeback m s
  else if lineBusy s m.sa ∨ (slice s k).waits.any (fun w => decide (lineNo w.sa = lineNo m.sa)) then
    let v := slice s k
    setSlice k { v with waits := v.waits ++ [m] } s
  else takeTracker m s

/-- A message that is no answer enters its slice: outside Table 6-1 it completes in error (R139); with no free tracker of
its kind, or behind a parked message of that kind, it is parked (R149, R156). -/
def takeIn (m : Msg) (s : State) : State :=
  let k := saSlice m.sa
  let wr := holderWrites s m
  if (pxEvent s m).isNone then raiseFree 7 0x20 (source 7 k) (failRequest m s)
  else if kindFree s k wr = false ∨ (slice s k).park.any (fun p => holderWrites s p.msg == wr) then parkMsg m s
  else admitMsg m s

/-- The next piece of work that a slice can do: a tracker whose new entry finds room, or a waiting message whose line
has no tracker. -/
def pumpOne (k : Nat) (s : State) : Option State :=
  let v := slice s k
  match v.trackers.find? fun t => decide (t.stage = .allPinned)
      && ((dirWay s t.req.sa).isSome || (dirRoom s t.req.sa).isSome) && (!t.known || (sfRoom s t.req.sa).isSome) with
  | some t => some (if t.known then act t (mapTracker t.req.sa (fun t => { t with stage := .fill }) s) else startFill t s)
  | none =>
    match v.waits.find? fun w => !lineBusy s w.sa with
    | none => none
    | some w => some (admitMsg w (setSlice k { v with waits := v.waits.erase w } s))

/-- A slice works its waiting messages off, `n` steps at most. -/
def pump (k : Nat) : Nat → State → State
  | 0, s => s
  | n + 1, s =>
    match pumpOne k s with
    | none => s
    | some s1 => pump k n s1

/-- A slice after a tracker of it has ended. -/
def pumpSlice (k : Nat) (s : State) : State :=
  pump k ((slice s k).waits.length + ((slice s k).trackers.filter fun t => decide (t.stage = .allPinned)).length) s

/-! ## Answers (R152 to R154) -/

/-- Number of an answer. -/
def answerNo (o : Op) : BitVec 2 :=
  match o with
  | .birspI => 1 | .birspS => 2 | .birspE => 3 | _ => 0

/-- Host u's answer counts in the round or recall of a line: the last one lets the tracker proceed. None where no round
waits for it. -/
def countAnswer (sa : BitVec 48) (u : Nat) (a : BitVec 2) (s : State) : Option State :=
  let k := saSlice sa
  match trackerOf s sa with
  | some t =>
    if t.waiting.any (·.1 == u) then
      let t1 := { t with waiting := t.waiting.filter (·.1 ≠ u), answer := a }
      let s1 := mapTracker sa (fun _ => t1) s
      some (if t1.waiting = [] then
          (if t1.broadcast then roundDone { t1 with round := .inv } s1 else roundDone t1 s1)
        else s1)
    else none
  | none =>
    let v := slice s k
    match v.evicts.find? fun t => decide (lineNo t.sa = lineNo sa) && t.waiting.any (·.1 == u) with
    | none => none
    | some t =>
      let t1 := { t with waiting := t.waiting.filter (·.1 ≠ u) }
      if t1.waiting = [] then
        let s1 := setSlice k { v with evicts := v.evicts.erase t } s
        some (pumpSlice k (match dirWay s1 sa with | some i => dirPut k i none s1 | none => s1))
      else some (setSlice k { v with evicts := v.evicts.map fun x => if x = t then t1 else x } s)

/-- Lines whose rounds or recalls wait for host u's answer. -/
def waitingOn (s : State) (u : Nat) : List (BitVec 48) :=
  (s.proxy.slices.map fun p =>
    (p.2.trackers.filter fun t => t.waiting.any (·.1 == u)).map (fun t => t.req.sa)
    ++ (p.2.evicts.filter fun t => t.waiting.any (·.1 == u)).map (fun t => t.sa)).flatten

/-- Host u's answer counts as BIRspI in a round that waits on it; a line it held in A is poisoned first (R154). -/
def answerFor (u : Nat) (sa : BitVec 48) (s : State) : State :=
  let e := match (slice s (saSlice sa)).evicts.find? fun t => decide (lineNo t.sa = lineNo sa) with
    | some t => t.entry
    | none => lineEntry s sa
  let s1 := if enState e = 2 ∧ (enAll s e).contains u then poisonLine sa s else s
  (countAnswer sa u 1 s1).getD s1

/-- Poisoned lines written so far, over all slices. -/
def poisoned (s : State) : Nat := (s.proxy.slices.map fun p => (tabGet 0 p.2.cnt 7).toNat).sum

/-- Logical port u departs (R154): its answers count, its departed bit is set, PRXY-0x0011 raised with the lines
poisoned, and its sweep is due. -/
def depart (u : Nat) (s : State) : State :=
  if isDeparted s u then s
  else
    let n := poisoned s
    let l := waitingOn s u
    let s0 := { s with proxy := { s.proxy with departed := s.proxy.departed ||| (1#96 <<< u) } }
    let s1 := l.foldl (fun s sa => answerFor u sa s) s0
    raise 7 0x11 (source 1 u) (BitVec.ofNat 64 (u + (poisoned s1 - n) * 256))
      { s1 with proxy := { s1.proxy with sweeps := s1.proxy.sweeps ++ [u] } }

/-- The sweep of u visits one snoop-filter entry, or the directory's newer copy of it. -/
def sweepOne (u i : Nat) (s : State) : State :=
  let e0 := sfGet s i
  if enV e0 = false ∨ enState e0 = 0 then s
  else
    let k := i / 16 / 2 ^ 22 / 2
    let sa := saOf s k (i / 16 % 2 ^ 22) (fnat e0 0 17) (enHs e0)
    let e := lineEntry s sa
    let s1 := if enState e = 2 ∧ (enAll s e).contains u then poisonLine sa s else s
    let e1 := dropHolder s1 e u
    if e1 = e then s1
    else if enV e1 then (match dirWay s1 sa with | some _ => setEntry sa e1 s1 | none => sfPut i e1 s1)
    else setEntry sa 0 s1

/-- The sweep of u visits a directory entry, which may be newer than HBM or stand for a line whose set holds no way. -/
def sweepDir (u : Nat) (d : DirWay) (s : State) : State :=
  let sa := dirSa d
  let e := lineEntry s sa
  let s1 := if enState e = 2 ∧ (enAll s e).contains u then poisonLine sa s else s
  let e1 := dropHolder s1 e u
  if e1 = e then s1 else dirSettle sa (setEntry sa e1 s1)

/-- The sweep of u over every entry, those of a lost stack left out, and the coarse tracker (R154, R158). -/
def sweep (u : Nat) (s : State) : State :=
  let s0 := (tabKeys s.proxy.sf).foldl (fun s i =>
    if homeLost s (decide (i / 16 / 2 ^ 22 % 2 = 1)) then s else sweepOne u i s) s
  let ds := (s0.proxy.slices.map fun p => p.2.dir.filterMap (·.2)).flatten
  let s1 := ds.foldl (fun s d => sweepDir u d s) s0
  let clr := fun (e : BitVec 128) => e &&& ~~~ (1#128 <<< u)
  { s1 with proxy := { s1.proxy with
      coarseA := tabMap 0 (fun _ e => clr e) s1.proxy.coarseA
      coarseB := tabMap 0 (fun _ e => clr e) s1.proxy.coarseB
      departed := s1.proxy.departed &&& ~~~ (1#96 <<< u) } }

/-! ## Loss of a stack (R158) -/

/-- A directory entry of a line homed on the lost stack is kept and re-homed: it stands changed in the surviving stack's
directory set, and what finds no place there is unknown at its next access (R158, R159). -/
def rehomeOne (k i : Nat) (d : DirWay) (s : State) : State :=
  let sa := dirSa d
  let s1 := dirPut k i none s
  match dirInstall sa d.entry s1 with
  | none => s1
  | some s2 =>
    match dirWay s2 sa with
    | some j => dirPut k j (some { d with dirty := true, pinned := linePinned s2 sa }) s2
    | none => s2

/-- A tracker that waits on a read from the lost stack restarts as a degraded lookup (Table 6-7 step 4). -/
def refillLost (t : Tracker) (s : State) : State :=
  let sa := t.req.sa
  if homeLost s (homeB sa) ∧ (t.stage = .fill ∨ (dirWay s sa).isNone) then
    let e := match sfWay s sa with | some i => sfGet s i | none => 0
    let s1 := match dirWay s sa with
      | some i => dirPut (saSlice sa) i (some { line := BitVec.ofNat 42 (lineNo sa), entry := e, dirty := false, pinned := true }) s
      | none => s
    if (dirWay s sa).isNone then startFill t s1 else s1
  else s

/-- The slices enter degraded mode (R158, R159): lookups homed on the lost stack go to the surviving one, what the
directory holds of them is re-homed, PRXY-0x0040. -/
def directoryLost (k : Nat) (s : State) : State :=
  if s.proxy.degraded then s
  else
    let lost := decide (k = 1)
    let ds := (s.proxy.slices.map fun p => p.2.dir.filterMap fun e => e.2.bind fun d =>
      if homeB (dirSa d) = lost then some (p.1, e.1, d) else none).flatten
    let s1 := { s with proxy := { s.proxy with degraded := true, lostStack := lost, degradedSince := stamp s } }
    let s2 := ds.foldl (fun s e => rehomeOne e.1 e.2.1 e.2.2 s) s1
    let s3 := (s2.proxy.slices.map fun p => p.2.trackers).flatten.foldl (fun s t => refillLost t s) s2
    raiseFree 7 0x40 (source 6 k) s3

/-- bi_timeout in force, in ticks. -/
def biTicks (s : State) : Nat :=
  let v := s.proxy.biTimeout.toNat
  (if 10 ≤ v ∧ v ≤ 1000000 then v else 1000000) * usTicks

/-- The answer times of host u's rounds stop counting (its port leaves UP) or go on (it returns): the kept time turns
from a start into a part already counted, or back (R154). -/
def biClock (u : Nat) (s : State) : State :=
  let turn := fun (w : List (Nat × BitVec 64)) => w.map fun p => if p.1 = u then (u, s.tele.time - p.2) else p
  { s with proxy := { s.proxy with
      slices := tabMap Slice.init (fun _ v => { v with
        trackers := v.trackers.map fun t => { t with waiting := turn t.waiting }
        evicts := v.evicts.map fun t => { t with waiting := turn t.waiting } }) s.proxy.slices } }

end Sys2Proof.Machine
end

