-- ==== Sys2Proof/Machine/PortOps.lean ====
section
/-! DEFINITION. Shared operations of the CXL ports: records, registers, going down, reaching UP, disabling and enabling
(CXL Ports). -/

namespace Sys2Proof.Machine

open Sys2Proof

/-! ## Records (R228, R229) -/

/-- Role of logical port u by its PORT record. -/
def roleOf (s : State) (u : Nat) : Nat := prRole (portRec s (u / 2)) (u % 2)

/-- The PORT record that governs logical port u: a ganged pair's even one (R229). -/
def govRec (s : State) (u : Nat) : BitVec 256 := portRec s (queueXp s (u / 2))

/-- Whether PORT record p is valid among the records `g` (R229, Table 10-2): a record in mode DISABLED is checked for its
mode alone, and the odd record of a gang holds nothing but its mode. -/
def portRecOk (g : Nat → BitVec 256) (p : Nat) : Bool :=
  let r := g p
  let odd := p - p % 2
  let full := decide (prRole r 0 ≤ 3 ∧ prRole r 1 ≤ 3) && (decide (prMode r = 2) || decide (prRole r 1 = 0))
    && decide (prRate r ≤ 6) && decide (fnat r 37 11 = 0)
    && (decide (prRole r 0 = 0) || decide (prSlot r 0 < 24 ∨ prSlot r 0 = 255))
    && (decide (prRole r 1 = 0) || decide (prSlot r 1 < 24 ∨ prSlot r 1 = 255))
    && decide (8 ≤ prDetect r ∧ prDetect r ≤ 24000) && decide (1 ≤ prTagMs r ∧ prTagMs r ≤ 1000)
    && decide (fnat r 96 160 = 0)
  match prMode r with
  | 0 => true
  | 1 | 2 => full
  | 3 =>
    let other := g (if p % 2 = 0 then p + 1 else p - 1)
    decide (prMode other = 3) && (if p = odd then full && decide (fnat other 8 248 = 0) else decide (fnat r 8 248 = 0))
  | _ => false

/-- Whether a half exists: half 0 unless it is the odd port of a gang, half 1 of a split port (Table 10-10). -/
def halfExists (s : State) (p h : Nat) : Bool :=
  decide (p < 48) && (if h = 0 then decide (queueXp s p = p) else decide (h = 1) && decide (prMode (portRec s p) = 2))

/-! ## Registers (10, Registers) -/

/-- Number of a port state (Table 10-3). -/
def portStNum (st : PortSt) : Nat :=
  match st with
  | .off => 0 | .detect => 1 | .training => 2 | .confirm => 3 | .up => 4 | .down => 5
/-- Number of a down cause. -/
def downNum (c : DownCause) : Nat :=
  match c with
  | .link => 0 | .retry => 1 | .ide => 2 | .presence => 3
/-- port.status. -/
def portStatusWord (p : Port) : BitVec 64 :=
  BitVec.ofNat 64 (p.role.toNat + portStNum p.st * 4 + p.rate.toNat * 32 + nb p.flit256 * 2 ^ 8 + nb p.lopt * 2 ^ 9
    + nb p.ideSecure * 2 ^ 10 + nb p.mld * 2 ^ 11 + nb p.idDiffers * 2 ^ 12 + nb p.l0p * 2 ^ 13
    + downNum p.downCause * 2 ^ 14 + p.since.toNat * 2 ^ 16)
/-- port.link. -/
def portLinkWord (p : Port) : BitVec 64 :=
  BitVec.ofNat 64 (p.width.toNat + p.trained.toNat * 32 + p.downs.toNat * 2 ^ 16 + p.recoveries.toNat * 2 ^ 32)

/-! ## Small updates -/

/-- Counter k of port u grows by n (Table 10-8). -/
def portCnt (u k n : Nat) (s : State) : State :=
  let p := port s u
  setPort u { p with cnt := tabSet 0 p.cnt k (tabGet 0 p.cnt k + BitVec.ofNat 64 n) } s

/-- Port u enters state `st`, stamped. -/
def setPortSt (u : Nat) (st : PortSt) (s : State) : State := setPort u { port s u with st := st, since := stamp s } s

/-- Slot Status bits set (PCIe layout: Attention Button Pressed 0, Power Fault 1, Presence Detect Changed 3, Command
Completed 4, DLL State Changed 8; log entry 34). -/
def slotEvent (u b : Nat) (s : State) : State :=
  let p := port s u
  setPort u { p with slotSts := p.slotSts ||| (1#16 <<< b) } s

/-- The tag timers of port u turn from start times into times already counted as it leaves L0, and back as it returns
(R238). -/
def tagClock (u : Nat) (s : State) : State :=
  let p := port s u
  setPort u { p with tags := tabMap none (fun _ t => t.map fun v => { v with since := s.tele.time - v.since }) p.tags } s

/-- Port u leaves L0. -/
def leaveL0 (u : Nat) (s : State) : State :=
  if (port s u).inL0 then let s1 := tagClock u s; endScans (lanesOf s u) (setPort u { port s1 u with inL0 := false } s1) else s

/-- Port u is in L0 again. -/
def enterL0 (u : Nat) (s : State) : State :=
  if (port s u).inL0 then s else let s1 := tagClock u s; setPort u { port s1 u with inL0 := true, l0At := s.tele.time } s1

/-! ## Messages already sent (Table 10-5) -/

/-- A non-posted CXL.io request completes with Unsupported Request toward its requester, counted at port u. -/
def unsupported (u : Nat) (m : Msg) (s : State) : State :=
  portCnt u 7 1 (sendTo (completionMsg m .ioCompletion .noOp 0 true) true (ioGone m s))

/-- One message that port u has sent and that is not answered is resolved; the flag says that a request completed in
error. -/
def resolveSent (u : Nat) (m : Msg) (s : State) : Bool × State :=
  if isRequest m.op then (true, failRequest m s)
  else if m.op = .ioNonPosted then (false, unsupported u m s)
  else if m.mclass = 6 then (false, portCnt u 4 1 (ioGone m s))
  else (false, s)

/-- A message outstanding through a vPPB is resolved where port u holds it (R241): one that u has sent as Table 10-5 gives, its
tag free; one held for u as a purge does. -/
def ioResolve (u : Nat) (m : Msg) (s : State) : State :=
  let p := port s u
  let here := fun (t : Option TagUse) => match t with
    | some v => sameIo m v.msg
    | none => false
  if p.tags.any fun t => here t.2 then
    (resolveSent u m (setPort u { p with tags := tabMap none (fun _ t => if here t then none else t) p.tags } s)).2
  else purge (fun q => sameIo m q) (queueXp s (u / 2)) s

/-- The messages outstanding through vPPB k are resolved at both ends of its binding (R241). -/
def vppbResolve (k : Nat) (b : VppbBind) (s : State) : State :=
  ((s.mgmt.ioOut.filter fun e => decide (e.1 = k)).map (·.2)).foldl
    (fun s m => ioResolve (k / 16) m (ioResolve b.port m s)) s

/-- The virtual switch of logical USP u returns to its reset state: what is outstanding through its vPPBs is resolved, and
they are bound to nothing (R234; log entry 123). -/
def switchReset (u : Nat) (s : State) : State :=
  let mine := fun (k : Nat) => decide (k / 16 = u)
  let s1 := s.mgmt.vppbs.foldl (fun s e => match e.2 with
    | some b => if mine e.1 then vppbResolve e.1 b s else s
    | none => s) s
  { s1 with mgmt := { s1.mgmt with
      vppbs := s1.mgmt.vppbs.filter fun e => !mine e.1
      aer := s1.mgmt.aer.filter fun e => !mine e.1 } }

/-- The messages of port u's tag map and of its replay buffer are resolved and both are empty; INFLIGHT_LOST counts the
requests (R236, Table 10-5). -/
def resolveTags (u : Nat) (s : State) : State :=
  let ts := (port s u).tags.filterMap fun t => t.2.map fun v => v.msg
  let n := (port s u).replay.length
  let s1 := portCnt u 4 n (setPort u { port s u with tags := [], replay := [] } s)
  let r := ts.foldl (fun (q : Nat × State) m => let a := resolveSent u m q.2; (q.1 + nb a.1, a.2)) (0, s1)
  if r.1 = 0 then r.2
  else raise 0 0x11 (source 1 u) (BitVec.ofNat 64 r.1) (portCnt u 3 r.1 r.2)

/-! ## Down (R236) -/

/-- The receivers of port u's lanes lose their partner: no signal, not converged (R292). -/
def lanesLost (ls : List Nat) (s : State) : State :=
  endScans ls (ls.foldl (fun s l => setLane l { lane s l with signal := false, converged := false } s) s)

/-- Logical port u is declared down: output HELD, LINK_DOWN, PORT_DOWN indexed, hold timers started, and what was sent
resolved (R236). -/
def portDown (u : Nat) (cause : DownCause) (s : State) : State :=
  let p := port s u
  let x := queueXp s (u / 2)
  let s0 := if p.st = .up then slotEvent u 8 (biClock u s) else s
  let p0 := port s0 u
  let s1 := setPort u { p0 with
      st := .down, downCause := cause, since := stamp s, isDown := true, symptom := none, inL0 := false,
      retrain := none, rateCap := none, downs := satAdd p0.downs 1, width := 0, l0p := false, ideSecure := false,
      ideKeys := [], ideOpen := 0,
      confirmRaised := false } s0
  let s2 := holdOutput x s1
  let s3 := if p.role = 1 then
      let o := output s2 x
      setOutput x { o with upHold := tabSet none o.upHold (u % 2) (some s.tele.time) } s2
    else s2
  let s4 := raiseCond 0 1 (source 1 u) (BitVec.ofNat 64 (downNum cause)) s3
  resolveTags u (trigger 1 u (startHolds x (lanesLost (lanesOf s u) s4)))

/-- Port u loses its partner for a cause: declared down, or, where it was down and trains again, back in DOWN (R235,
R236). -/
def portLost (u : Nat) (cause : DownCause) (s : State) : State :=
  match (port s u).st with
  | .up | .confirm => portDown u cause s
  | .training => if (port s u).isDown then setPortSt u .down (leaveL0 u s) else portDown u cause s
  | _ => s

/-! ## Return (R233, R237) -/

/-- Logical port u reaches UP: its output resumes once no half is down, hold timers stop, and a DSP or PBR partner is
measured (R233, R237, R121). -/
def portUp (u : Nat) (s : State) : State :=
  let p := port s u
  let x := queueXp s (u / 2)
  let s1 := slotEvent u 8 (setPort u { p with
      st := .up, since := stamp s, isDown := false, symptom := none,
      idDiffers := false, pendingIdent := 0, pendingLdMap := 0 } s)
  let s2 := if p.role = 1 then
      let o := output s1 x
      biClock u (setOutput x { o with upHold := tabSet none o.upHold (u % 2) none } s1)
    else s1
  let s3 := stopHolds x (triggerGone 1 u (condGone 0 1 (source 1 u) s2))
  let s4 := if (output s3 x).st = .held && !anyHalfDown s3 x && loomUp s3 x then resumeOutput x s3 else s3
  if p.role = 2 ∨ p.role = 3 then
    { s4 with mgmt := { s4.mgmt with attachQ := s4.mgmt.attachQ.filter (· ≠ u) ++ [u] } }
  else s4

/-- Hold timers of bindings of xp x, and the up-hold of port u, whose limits have passed expire before a return counts
(R125). -/
def expireDue (x u : Nat) (s : State) : State :=
  let due := (bindingsOf s x).filter fun b => match (brun s b).holdStart with
    | some t => !(brun s b).expired && decide (ctxHold (ctx s b) ≠ 2 ^ 32 - 1)
        && decide (t.toNat + ctxHold (ctx s b) * usTicks ≤ now s)
    | none => false
  let s1 := due.foldl (fun s b => expireHold b s) s
  match tabGet none (output s1 x).upHold (u % 2) with
  | some t =>
    if upHoldEnds s1 = true ∧ t.toNat + bfUpHold (bufRec s1 64) * usTicks ≤ now s1 then
      depart u (purge (fun m => decide (outPort s1 x m = u)) x s1)
    else s1
  | none => s1

/-- A DSP or PBR partner's identity differs: what is held for the port is purged, bindings detach, and the port stays in
CONFIRM (R237). -/
def identityDiffers (u : Nat) (ident ldMap : BitVec 64) (s : State) : State :=
  let x := queueXp s (u / 2)
  let s1 := setPort u { port s u with idDiffers := true, pendingIdent := ident, pendingLdMap := ldMap } s
  detachFor x (source 1 u) (purge (fun m => decide (outPort s x m = u)) x s1)

/-! ## Commands (R248) -/

/-- Port u may leave OFF. -/
def mayRun (p : Port) : Bool := !p.disabled && !p.isolated && !p.invalid && decide (p.role ≠ 0)

/-- Link Disable: port u is declared down and goes OFF (R248, Table 16-3). -/
def portStop (u : Nat) (s : State) : State :=
  if (port s u).st = .off then s
  else
    let s1 := if (port s u).isDown && decide ((port s u).st ≠ .confirm) then s else portDown u .link s
    lanesTo .off 0 (lanesOf s u) (setPortSt u .off (emit (.portAction (BitVec.ofNat 7 u) 0) s1))

/-- Port u is let train again. -/
def portRelease (u : Nat) (s : State) : State :=
  if (port s u).st = .off && mayRun (port s u) && !s.fault.safeStop then setPortSt u .detect (emit (.portAction (BitVec.ofNat 7 u) 2) s) else s

/-- A commanded retrain of port u, up to a rate where one is named: out of L0 until the link is back (R235, R248). -/
def retrainPort (u : Nat) (cap : Option (BitVec 3)) (s : State) : State :=
  let p := port s u
  if p.st = .up ∨ p.st = .confirm then
    let s1 := if p.st = .up then slotEvent u 8 (biClock u s) else s
    let s2 := leaveL0 u s1
    emit (.portAction (BitVec.ofNat 7 u) 1)
      (setPort u { port s2 u with
        st := .training, since := stamp s, retrain := some s.tele.time, rateCap := cap, symptom := none } s2)
  else s

/-! ## Virtual switches (R241) -/

/-- vPPB v of logical USP u. -/
def vppbOf (s : State) (u v : Nat) : Option VppbBind := tabGet none s.mgmt.vppbs (u * 16 + v)

/-- The vPPB bound to LD `ld` of logical downstream port u, if one is. -/
def vppbAt (s : State) (u : Nat) (ld : BitVec 4) : Option Nat :=
  (s.mgmt.vppbs.find? fun e => match e.2 with
    | some b => decide (b.port = u) && (match b.ld with | none => true | some k => decide (k = ld))
    | none => false).map (·.1)

end Sys2Proof.Machine
end

