-- ==== Sys2Proof/Machine/ScribeOps.lean ====
section
/-! DEFINITION. Shared operations of the scribe engines: tokens, queues, descriptors, channels, lines, halts, migrations
and instance states (Scribe Engines and Virtual Instances). -/

namespace Sys2Proof.Machine

open Sys2Proof

/-! ## Instances and queues -/

/-- Queue q of an instance. -/
def queueOf (i : Inst) (q : Nat) : SQueue := tabGet SQueue.init i.queues q

/-- The state with queue q of instance n replaced. -/
def setQueue (n q : Nat) (v : SQueue) (s : State) : State :=
  setInst n { inst s n with queues := tabSet SQueue.init (inst s n).queues q v } s

/-- Engine e. -/
def engine (s : State) (e : Nat) : Engine := tabGet Engine.init s.scribe.engines e

/-- The state with engine e replaced. -/
def setEngine (e : Nat) (v : Engine) (s : State) : State :=
  { s with scribe := { s.scribe with engines := tabSet Engine.init s.scribe.engines e v } }

/-- State of an instance as Table 7-1 numbers it. -/
def instNum (st : InstSt) : Nat :=
  match st with
  | .disabled => 0 | .ready => 1 | .freezing => 2 | .frozen => 3 | .resetting => 4

/-- Error of a queue as inst.q.index.err numbers it. -/
def qerrNum (e : QErr) : Nat :=
  match e with
  | .none => 0 | .overrun => 1 | .fetchFail => 2 | .compFail => 3

/-- Freeze causes of an instance: [0] PROT, [1] OWNER. -/
def causeNum (i : Inst) : Nat := nb i.causeProt + 2 * nb i.causeOwner

/-- Ring size of a queue, as a power of two: sizes outside 4 to 12 act as 4. -/
def ringBits (q : SQueue) : Nat := if 4 ≤ q.size.toNat ∧ q.size.toNat ≤ 12 then q.size.toNat else 4

/-- Entry of a ring that an index occupies (R168). -/
def ringSlot (q : SQueue) (index : BitVec 16) : Nat := index.toNat % 2 ^ ringBits q

/-- Cookie of the binding in slot k of an instance, whatever its kind; 0 for an empty slot (Table 7-8, R180). -/
def slotCookie (s : State) (i : Inst) (k : Nat) : BitVec 32 :=
  let b := (tabGet 0xFFFF i.bslots k).toNat
  if b < 8192 then ctxCookie (ctx s b) else 0

/-- Binding in slot k of an instance; none for an empty slot or a binding that is not of kind 1 (R164). -/
def bslotOf (s : State) (i : Inst) (k : Nat) : Option Nat :=
  let b := (tabGet 0xFFFF i.bslots k).toNat
  if b < 8192 ∧ ctxKind (ctx s b) = 1 then some b else none

/-- A queue enters ERROR, unless it is in ERROR (R170, R177). -/
def queueErr (n q : Nat) (e : QErr) (s : State) : State :=
  let v := queueOf (inst s n) q
  if v.err = .none then setQueue n q { v with err := e } s else s

/-- The interrupt of source v of instance n: queue q is source q, the mailbox source 4 (13 R326). -/
def instIrq (n v : Nat) (s : State) : State := emit (.vfMsix (BitVec.ofNat 10 n) (BitVec.ofNat 4 v)) s

/-! ## Tokens (R174, R175) -/

/-- Ticks of a refill period: 4 µs. -/
def refillTicks : Nat := 32000

/-- An instance after `k` refills, at least one: the first one brings a new share and burst into force. -/
def refillInst (k : Nat) (i : Inst) : Inst :=
  let p := i.newShare.getD (i.share, i.burst)
  let cap := max p.1.toNat p.2.toNat
  { i with share := p.1, burst := p.2, newShare := none,
           tokens := BitVec.ofNat 16 (min cap (i.tokens.toNat + k * p.1.toNat)) }

/-- Every bucket filled up to fabric time now. -/
def scribeSync (s : State) : State :=
  let f := now s / refillTicks
  let k := f - s.scribe.refilled.toNat
  if k = 0 then s
  else { s with scribe := { s.scribe with
      insts := tabMap Inst.init (fun _ i => refillInst k i) s.scribe.insts, refilled := BitVec.ofNat 64 f } }

/-! ## Descriptors -/

/-- op of a descriptor. -/
def dOp (d : Desc) : Nat := fnat d.raw 0 8
/-- irq flag. -/
def dIrq (d : Desc) : Bool := bit d.raw 8
/-- fence flag. -/
def dFence (d : Desc) : Bool := bit d.raw 9
/-- quiet flag. -/
def dQuiet (d : Desc) : Bool := bit d.raw 10
/-- src_bslot. -/
def dSrcSlot (d : Desc) : Nat := fnat d.raw 16 8
/-- dst_bslot. -/
def dDstSlot (d : Desc) : Nat := fnat d.raw 24 8
/-- length. -/
def dLength (d : Desc) : Nat := fnat d.raw 32 32
/-- tag. -/
def dTag (d : Desc) : Nat := fnat d.raw 64 32
/-- src_off. -/
def dSrcOff (d : Desc) : Nat := fnat d.raw 128 64
/-- dst_off; new_base of MIGRATE_PAGE. -/
def dDstOff (d : Desc) : Nat := fnat d.raw 192 64
/-- pattern; new_feid of MIGRATE_PAGE in its low 16 bits. -/
def dPattern (d : Desc) : BitVec 64 := fld d.raw 256 64
/-- new_feid of MIGRATE_PAGE. -/
def dNewFeid (d : Desc) : Nat := fnat d.raw 256 16

/-- A MIGRATE_PAGE descriptor. -/
def dMigrates (d : Desc) : Bool := decide (dOp d = 4)

/-- Lines of a descriptor: none for NOP. -/
def dLines (d : Desc) : Nat := if dOp d = 0 then 0 else dLength d / 64

/-- The reserved fields of a descriptor are 0, its flags and binding slots in range (R172). -/
def dFieldsOk (d : Desc) : Bool :=
  decide (fnat d.raw 8 8 < 8 ∧ fnat d.raw 96 32 = 0 ∧ fnat d.raw 320 192 = 0)
  && decide (dDstSlot d < 8) && decide (dSrcSlot d < 8 ∨ dOp d = 2 ∨ dOp d = 3)

/-- Offsets and length of a descriptor are as Table 7-3 and R184 ask. -/
def dPlacesOk (d : Desc) : Bool :=
  if dMigrates d then
    decide (dSrcOff d % 2 ^ 21 = 0 ∧ dDstOff d % 2 ^ 21 = 0 ∧ dLength d = 2 ^ 21 ∧ dDstSlot d = 0)
  else
    decide (dLength d % 64 = 0 ∧ 64 ≤ dLength d ∧ dLength d ≤ 0x40000000 ∧ dDstOff d % 64 = 0)
    && decide (dSrcOff d % 64 = 0 ∨ dOp d = 2 ∨ dOp d = 3)

/-- Status of a fetched descriptor that completes without a line: BAD_OP, BAD_DESC, or none (R171, R172, R184). -/
def dRefused (i : Inst) (d : Desc) : Option Nat :=
  if 5 ≤ dOp d ∨ (dMigrates d ∧ i.migrateOk = false) then some 5
  else if dFieldsOk d && dPlacesOk d then none else some 4

/-- Same descriptor: the key a line carries. -/
def sameDesc (a b : Desc) : Bool :=
  decide (a.inst = b.inst) && decide (a.q = b.q) && decide (a.index = b.index) && decide (a.order = b.order)

/-- The descriptor that a scribe message belongs to. -/
def descOfReq (s : State) (r : Requester) : Option Desc :=
  match r with
  | .engine n q i l =>
    s.scribe.descs.find? fun d => decide (d.inst = n) && decide (d.q = q) && decide (d.index = i)
      && decide (d.order = l / 2 ^ 25)
  | _ => none

/-- Line number of a scribe message. -/
def lineOfReq (r : Requester) : Nat :=
  match r with
  | .engine _ _ _ l => l % 2 ^ 25
  | _ => 0

/-- Requester of line l of a descriptor. -/
def dReq (d : Desc) (l : Nat) : Requester := .engine d.inst d.q d.index (d.order * 2 ^ 25 + l)

/-- The state with a held descriptor changed. -/
def putDesc (old new : Desc) (s : State) : State :=
  { s with scribe := { s.scribe with descs := s.scribe.descs.map fun d => if sameDesc d old then new else d } }

/-- The state without a descriptor. -/
def dropDesc (d : Desc) (s : State) : State :=
  { s with scribe := { s.scribe with descs := s.scribe.descs.filter fun x => !sameDesc x d } }

/-- A descriptor that its instance still holds, of queue q of instance n. -/
def ofQueue (n q : Nat) (d : Desc) : Bool :=
  decide (d.inst.toNat = n) && decide (d.q.toNat = q) && decide (d.stage ≠ .dropped)

/-- The held descriptor of queue q of instance n with this index. -/
def qDesc (s : State) (n q : Nat) (index : BitVec 16) : Option Desc :=
  s.scribe.descs.find? fun d => ofQueue n q d && decide (d.index = index)

/-- A descriptor is dropped; one with lines in flight is kept until they are back (R182). -/
def abandon (d : Desc) (s : State) : State :=
  if d.flight = [] then dropDesc d s else putDesc d { d with stage := .dropped, halted := true } s

/-- The next order number taken. -/
def nextOrder (s : State) : State := { s with scribe := { s.scribe with order := s.scribe.order + 1 } }

/-! ## Messages of the engines (R164, R165, R139) -/

/-- A scribe access: a read is RdI and a write WrI at a proxied line. -/
def scribeMsg (s : State) (op : Op) (r : Requester) (b xp : Nat) (data : BitVec 512) (mask : BitVec 64) : Msg :=
  { op := op, mv := .i, mclass := 1, sclass := 0, feid := 0, req := r, inXp := BitVec.ofNat 6 xp, tag := 0,
    binding := BitVec.ofNat 13 b, counted := false, dev := 0, sa := 0, proxy := false, data := data, mask := mask,
    len := opLen op, poison := false, devLoad := 0, ld := none, colour := .green, epoch := 0, hops := 0, born := s.tele.time, phase := none }

/-- Crossbar port of an engine (R161). -/
def engineXp (e : Nat) : Nat := 60 + e / 8

/-! ## Fetching (R168, R169, R171) -/

/-- Descriptors of instance n held fetched and not completed. -/
def heldDescs (s : State) (n : Nat) : Nat := (s.scribe.descs.filter fun d => decide (d.inst.toNat = n) && decide (d.stage ≠ .dropped)).length

/-- A line's or a ring access's place in bslot k of its instance, then the access; an empty slot or one of another kind
refuses it (R164). -/
def slotAccess (i : Inst) (k : Nat) (m : Msg) (off : Nat) (ue : DecodeUe) (s : State) :
    Option (Nat × Nat) × Acc × State :=
  match bslotOf s i k with
  | none => (some (3, 0x20), .sent, s)
  | some b =>
    let r := lineAccess { m with binding := BitVec.ofNat 13 b } (BitVec.ofNat 64 off) ue s
    (haltOf r.1 (isWrite m.op), r.1, r.2)

/-- A ring access through bslot 0: a failing one, an uncorrectable protection entry included, returns to the engine with
its halt (R177). -/
def ringAccess (i : Inst) (m : Msg) (off : Nat) (s : State) : State :=
  let r := slotAccess i 0 m off noUe s
  match if r.2.1 = .protUe then some (2, 0) else r.1 with
  | some h => sendTo { completionMsg m .cmp .noOp 0 false with tag := haltTag h } true r.2.2
  | none => outcome { m with binding := BitVec.ofNat 13 ((bslotOf s i 0).getD 0) } ((bslotOf s i 0).getD 0)
      (BitVec.ofNat 64 off) (r.2.1, r.2.2)

/-- Whether queue q of instance n fetches its next descriptor now (R166, R170, R171). -/
def mayFetch (s : State) (n q : Nat) : Bool :=
  let i := inst s n
  let v := queueOf i q
  decide (i.st = .ready) && v.enable && decide (v.err = .none) && decide (v.fetchIdx ≠ v.producer)
  && decide (heldDescs s n < i.descQuota.toNat) && !s.fault.safeStop

/-- The fetch of the next descriptor of a queue is sent; the descriptor is held from then on. -/
def fetchOne (n q : Nat) (s : State) : State :=
  let i := inst s n
  let v := queueOf i q
  let d : Desc := {
    inst := BitVec.ofNat 10 n, q := BitVec.ofNat 2 q, index := v.fetchIdx, raw := 0, stage := .fetching, engine := 0,
    order := s.scribe.order, next := 0, done := 0, flight := [ringMark + 1], status := 0, detail := 0, halted := false,
    slot := none, first := 0 }
  let m := scribeMsg s .memRd (dReq d (ringMark + 1)) 0 60 0 0
  let s1 := nextOrder (setQueue n q { v with fetchIdx := v.fetchIdx + 1 } s)
  ringAccess i m (v.ringOff.toNat + ringSlot v d.index * 64)
    { s1 with scribe := { s1.scribe with descs := s1.scribe.descs ++ [d] } }

/-- Queue q fetches on while it may, at most `k` descriptors. -/
def fetchQueue (n q : Nat) : Nat → State → State
  | 0, s => s
  | k + 1, s => if mayFetch s n q then fetchQueue n q k (fetchOne n q s) else s

/-- Every queue of instance n fetches what it may (R171). -/
def fetchAll (n : Nat) (s : State) : State :=
  (List.range 4).foldl (fun s q => fetchQueue n q (inst s n).descQuota.toNat s) s

/-! ## Completion records (R173, Table 7-5) -/

/-- lines_done of a descriptor (R176, R186). -/
def linesDone (d : Desc) : Nat := d.next - d.first

/-- The completion record of a descriptor. -/
def recordWord (d : Desc) (phase : Bool) : BitVec 128 :=
  BitVec.ofNat 128 (dTag d + d.index.toNat * 2 ^ 32 + d.status.toNat * 2 ^ 48 + d.detail.toNat * 2 ^ 56
    + nb phase * 2 ^ 63 + linesDone d * 2 ^ 64)

/-- A queue whose record index has moved past the descriptor there: the phase flips at a wrap, and consumer stays at the
first descriptor not completed (R173, Table 7-5). -/
def pastRecord (v : SQueue) (completed : Bool) : SQueue :=
  let c := v.recIdx + 1
  { v with recIdx := c, consumer := if completed ∧ v.consumer = v.recIdx then c else v.consumer,
           phase := if c.toNat % 2 ^ ringBits v = 0 then !v.phase else v.phase }

/-- Descriptor d, the one whose record is due, is completed: consumer advances, the counter counts and the interrupt is
raised where both ask for it. -/
def descDone (d : Desc) (s : State) : State :=
  let n := d.inst.toNat
  let i := inst s n
  let v := queueOf i d.q.toNat
  let v1 := pastRecord v true
  let s1 := setInst n { i with cntDescs := i.cntDescs + 1, queues := tabSet SQueue.init i.queues d.q.toNat v1 }
    (dropDesc d s)
  if v.irqEn ∧ dIrq d then instIrq n d.q.toNat s1 else s1

/-- Channels of an engine: a descriptor holds one from its dispatch until its completion is written (R161, R162). -/
def channels (s : State) (e : Nat) : List Desc :=
  s.scribe.descs.filter fun d => decide (d.engine.toNat = e)
    && (decide (d.stage = .running) || decide (d.stage = .finished) || decide (d.stage = .recording))

/-- Lines in flight of an engine; a descriptor's fetch is no channel's line (R161). -/
def engineFlight (s : State) (e : Nat) : Nat :=
  ((s.scribe.descs.filter fun d => decide (d.engine.toNat = e)).map fun d =>
    (d.flight.filter fun l => l ≠ ringMark + 1).length).sum

/-- Whether engine e may have another line in flight (R161). -/
def flightRoom (s : State) (e : Nat) : Bool := decide (engineFlight s e < 256)

/-- The record of a finished descriptor is sent by its engine through bslot 0: 16 bytes within their line
(R162, R164, R168). -/
def sendRecord (d : Desc) (s : State) : State :=
  let i := inst s d.inst.toNat
  let v := queueOf i d.q.toNat
  let off := v.compOff.toNat + ringSlot v d.index * 16
  let lane := off % 64
  let m := scribeMsg s .memWrPtl (dReq d ringMark) 0 (engineXp d.engine.toNat)
    (BitVec.ofNat 512 ((recordWord d v.phase).toNat * 2 ^ (8 * lane))) (BitVec.ofNat 64 (0xFFFF * 2 ^ lane))
  ringAccess i m (off - lane) (putDesc d { d with stage := .recording, flight := [ringMark] } s)

/-- Records of queue q of instance n go out in ring order, one at a time; a quiet descriptor with status OK has none, and
neither has one whose fetch failed (R173, R170). -/
def pumpRecords (n q : Nat) : Nat → State → State
  | 0, s => s
  | k + 1, s =>
    match qDesc s n q (queueOf (inst s n) q).recIdx with
    | none => s
    | some d =>
      if d.stage = .failed then
        pumpRecords n q k (setQueue n q (pastRecord (queueOf (inst s n) q) false) (dropDesc d s))
      else if d.stage ≠ .finished ∨ flightRoom s d.engine.toNat = false then s
      else if dQuiet d ∧ d.status = 0 then pumpRecords n q k (descDone d s)
      else sendRecord d s

/-- A queue's records go out and its next descriptors are fetched. -/
def pumpQueue (n q : Nat) (s : State) : State := fetchAll n (pumpRecords n q 4096 s)

/-- A descriptor whose lines have all completed, and which halted or issued its last line, waits for its record; a
dropped one is gone (R173, R182). -/
def settleDesc (d : Desc) (s : State) : State :=
  if d.flight ≠ [] then s
  else if d.stage = .dropped then dropDesc d s
  else if d.stage ≠ .running then s
  else if d.halted ∨ (d.slot = none ∧ dLines d ≤ d.next) then
    pumpQueue d.inst.toNat d.q.toNat (putDesc d { d with stage := .finished } s)
  else s

/-! ## Halts (R176, R186, R187) -/

/-- The copy of a slot halts: ABORTED, the watermark kept, its stalled requests to the old side (R86). -/
def abortMig (k : Nat) (s : State) : State :=
  if (migSlot s k).st = .copying then
    releaseStall false k (setMig k { migSlot s k with st := .aborted, span := 0 } s)
  else s

/-- The slot of a descriptor aborts with it. -/
def abortSlot (d : Desc) (s : State) : State :=
  match d.slot with
  | none => s
  | some k => abortMig k.toNat s

/-- A descriptor has ended for its engine's fault or its migration's block: its status stands (R176, R187). -/
def endedOtherwise (d : Desc) : Bool := d.halted && decide (7 ≤ d.status.toNat)

/-- A channel halts at line l, which is not in flight any more: no later line is issued, and the first failing line
gives the record its status (R176). -/
def haltDesc (d : Desc) (l : Nat) (h : Nat × Nat) (s : State) : State :=
  let first := !d.halted || decide (l < d.next)
  let h := if endedOtherwise d then (d.status.toNat, d.detail.toNat) else h
  let d1 := { d with
    flight := d.flight.erase l
    halted := true
    next := if first then l else d.next
    status := if first then BitVec.ofNat 8 h.1 else d.status
    detail := if first then BitVec.ofNat 7 h.2 else d.detail }
  settleDesc d1 (abortSlot d1 (putDesc d d1 s))

/-! ## Channels (R161 to R163) -/

/-- Engine that a descriptor of instance n is given: eligible, with a free channel, the fewest busy ones and the lowest
number (R162). -/
def pickEngine (s : State) (n : Nat) : Option Nat :=
  let free := (List.range 16).filter fun e =>
    bit (inst s n).engineMask e && !(engine s e).resetting && decide ((channels s e).length < 16)
  (List.range 16).findSome? fun k => free.find? fun e => decide ((channels s e).length = k)

/-- Line the descriptor may issue next, in its span for a migration (R84). -/
def lineLeft (s : State) (d : Desc) : Bool :=
  match d.slot with
  | none => decide (d.next < dLines d)
  | some k =>
    let g := migSlot s k.toNat
    decide (g.st = .copying) && decide (d.next < g.watermark.toNat + g.span.toNat)
    && decide ((if g.phase then g.count0 else g.count1) = 0)

/-- Every descriptor before d in its queue has issued its last line, so that at most one is partly done (R173, R167). -/
def prevIssued (s : State) (d : Desc) : Bool :=
  let at_ := (queueOf (inst s d.inst.toNat) d.q.toNat).recIdx
  s.scribe.descs.all fun p =>
    !ofQueue d.inst.toNat d.q.toNat p || decide ((d.index - at_).toNat ≤ (p.index - at_).toNat) ||
      match p.stage with
      | .finished | .recording | .failed => true
      | .running => p.halted || decide (dLines p ≤ p.next)
      | _ => false

/-- A descriptor may begin, or has begun: its order in the queue and its fence (R173). -/
def inTurn (s : State) (d : Desc) : Bool :=
  decide (0 < d.next - d.first)
    || (prevIssued s d && (!dFence d || decide (d.index = (queueOf (inst s d.inst.toNat) d.q.toNat).recIdx)))

/-- A channel may issue a line now: its order and fence, its span or its freeze, and a token where the line writes
(R163, R167, R173, R174). -/
def mayIssue (s : State) (d : Desc) : Bool :=
  let i := inst s d.inst.toNat
  decide (d.stage = .running) && !d.halted && lineLeft s d
  && (decide (i.st = .ready) || (decide (i.st = .freezing) && d.slot.isSome))
  && decide (0 < i.tokens.toNat) && inTurn s d

/-- Whether an engine works: neither in reset, nor asleep, nor stopped (R176, 17 R400, 16 R385). -/
def engineRuns (s : State) (e : Nat) : Bool :=
  !(engine s e).resetting && decide ((domain s (199 + e)).st = .on) && !s.fault.safeStop

/-- The channel whose turn it is: the next one after the rotor that may issue, while the engine has fewer than 256 lines
in flight (R161, R163). -/
def nextChannel (s : State) (e : Nat) : Option Desc :=
  let may := (channels s e).filter fun d => flightRoom s e && mayIssue s d
  let later := may.filter fun d => decide ((engine s e).rotor < d.order)
  (if later.isEmpty then may else later).foldl
    (fun b d => match b with
      | none => some d
      | some c => if d.order < c.order then some d else some c) none

/-! ## Issuing a line (R163 to R165, R176, R186) -/

/-- The check and the route of a write that a line will make, looked up before the line is issued (R176). -/
def checkAhead (s : State) (m : Msg) (b off : Nat) : Option (Nat × Nat) × Acc × State :=
  match protCheck s none b m.feid.toNat m.dev.toNat (accessKind m.op m.mv) with
  | .violate c i =>
    (some (1, nb (isWrite m.op)), .violated,
      countErr 84 (violation m false (accessKind m.op m.mv) c i (BitVec.ofNat 64 off) s))
  | _ =>
    if (exitXp s m.feid.toNat m.dev.toNat m.proxy).isNone then (some (3, 6), .miss 6, decodeMiss (source 3 b) 6 off s)
    else (none, .sent, s)

/-- What an access would be stopped by, looked up ahead of it: the state of the binding, a miss, the check or the
route. -/
def lookAhead (s : State) (m : Msg) (b off : Nat) : Option (Nat × Nat) × Acc × State :=
  let w := decodeBinding s b off
  let m1 := walked { m with binding := BitVec.ofNat 13 b } w off
  match w.refused, w.miss, w.stall with
  | some st, _, _ => (some (3, 0x10 + st), .refused st, refuseCount b s)
  | none, some c, _ => (some (3, c), .miss c, decodeMiss (source 3 b) c off s)
  | none, none, some _ => (none, .waits, s)
  | none, none, none => checkAhead s m1 b off

/-- Data of a line that FILL or ZERO writes. -/
def fillData (d : Desc) : BitVec 512 :=
  if dOp d = 2 then
    BitVec.ofNat 512 ((List.range 8).foldl (fun n k => n + (dPattern d).toNat * 2 ^ (64 * k)) 0)
  else 0

/-- A migration line's message on the old side or the new one. -/
def migMsg (s : State) (d : Desc) (b k l : Nat) (wr : Bool) (data : BitVec 512) : Msg :=
  let off := dSrcOff d + l * 64
  let p := pageEntry s (migSlot s k).page.toNat
  let m := scribeMsg s (if wr then .memWr else .memRd) (dReq d l) b (engineXp d.engine.toNat) data 0
  { walked m (decodeBinding s b off) off with
    feid := BitVec.ofNat 16 (if wr then pgNewFeid p else pgFeid p)
    dev := BitVec.ofNat 64 ((if wr then pgNewBase p else pgBase p) + l * 64)
    proxy := false }

/-- A migration line's read from the old side, or its write to the new one (R186, R87). -/
def migAccess (d : Desc) (k l : Nat) (wr : Bool) (data : BitVec 512) (ue : DecodeUe) (s : State) :
    Option (Nat × Nat) × Acc × State :=
  match bslotOf s (inst s d.inst.toNat) (dSrcSlot d) with
  | none => (some (3, 0x20), .sent, s)
  | some b =>
    let off := dSrcOff d + l * 64
    let w := decodeBinding s b off
    match w.refused, w.miss with
    | some st, _ => (some (3, 0x10 + st), .refused st, refuseCount b s)
    | none, some c => (some (3, c), .miss c, decodeMiss (source 3 b) c off s)
    | none, none =>
      let r := accessTail (migMsg s d b k l wr data) none (pgHeat (pageEntry s (migSlot s k).page.toNat)) false (BitVec.ofNat 64 off) ue s
      (haltOf r.1 wr, r.1, r.2)

/-- The access that issues line l of a descriptor. A line that reads is looked up at its destination too before it is issued,
so that a line that fails there is not issued (R176). -/
def issueAccess (d : Desc) (l : Nat) (ue : DecodeUe) (s : State) : Option (Nat × Nat) × Acc × State :=
  let i := inst s d.inst.toNat
  let xp := engineXp d.engine.toNat
  match d.slot with
  | some k =>
    let r := migAccess d k.toNat l false 0 ue s
    let b := (bslotOf s i (dSrcSlot d)).getD 0
    let q := checkAhead s (migMsg s d b k.toNat l true 0) b (dSrcOff d + l * 64)
    if r.1.isNone ∧ q.1.isSome then q else r
  | none =>
    if dOp d = 1 then
      let r := slotAccess i (dSrcSlot d) (scribeMsg s .memRd (dReq d l) 0 xp 0 0) (dSrcOff d + l * 64) ue s
      match r.1, bslotOf s i (dDstSlot d) with
      | none, none => (some (3, 0x20), .sent, s)
      | none, some b =>
        let q := lookAhead s (scribeMsg s .memWr (dReq d l) b xp 0 0) b (dDstOff d + l * 64)
        if q.1.isSome then q else r
      | _, _ => r
    else
      slotAccess i (dDstSlot d) (scribeMsg s .memWr (dReq d l) 0 xp (fillData d) 0) (dDstOff d + l * 64) ue s

/-- A token of an instance is taken. -/
def takeToken (n : Nat) (s : State) : State := setInst n { inst s n with tokens := (inst s n).tokens - 1 } s

/-- The access of a line, as what waits for it or completes it in error needs it. -/
def lineMsg (s : State) (d : Desc) (k : Nat) (l : Nat) (wr : Bool) (data : BitVec 512) : Msg :=
  scribeMsg s (if wr then .memWr else .memRd) (dReq d l)
    ((bslotOf s (inst s d.inst.toNat) k).getD 0) (engineXp d.engine.toNat) data 0

/-- Whether a line writes at once: FILL and ZERO. -/
def writesOnly (d : Desc) : Bool := decide (dOp d = 2 ∨ dOp d = 3)

/-- Line l of descriptor d is issued, or halts its channel, or waits where the access cannot be decoded now. -/
def issueLine (d : Desc) (ue : DecodeUe) (s : State) : State :=
  let l := d.next
  let r := issueAccess d l ue s
  match r.1, r.2.1 with
  | some h, _ => haltDesc d l h r.2.2
  | none, .blocked => r.2.2
  | none, a =>
    let d1 := { d with next := l + 1, flight := d.flight ++ [l] }
    let s1 := takeToken d.inst.toNat (putDesc d d1 r.2.2)
    if a = .protUe then
      let w := writesOnly d
      endAccess (lineMsg s d (if w then dDstSlot d else dSrcSlot d) l w (fillData d)) 0 a s1
    else s1

/-! ## Lines that return (R173, R176, R178) -/

/-- A line is written: counted for its instance and its engine, and done. -/
def lineWritten (d : Desc) (l : Nat) (s : State) : State :=
  let n := d.inst.toNat
  let e := d.engine.toNat
  let d1 := { d with done := d.done + 1, flight := d.flight.erase l }
  let s1 := setInst n { inst s n with cntLines := (inst s n).cntLines + 1 } s
  let s2 := setEngine e { engine s1 e with lines := (engine s1 e).lines + 1 } s1
  settleDesc d1 (putDesc d d1 s2)

/-- Read data of line l of a COPY or of a migration is written on; a write that cannot be decoded now waits. -/
def writeOn (d : Desc) (l : Nat) (data : BitVec 512) (s : State) : State :=
  let m := lineMsg s d (dDstSlot d) l true data
  let off := dDstOff d + l * 64
  let r := match d.slot with
    | some k => migAccess d k.toNat l true data noUe s
    | none => slotAccess (inst s d.inst.toNat) (dDstSlot d) m off noUe s
  match r.1 with
  | some h => haltDesc d l h r.2.2
  | none => outcome m m.binding.toNat (BitVec.ofNat 64 off) r.2

/-- Records that waited for room on engine e go out (R161). -/
def pumpEngine (e : Nat) (s : State) : State :=
  ((channels s e).filter fun d => d.stage = .finished).foldl (fun s d => pumpRecords d.inst.toNat d.q.toNat 4096 s) s

/-- A completion of a queue's ring write returns: the descriptor is completed; a failed one is lost (R177). -/
def recordBack (d : Desc) (failed : Bool) (s : State) : State :=
  let n := d.inst.toNat
  let q := d.q.toNat
  let s1 := if failed then raiseFree 8 2 (source 4 n) (queueErr n q .compFail s) else s
  pumpQueue n q (descDone d s1)

/-- A line of a migration whose block was freed while its read was on the way: it is not written (R187). -/
def moveEnded (d : Desc) : Bool := dMigrates d && d.slot.isNone

/-- A completion returns to its engine: it leaves its binding's count, and the line goes on, is done, or halts. -/
def lineBack (m : Msg) (err : Bool) (s : State) : State :=
  let rd := decide (m.op = .memData)
  let s1 := retire { m with op := if rd then .memRd else .memWr } err s
  let l := lineOfReq m.req
  let failed := bit m.tag 15
  match descOfReq s1 m.req with
  | none => s1
  | some d => pumpEngine d.engine.toNat <|
    if d.flight.contains l = false then s1
    else if l = ringMark then (if d.stage = .recording then recordBack d failed s1 else dropDesc d s1)
    else if failed then haltDesc d l (fnat m.tag 8 7, fnat m.tag 0 7) s1
    else if rd ∧ m.poison then
      raiseFree 8 0x10 (source 4 d.inst.toNat)
        (haltDesc d l (2, 0) s1)
    else if rd ∧ moveEnded d then haltDesc d l (7, 0) s1
    else if rd then writeOn d l m.data s1
    else lineWritten d l s1

/-- A fetched descriptor returns and becomes ready, with the status of one that completes without a line; a failed fetch
puts its queue in ERROR, and the descriptors behind it go on (R170, R171, R177, R181). -/
def fetchBack (m : Msg) (err : Bool) (s : State) : State :=
  let s1 := retire { m with op := .memRd } err s
  match descOfReq s1 m.req with
  | none => s1
  | some d =>
    let n := d.inst.toNat
    let q := d.q.toNat
    if d.stage = .dropped then dropDesc d s1
    else if d.stage ≠ .fetching then s1
    else if bit m.tag 15 ∨ m.poison then
      pumpQueue n q (raiseFree 8 2 (source 4 n)
        (queueErr n q .fetchFail (putDesc d { d with stage := .failed, flight := [] } s1)))
    else
      let v := queueOf (inst s1 n) q
      let part := if d.index = v.consumer then v.partialLines.toNat else 0
      let d0 := { d with raw := m.data, order := s1.scribe.order, next := part, stage := .ready, flight := [] }
      let s2 := nextOrder (setQueue n q { v with
        partialLines := if d.index = v.consumer then 0 else v.partialLines } s1)
      let d1 := match dRefused (inst s2 n) d0 with
        | some st => { d0 with halted := true, status := BitVec.ofNat 8 st, next := 0 }
        | none => d0
      fetchAll n (putDesc d d1 s2)

/-! ## Migrations (R82, R184 to R188) -/

/-- A page entry with its migration opened. -/
def pgOpened (p : BitVec 256) (slot newFeid newBase : Nat) : BitVec 256 :=
  setFld (setFld (setFld (setFld p 19 1 1#1) 20 4 (BitVec.ofNat 4 slot)) 32 16 (BitVec.ofNat 16 newFeid))
    128 64 (BitVec.ofNat 64 newBase)

/-- A page entry with its migration complete (R84 step 5). -/
def pgMoved (p : BitVec 256) : BitVec 256 :=
  setFld (setFld (setFld p 19 1 0#1) 0 16 (BitVec.ofNat 16 (pgNewFeid p))) 64 64 (BitVec.ofNat 64 (pgNewBase p))

/-- The lowest IDLE migration slot. -/
def idleSlot (s : State) : Option Nat := (List.range 16).find? fun k => decide ((migSlot s k).st = .idle)

/-- How a MIGRATE_PAGE descriptor starts: refused with status and detail, or with its slot and first line. -/
inductive MigStart where
  | refuse (status detail : Nat)
  | start (slot : Nat) (line : Nat)
  | wait
  deriving DecidableEq, Repr

/-- The start of a MIGRATE_PAGE descriptor: decode, then resume, refuse or open (R185, R82). -/
def migStart (d : Desc) (s : State) : MigStart × State :=
  match bslotOf s (inst s d.inst.toNat) (dSrcSlot d) with
  | none => (.refuse 3 0x20, s)
  | some b =>
    let w := decodeBinding s b (dSrcOff d)
    match w.refused, w.page, w.miss with
    | some st, _, _ => (.refuse 3 (0x10 + st), refuseCount b s)
    | none, none, some c => (.refuse 3 c, decodeMiss (source 3 b) c (dSrcOff d) s)
    | none, none, none => (.refuse 6 1, s)
    | none, some pi, _ =>
      let s0 := cachePage pi s
      let p := pageEntry s pi
      if readsBad s w then (.wait, s)
      else if pgValid p = false ∨ s.plan.pageBad.contains pi then
        (.refuse 3 5, decodeMiss (source 3 b) 5 (dSrcOff d) s0)
      else if pgMig p then
        let g := migSlot s (pgSlot p)
        if g.st = .aborted then
          if pgNewFeid p = dNewFeid d ∧ pgNewBase p = dDstOff d then
            (.start (pgSlot p) g.watermark.toNat, setMig (pgSlot p) { g with st := .copying } s0)
          else (.refuse 6 5, s0)
        else (.refuse 6 3, s0)
      else if pgProxy p then (.refuse 6 2, s0)
      else
        match idleSlot s with
        | none => (.refuse 6 4, s0)
        | some k =>
          (.start k 0, setPage pi (pgOpened p k (dNewFeid d) (dDstOff d))
            (setMig k { migSlot s0 k with st := .copying, page := BitVec.ofNat 32 pi, watermark := 0, span := 0 } s0))

/-- The descriptor that runs a slot's migration. -/
def migDesc (s : State) (k : Nat) : Option Desc :=
  s.scribe.descs.find? fun d => decide (d.stage = .running) && decide (d.slot = some (BitVec.ofNat 4 k)) && !d.halted

/-- A descriptor takes a channel of engine e; a NOP and one that completes without a line are done at once, a migration
starts (R162, R172, R185). -/
def dispatch (d : Desc) (e : Nat) (s : State) : State :=
  let d1 := { d with engine := BitVec.ofNat 4 e, stage := .running }
  if dMigrates d ∧ d.halted = false then
    let r := migStart d s
    match r.1 with
    | .wait => s
    | .refuse st det => haltDesc { d1 with next := 0 } 0 (st, det) (putDesc d d1 r.2)
    | .start k l => putDesc d { d1 with slot := some (BitVec.ofNat 4 k), next := l, first := l } r.2
  else settleDesc d1 (putDesc d d1 s)

/-- A migration whose block an activation frees ends: stalled requests complete in error, the slot is IDLE, and its
descriptor completes MIG_ABORTED (R88, R187). -/
def freeMig (k : Nat) (s : State) : State :=
  let g := migSlot s k
  if g.st = .idle then s
  else
    let s0 := failStall false k s
    let s1 := setMig k { migSlot s0 k with st := .idle, span := 0, watermark := 0 } s0
    match migDesc s k with
    | none => s1
    | some d =>
      let d1 := { d with halted := true, status := 7, detail := 0, slot := none }
      raiseFree 8 0x11 (source 4 d.inst.toNat) (settleDesc d1 (putDesc d d1 s1))

/-! ## Engine faults (R176) -/

/-- A descriptor on a failed engine completes with ENGINE_FAULT once the lines it has issued have completed (R176); one
whose record is on the way keeps what it says. -/
def faultDesc (d : Desc) (s : State) : State :=
  if d.stage = .recording then s
  else
    let d1 := { d with halted := true, status := 8, detail := BitVec.ofNat 7 d.engine.toNat }
    settleDesc d1 (abortSlot d1 (putDesc d d1 s))

/-- Engine e is reset: its descriptors end and its domain passes through OFF (R176, 17 R417). -/
def engineFail (e : Nat) (s : State) : State :=
  if (engine s e).resetting then s
  else
    let s1 := (channels s e).foldl (fun s d => faultDesc d s) s
    let v := domain s1 (199 + e)
    setDomain (199 + e) { v with st := .off, step := 1, fromRet := false, misses := 0 }
      (setEngine e { engine s1 e with resetting := true } s1)

/-! ## Freeze and reset (R166, R167, R181 to R183) -/

/-- Whether a freeze of instance n is complete: no line in flight, no span open, no record due (R167). -/
def quiet (s : State) (n : Nat) : Bool :=
  (s.scribe.descs.all fun d => decide (d.inst.toNat ≠ n) || (decide (d.flight = [])
    && (match d.slot with | none => true | some k => decide ((migSlot s k.toNat).span = 0) || d.halted)))
  && ((List.range 4).all fun q =>
    match qDesc s n q (queueOf (inst s n) q).recIdx with
    | none => true
    | some d => !(decide (d.stage = .finished) || decide (d.stage = .recording)))

/-- Whether a line with requester r is held for a down port: in the queues of an output that is HELD (R80, R182). -/
def lineHeld (s : State) (r : Requester) : Bool :=
  let mine := fun (m : Msg) => decide (m.req = r)
  ((List.range 56).filter fun x => decide ((output s x).st = .held)).any fun x =>
    ((voqsTo s x).any fun k => ((voq s k).buf.any fun q => mine q.msg) || ((voq s k).res.any fun p => mine p.msg))
    || ((pairsTo s x).any fun k => ((pair s k).window.any fun u => mine u.msg && !u.acked)
      || ((pair s k).reseq.any fun c => mine c.2.msg && !c.2.skip))
    || ((output s x).staging.any fun e => e.2.any fun m => mine m.msg)
    || (s.xbar.rx.any fun e => e.2.any fun w => decide (queueXp s w.outXp.toNat = x) && mine w.msg)
    || (s.traffic.meters.any fun e => e.2.list.any fun w => decide (queueXp s w.outXp.toNat = x) && mine w.msg)

/-- A reset of instance n begins: engines finish the lines in progress, the rest is dropped, and lines held for a down
port are abandoned; a pending freeze ends with BAD_INSTANCE_STATE (R182, R183). -/
def startReset (n : Nat) (dis : Bool) (s : State) : State :=
  let i := inst s n
  let mine := s.scribe.descs.filter fun d => decide (d.inst.toNat = n)
  let s1 := mine.foldl (fun s d =>
    let d1 := { d with flight := d.flight.filter fun l => !lineHeld s (dReq d l) }
    abandon d1 (putDesc d d1 (abortSlot d s)))
    (setInst n { i with st := .resetting, disableAfter := dis, freezeTickets := [] } s)
  finishAll i.freezeTickets (rep 0x0701) s1

/-- Lines of instance n in flight that are not abandoned (R182). -/
def liveLines (s : State) (n : Nat) : Nat :=
  ((s.scribe.descs.filter fun d => decide (d.inst.toNat = n)).map fun d =>
    (d.flight.filter fun l => !lineHeld s (dReq d l)).length).sum

/-- An instance after its reset (R183). -/
def resetInst (i : Inst) : Inst :=
  { Inst.init with
    st := if i.disableAfter then .disabled else .ready
    share := i.share, burst := i.burst, newShare := i.newShare, engineMask := i.engineMask, descQuota := i.descQuota
    migrateOk := i.migrateOk, bslots := i.bslots, cntLines := i.cntLines, cntDescs := i.cntDescs }

/-- The reset of instance n is complete (R182, R183). -/
def endReset (n : Nat) (s : State) : State :=
  let i := inst s n
  let s1 := { s with scribe := { s.scribe with descs := s.scribe.descs.filter fun d => decide (d.inst.toNat ≠ n) } }
  finishAll i.resetTickets (ok) (raiseFree 8 0x30 (source 4 n) (setInst n (resetInst i) s1))

/-! ## Queue configuration -/

/-- A write of a queue's cfg (R170): size only while the queue is off, enable 0 clears ERROR and the indices and drops
what was fetched, enable 1 starts the queue. -/
def cfgQueue (n q : Nat) (w : BitVec 32) (s : State) : State :=
  let v := queueOf (inst s n) q
  let v1 := { v with irqEn := bit w 5, size := if v.enable then v.size else fld w 1 4 }
  if v.enable ∧ bit w 0 = false then
    let mine := s.scribe.descs.filter fun d => ofQueue n q d
    mine.foldl (fun s d => abandon d (abortSlot d s))
      (setQueue n q { v1 with enable := false, producer := 0, consumer := 0, phase := true, err := .none, fetchIdx := 0
                              recIdx := 0, partialLines := 0 } s)
  else if bit w 0 = false then
    setQueue n q { v1 with producer := 0, consumer := 0, phase := true, err := .none, fetchIdx := 0
                           recIdx := 0, partialLines := 0 } s
  else setQueue n q { v1 with enable := true } s

/-- A doorbell's producer is taken, or overruns the ring (R170). -/
def takeProducer (n q : Nat) (p : BitVec 16) (s : State) : State :=
  let v := queueOf (inst s n) q
  if 2 ^ ringBits v < (p - v.consumer).toNat then
    raiseFree 8 1 (source 4 n) (queueErr n q .overrun s)
  else fetchAll n (setQueue n q { v with producer := p } s)

end Sys2Proof.Machine
end

