-- ==== Sys2Proof/Machine/PlanOps.lean ====
section
/-! DEFINITION. Shared operations of the plan loader: commit, activation and what an activation does to bindings, ports,
domains, traffic and migrations (Weave Plans, Load, commit and activation). -/

namespace Sys2Proof.Machine

open Sys2Proof

/-! ## Mirrored words (15 R367) -/

/-- Memory type of a mirrored word's first copy: stack A where bit 12 of its offset is 0; the other stack's once that
one is lost. -/
def firstCopy (s : State) (offset : Nat) : Nat :=
  let b := decide (offset / 4096 % 2 = 1)
  8 + nb (if tabGet false s.xbar.stackLost (nb b) then !b else b)

/-- A copy that failed is rewritten from the other one. -/
def rewriteCopy (t : Nat) (e : Ecc) (s : State) : State :=
  match e with
  | .ue w => setMemType t { memType s t with bad := (memType s t).bad.filter fun x => !decide (x = w) } s
  | _ => s

/-- A read of a mirrored word: the first copy, and the other one where it is uncorrectable; whether both failed. -/
def mirrorRead (offset : Nat) (first second : Ecc) (s : State) : Bool × State :=
  let t := firstCopy s offset
  let s1 := memRead t first s
  if eccBad first = false then (false, s1)
  else if tabGet false s.xbar.stackLost (nb (decide (t = 8))) then (true, s1)
  else
    let s2 := memRead (17 - t) second s1
    if eccBad second then (true, s2) else (false, rewriteCopy t first s2)

/-! ## Commit (R43, R45 to R47) -/

/-- The shadow is EMPTY again; the page blocks of the load are free. -/
def dropLoad (s : State) : State :=
  { s with plan := { s.plan with
      shadowState := .empty, shadow := Tables.init, loadBytes := [], loadOwner := none, loadBlocks := [],
      loadRefused := false, commitTicket := none, persist := false, armedStates := [], armedCarried := none,
      armedBlocks := [], armedLate := false } }

/-- The commit ends: last_status and last_detail are kept, and its ticket completes (Table 2-9). -/
def commitEnd (r : Reply) (s : State) : State :=
  let s1 := { s with plan := { s.plan with lastStatus := r.status, lastDetail := r.detail, commitTicket := none } }
  match s.plan.commitTicket with
  | none => s1
  | some t => finishTicket t r s1

/-- Response payload of PLAN_COMMIT. -/
def commitBytes (stamp boundary rec_ : Nat) : List Byte := leBytes 8 stamp ++ leBytes 8 boundary ++ leBytes 4 rec_

/-- Plan chain P of an image over the chain in force (19 R461). -/
def chainOf (s : State) (full : Bool) (digest : BitVec 384) : BitVec 384 :=
  if full then digest else Config.sha384 (wBytes 48 s.sealu.planChain ++ wBytes 48 digest)

/-- The PLAN record of an image, or its PLAN_ABORT (19 Table 19-8). -/
def planAppend (s : State) (abort : Bool) (img : List Byte) : Append :=
  let full := decide (leAt img 6 2 = 0)
  let d := Config.sha384 img
  if abort then mkAppend s 5 0 d (leBytes 4 (leAt img 0x18 4))
  else
    mkAppend s 4 (if full then 0 else 8) d
      (leBytes 8 (leAt img 0x10 8) ++ leBytes 4 (leAt img 0x18 4) ++ leBytes 4 (leAt img 0x1C 4)
        ++ leBytes 1 (leAt img (leAt img 0x40 8 + 2) 2) ++ zeros 3 ++ leBytes 8 (leAt img 0x28 8)
        ++ wBytes 48 (chainOf s full d))

/-- Bindings whose record an image carries; none for a full plan, which carries all. -/
def carriedBindings (img : List Byte) : Option (List Nat) :=
  if leAt img 6 2 = 0 then none
  else match sectOf img 3 with
    | none => some []
    | some x => if x.patch then some ((List.range x.count).map fun i => (record img x i).1) else none

/-- The activation boundary for a requested time at the commit completion stamp (R46, R47). -/
def boundaryOf (stamp at_ : Nat) : Nat :=
  if stamp < at_ then (at_ + frameTicks - 1) / frameTicks * frameTicks else nextFrame stamp

/-- A loaded image that passed the checks and whose PLAN record is appended is armed, and the commit completes (R45 to
R47). `late` says whether a time that has passed is reported. -/
def arm (img : List Byte) (at_ : Nat) (report : Bool) (t : Tables) (s : State) : State :=
  let stamp := now s
  let late := decide (at_ ≤ stamp) && report
  let bd := boundaryOf stamp at_
  let s1 := { s with plan := { s.plan with
      shadowState := .armed, shadow := t, boundary := BitVec.ofNat 64 bd
      armedId := BitVec.ofNat 64 (leAt img 0x10 8), armedGeneration := BitVec.ofNat 32 (leAt img 0x18 4)
      armedStable := BitVec.ofNat 32 (leAt img 0x48 4), armedFabric := BitVec.ofNat 32 (leAt img 0x4C 4)
      armedDigest := Config.sha384 img, armedFull := decide (leAt img 6 2 = 0), armedLate := late
      commitStamp := s.tele.time
      armedStates := (List.range 8192).foldl (fun t b => tabSet 0 t b (BitVec.ofNat 8 (bstate s b))) []
      armedCarried := carriedBindings img, armedBlocks := carriedBlocks img } }
  commitEnd { status := if late then 0x41 else 0,
              detail := if late then BitVec.ofNat 32 (min (stamp - at_) 0xFFFFFFFF) else 0,
              payload := commitBytes stamp bd 0 } s1

/-- The end of a validation: rejected with the check and the section, or the PLAN record appended and the plan armed; an
append that fails arms nothing (R43, R45, 19 R459). -/
def validate (good report : Bool) (at_ : Nat) (s : State) : State :=
  let img := s.plan.loadBytes
  match planFault s img with
  | some (k, sec, rec_) =>
    dropLoad (commitEnd { status := 0x40, detail := BitVec.ofNat 32 (k + sec * 256),
                          payload := commitBytes (now s) 0 rec_ } s)
  | none =>
    match appendNow good (planAppend s false img) s with
    | (false, s1) => dropLoad (commitEnd (rep 0x60) s1)
    | (true, s1) => arm img at_ report (resultTables s img) s1

/-! ## Bindings at an activation (R48, 03 R77, R78) -/

/-- What an activation does to binding b: its context from the plan, its run-time state where one of the device's own
changes came between commit and boundary, and the state it enters. -/
structure BindMove where
  ctx : BitVec 512
  conflict : Bool
  /-- State before, and state after. -/
  old : Nat
  new : Nat
  deriving DecidableEq, Repr

/-- The move of binding b (R78). -/
def bindMove (s : State) (b : Nat) : BindMove :=
  let cur := bstate s b
  let c := tabGet 0 s.plan.shadow.binding b
  let carried := match s.plan.armedCarried with | none => true | some l => l.contains b
  if carried = false then { ctx := ctx s b, conflict := false, old := cur, new := cur }
  else if cur ≠ (tabGet 0 s.plan.armedStates b).toNat then
    { ctx := ctxWithState c cur, conflict := true, old := cur, new := cur }
  else if cur = 0 ∧ ctxState c = 5 then { ctx := ctxWithState c 0, conflict := false, old := 0, new := 0 }
  else { ctx := ctxWithState c cur, conflict := false, old := cur, new := ctxState c }

/-- Binding b makes its move, with what entering its state brings (R77, R80, 08 R201). -/
def moveBinding (b : Nat) (m : BindMove) (s : State) : State :=
  let s1 := if m.conflict then raise 6 0x21 (source 3 b) (BitVec.ofNat 64 b) s else s
  if m.old = m.new then s1
  else
    match m.new with
    | 0 => bindingFree b s1
    | 2 =>
      if m.old = 4 then
        let s2 := setBstate b 2 s1
        if downTargets s2 b = [] then s2 else startHold b s2
      else activateBinding b s1
    | 5 => drainCheck b (setBstate b 5 s1)
    | v => setBstate b v s1

/-- Bindings that either table lists. -/
def movedBindings (s : State) : List Nat :=
  ((tabKeys s.plan.active.binding) ++ (tabKeys s.plan.shadow.binding)).dedup

/-! ## Ports at an activation (10 R228 to R230) -/

/-- What a PORT table makes of logical port u: mode, role and slot; DISABLED where its record is invalid (R229). -/
def portShape (g : Nat → BitVec 256) (u : Nat) : Nat × Nat × Nat :=
  let p := u / 2
  let h := u % 2
  let r := g p
  let odd := decide (prMode r = 3) && decide (p % 2 = 1)
  if portRecOk g p = false ∨ prMode r = 0 ∨ odd ∨ (h = 1 ∧ prMode r ≠ 2) ∨ prRole r h = 0 then (0, 0, 0)
  else (prMode r, prRole r h, prSlot r h)

/-- The fields whose change alone asks for a retrain: max_rate, lopt_ok, ide, l1_ok, l0p_ok (R230). -/
def linkFields (g : Nat → BitVec 256) (u : Nat) : Nat × Nat :=
  let r := g (u / 2)
  (prRate r, nb (prFlag r 0) + 2 * nb (prFlag r 1) + 4 * nb (prFlag r 2) + 8 * nb (prFlag r 4))

/-- Logical port u is taken down by command for its new record: what is held for it is purged and its partner's identity
forgotten; a USP's host departs (R230). -/
def takeDown (u : Nat) (s : State) : State :=
  let role := (port s u).role
  let x := queueXp s (u / 2)
  let s1 := portStop u s
  let s2 := purge (fun m => decide (outPort s x m = u)) x s1
  let s3 := if role = 1 then depart u s2 else s2
  let o := output s3 x
  let s4 := setOutput x { o with upHold := tabSet none o.upHold (u % 2) none } s3
  let p := port s4 u
  setPort u { p with
    recorded := false, ident := 0, ldMap := 0, pendingIdent := 0, pendingLdMap := 0, idDiffers := false
    retrain := none, session := if role = 1 then p.session + 1 else p.session } s4

/-- Logical port u gets the role its record in force names, and trains again where it may (R228 to R230). -/
def giveRole (u : Nat) (s : State) : State :=
  let g := portRec s
  let sh := portShape g u
  let s1 := setPort u { port s u with role := BitVec.ofNat 2 sh.2.1, invalid := !portRecOk g (u / 2) } s
  if sh.2.1 = 0 then
    let x := queueXp s1 (u / 2)
    let s2 := triggerGone 1 u (condGone 0 1 (source 1 u) (setPort u { port s1 u with isDown := false } s1))
    if (output s2 x).st = .held && !anyHalfDown s2 x && loomUp s2 x then resumeOutput x s2 else s2
  else portRelease u s1

/-- CONFIG_INVALID of every port whose record in force breaks R229. -/
def portsInvalid (s : State) : State :=
  (List.range 48).foldl (fun s p =>
    if portRecOk (portRec s) p then s else raise 0 0x40 (source 1 (2 * p)) (BitVec.ofNat 64 p) s) s

/-! ## Domains at an activation (17 R419) -/

/-- The POWER record of domain d in force, if the plan carries one. -/
def powerRec (s : State) (d : Nat) : Option (BitVec 128) :=
  (s.plan.active.power.find? fun p => decide (fnat p.2 0 16 = d) && decide (fnat p.2 32 32 ≠ 0)).map (·.2)

/-- A domain's limits from its POWER record, its group's defaults without one. -/
def powerDomain (d : Nat) (s : State) : State :=
  let v := domain s d
  match powerRec s d with
  | none => setDomain d { v with lowest := none, auto := true, idleUs := none } s
  | some r => setDomain d { v with lowest := some (BitVec.ofNat 2 (fnat r 16 8)), auto := decide (fnat r 24 8 % 2 = 1),
                                   idleUs := some (BitVec.ofNat 24 (fnat r 32 32)) } s

/-! ## Activation (R48, R49, R57) -/

/-- The TRAFFIC table that comes into force: the armed image's section over the table as accepted sets have left it; a
delta without one keeps that table (08 R202, R40). -/
def trafficThen (s : State) : Tab (BitVec 512) :=
  if s.plan.armedFull then s.plan.shadow.traffic else resultTab s.plan.loadBytes 8 s.plan.active.traffic

/-- Traffic sets due at the boundary are discarded, and the levels brought up to the frame before it under the old
records (08 R203). -/
def trafBefore (bd : Nat) (s : State) : State :=
  let hit := s.traffic.sets.filterMap fun p => p.2.bind fun q => if q.2.toNat = bd then some p.1 else none
  let s1 := hit.foldl (fun s i =>
      raise 9 0x10 (if i < 8192 then source 3 i else source 0 0) (BitVec.ofNat 64 i)
        { s with traffic := { s.traffic with sets := tabSet none s.traffic.sets i none } }) s
  let s2 := (dueSets s1).foldl (fun s t => refillTo (t / frameTicks) (applySets t (refillTo (t / frameTicks - 1) s))) s1
  refillTo (bd / frameTicks - 1) s2

/-- Page blocks that become free: used by the plan in force, not by the shadow (R49). -/
def freedBlocks (s : State) : List Nat :=
  let new := usedBlocks s.plan.shadow
  (usedBlocks s.plan.base).filter fun b => !new.contains b

/-- Migrations of pages in freed blocks end (03 R88). -/
def endMigrations (s : State) : State :=
  let gone := freedBlocks s
  (List.range 16).foldl (fun s k =>
    if (migSlot s k).st ≠ .idle ∧ gone.contains ((migSlot s k).page.toNat / 512) then freeMig k s else s) s

/-- The table banks change places: the shadow becomes active with the bindings' contexts as they move (R48). -/
def swapTables (moves : List (Nat × BindMove)) (s : State) : State :=
  let sh := s.plan.shadow
  let binding := moves.foldl (fun t m => tabSet 0 t m.1 m.2.ctx) ([] : Tab (BitVec 512))
  let power := if (sectOf s.plan.loadBytes 10).isSome || s.plan.armedFull then sh.power else s.plan.active.power
  let d := s.plan.armedDigest
  { s with
    sealu := { s.sealu with planChain := chainOf s s.plan.armedFull d }
    plan := { s.plan with
      active := { sh with binding := binding, power := power, traffic := trafficThen s }, base := { sh with binding := binding }
      planId := s.plan.armedId, generation := s.plan.armedGeneration, stableDefault := s.plan.armedStable
      fabricId := s.plan.armedFabric, digest := d, hasPlan := true, activeImage := s.plan.loadBytes
      persistDue := s.plan.persist, loadActivated := true
      chain := [], work := .idle, weaveDue := none, altWeave := [], altWeaveOn := false, restoreWant := none
      pageSaved := [], unforeseen := 0 }
    prot := { s.prot with badEntries := [] } }

/-- The trigger queue after an activation: what was stamped at or after the boundary, and the conditions still present
(R57). -/
def requeue (s : State) : State :=
  let late := s.plan.trigQ
  let more := s.plan.present.filter fun t => !late.any fun q => decide (q.cls = t.cls) && decide (q.index = t.index)
  heddleNext { s with plan := { s.plan with trigQ := late ++ more } }

/-- The ACTIVATED record (19 Table 19-8). -/
def activatedAppend (s : State) (late : Bool) (bd commit : BitVec 64) : Append :=
  mkAppend s 13 0 s.sealu.planChain
    (wBytes 4 s.plan.generation ++ leBytes 1 (nb late) ++ zeros 3 ++ wBytes 8 bd ++ wBytes 8 commit)

/-- The armed plan activates at its boundary (R48, R49, R57). -/
def activatePlan (s0 : State) : State :=
  let bd := s0.plan.boundary
  let oldRec := portRec s0
  let newRec := fun p => tabGet 0 s0.plan.shadow.port p
  let us := (List.range 96).filter fun u => decide (portShape oldRec u ≠ portShape newRec u)
  let flip := (List.range 96).filter fun u =>
    decide (portShape oldRec u = portShape newRec u) && decide ((portShape newRec u).2.1 ≠ 0)
    && decide (linkFields oldRec u ≠ linkFields newRec u)
  let down := us.filter fun u => decide ((portShape oldRec u).2.1 ≠ 0)
  let sOld := handleOld bd.toNat s0.plan.trigQ.length s0
  let s1 := down.foldl (fun s u => takeDown u s) (endMigrations (trafBefore bd.toNat sOld))
  let moves := (movedBindings s1).map fun b => (b, bindMove s1 b)
  let s2 := fencesDone (newEpoch (tablesFresh (swapTables moves s1)))
  let s3 := refillTo (bd.toNat / frameTicks) (moves.foldl (fun s m => moveBinding m.1 m.2 s) s2)
  let s4 := down.foldl (fun s u => detachFor (queueXp s0 (u / 2)) (source 1 u) s) s3
  let s5 := flip.foldl (fun s u => retrainPort u none s) (us.foldl (fun s u => giveRole u s) (portsInvalid s4))
  let s6 := (List.range 220).foldl (fun s d => powerDomain d s) s5
  let chain := if s0.plan.armedFull then [s0.plan.loadBytes] else s0.boot.chainNow ++ [s0.plan.loadBytes]
  let s7 := { s6 with
    tele := { s6.tele with frozen := true }
    boot := { s6.boot with chainNow := chain, stage := if s6.boot.stage = 5 then 6 else s6.boot.stage } }
  let s8 := requeue (unblock (dropLoad s7))
  let s9 := beginAppend (activatedAppend s8 s0.plan.armedLate bd s0.plan.commitStamp) s8
  queueEvent 5 (BitVec.ofNat 128 (s9.plan.generation.toNat + bd.toNat * 2 ^ 64)) s9

/-! ## Reading tables (R503) -/

/-- Bytes of a PAGE record: its header, then the 512 entries of the block as the device holds them. -/
def pageBlock (s : State) (b : Nat) : List Byte :=
  leBytes 2 b ++ zeros 62 ++ ((List.range 512).map fun j => wBytes 32 (pageEntry s (b * 512 + j))).flatten

/-- A page block that the plan in force uses (R36) or that an image of it carries (R503). -/
def blockHeld (s : State) (b : Nat) : Bool :=
  blockInUse s b || s.boot.chainNow.any fun img => (carriedBlocks img).contains b

/-- Record i of a section type as currently in force; none for an unknown type. -/
def heddleRecord (s : State) (type i : Nat) : Option (List Byte) :=
  let t := s.plan.active
  match type with
  | 1 => some (wBytes 16 (tabGet 0 t.route i))
  | 2 => some (wBytes 32 (tabGet 0 t.window i))
  | 3 => some (wBytes 64 (tabGet 0 t.binding i))
  | 4 => some (wBytes 16 (tabGet 0 t.extent i))
  | 5 => some (if blockHeld s i then pageBlock s i else zeros 16448)
  | 6 => some (wBytes 128 (tabGet 0 (weaveNow s) i))
  | 7 => some (wBytes 32 (altSet s i).desc)
  | 8 => some (wBytes 64 (traf s i))
  | 9 => some (wBytes 32 (tabGet 0 t.protection i))
  | 10 => some (wBytes 16 (tabGet 0 t.power i))
  | 11 => some (wBytes 64 (tabGet 0 t.buffer i))
  | 12 => some (wBytes 32 (tabGet 0 t.port i))
  | _ => none

/-- Record limit of a section type: Table 2-3's, or set_count. -/
def heddleLimit (s : State) (type : Nat) : Nat := if type = 7 then setCount s else recMax type

/-! ## Persisting (20 R479, R480) -/

/-- Bytes a chain takes in a half of the plan area: the directory, then each image from a 4 KiB boundary. -/
def chainBytes (imgs : List (List Byte)) : Nat :=
  imgs.foldl (fun n i => n + (i.length + 4095) / 4096 * 4096) 4096

/-- Bytes of one half of the plan area. -/
def halfBytes (s : State) : Nat := (s.boot.flash.flashMib.toNat - 32) * 2 ^ 20 / 2

/-- The chain in force is written to the half the current chain does not use, or does not fit: BOOT-0x0010. -/
def persistChain (s : State) : State :=
  let imgs := s.boot.chainNow
  let s1 := { s with plan := { s.plan with persistDue := false } }
  if 16 < imgs.length ∨ halfBytes s < chainBytes imgs then raiseFree 19 0x10 (source 0 0) s1
  else
    let h := if s.boot.flash.planHalf = 0 then 1 else 0
    { s1 with boot := { s1.boot with flash := { s1.boot.flash with
        planHalf := BitVec.ofNat 1 h
        plan := tabSet none s1.boot.flash.plan h
          (some { generation := s.plan.generation, planId := s.plan.planId
                  images := imgs.map fun i => (i, Config.sha384 i) }) } } }

end Sys2Proof.Machine
end

