-- ==== Sys2Proof/Machine/Coding.lean ====
section
/-! DEFINITION. The line coding of a Weft link: the field of the Reed-Solomon code, its codewords, the scrambler, blocks,
the alignment flit and the lanes (Weft Links: Coding, scrambling and FEC). -/

namespace Sys2Proof.Machine

open Sys2Proof

/-! ## The field of 1,024 elements (IEEE 802.3 clause 119; log entry 135) -/

/-- An element times x, modulo x^10 + x^3 + 1. -/
def gfDouble (a : Nat) : Nat := if 512 ≤ a then (2 * a) ^^^ 0x409 else 2 * a

/-- Product of two elements. -/
def gfMul (a b : Nat) : Nat :=
  ((List.range 10).foldl (fun p i => (if b.testBit i then p.1 ^^^ p.2 else p.1, gfDouble p.2)) (0, a)).1

/-- An element to the power n, below 1,024. -/
def gfPow (a n : Nat) : Nat :=
  ((List.range 10).foldl (fun p i => (if n.testBit i then gfMul p.1 p.2 else p.1, gfMul p.2 p.2)) (1, a)).1

/-- Inverse of an element; 0 for 0. -/
def gfInv (a : Nat) : Nat := gfPow a 1022

/-- The primitive element x to the power n. -/
def gfAlpha (n : Nat) : Nat := gfPow 2 (n % 1023)

/-! ## Polynomials over the field, lowest coefficient first -/

/-- Sum of two polynomials. -/
def polyAdd : List Nat → List Nat → List Nat
  | [], q => q
  | p, [] => p
  | a :: p, b :: q => (a ^^^ b) :: polyAdd p q

/-- A polynomial times an element. -/
def polyScale (c : Nat) (p : List Nat) : List Nat := p.map (gfMul c)

/-- Product of two polynomials. -/
def polyMul (p q : List Nat) : List Nat := p.foldr (fun a r => polyAdd (polyScale a q) (0 :: r)) []

/-- Value of a polynomial. -/
def polyEval (p : List Nat) (x : Nat) : Nat := p.foldr (fun a r => a ^^^ gfMul r x) 0

/-- Formal derivative of a polynomial. -/
def polyDeriv (p : List Nat) : List Nat := (p.drop 1).mapIdx fun i a => if i % 2 = 0 then a else 0

/-! ## RS(544,514) (R253) -/

/-- Generator polynomial: the roots are the first 30 powers of the primitive element. -/
def rsGen : List Nat := (List.range 30).foldl (fun g i => polyMul g [gfAlpha i, 1]) [1]

/-- The 30 parity symbols of a message, symbol 514 first. -/
def rsParity (msg : List Nat) : List Nat :=
  let g := (rsGen.take 30).reverse
  msg.foldl
    (fun r m => List.zipWith (· ^^^ ·) (r.drop 1 ++ [0]) (g.map (gfMul (m ^^^ r.headD 0)))) (List.replicate 30 0)

/-- The 30 syndromes of a received codeword, symbol 0 the highest coefficient. -/
def rsSyndromes (cw : List Nat) : List Nat :=
  (List.range 30).map fun j => cw.foldl (fun r x => gfMul r (gfAlpha j) ^^^ x) 0

/-- What the search for the error locator holds: locator, its last version before a change of length, its length, the
steps since that version, and its discrepancy. -/
structure Locator where
  c : List Nat
  b : List Nat
  l : Nat
  m : Nat
  d : Nat

/-- One step of the search for the error locator (Berlekamp-Massey). -/
def locStep (syn : List Nat) (q : Locator) (n : Nat) : Locator :=
  let d := (List.range (q.l + 1)).foldl (fun r i => r ^^^ gfMul (q.c.getD i 0) (syn.getD (n - i) 0)) 0
  if d = 0 then { q with m := q.m + 1 }
  else
    let c := polyAdd q.c (List.replicate q.m 0 ++ polyScale (gfMul d (gfInv q.d)) q.b)
    if 2 * q.l ≤ n then { c := c, b := q.c, l := n + 1 - q.l, m := 1, d := d } else { q with c := c, m := q.m + 1 }

/-- A received codeword with at most 15 symbols corrected, and how many; none where it cannot be corrected (R253). -/
def rsCorrect (cw : List Nat) : Option (List Nat × Nat) :=
  let syn := rsSyndromes cw
  if syn.all (· = 0) then some (cw, 0)
  else
    let q := (List.range 30).foldl (locStep syn) { c := [1], b := [1], l := 0, m := 1, d := 1 }
    let value := (polyMul syn q.c).take 30
    let deriv := polyDeriv q.c
    let out := cw.mapIdx fun i x =>
      let at_ := gfAlpha (543 - i)
      let inv := gfInv at_
      if polyEval q.c inv = 0 then
        x ^^^ gfMul at_ (gfMul (polyEval value inv) (gfInv (polyEval deriv inv)))
      else x
    let k := ((cw.zip out).filter fun p => p.1 ≠ p.2).length
    if q.l ≤ 15 ∧ k ≤ 15 ∧ (rsSyndromes out).all (· = 0) then some (out, k) else none

/-- Number that a list of 10-bit symbols spells, bit 0 first. -/
def symNat (l : List Nat) : Nat := l.foldr (fun x r => x % 1024 + 1024 * r) 0

/-- The k symbols that a number spells. -/
def natSyms (k n : Nat) : List Nat := (List.range k).map fun i => n >>> (10 * i) % 1024

/-- Codeword of 5,140 message bits; its parity is 0 where nothing is corrected (R253, R256). -/
def codeword (fec : Bool) (bits : Nat) : List Nat :=
  let m := natSyms 514 bits
  m ++ (if fec then rsParity m else List.replicate 30 0)

/-! ## Lanes (R253) -/

/-- The symbols of a codeword pair on its four logical lanes, in the order sent. -/
def pairLanes (a b : List Nat) : List (List (BitVec 10)) :=
  (List.range 4).map fun k => ((List.range 136).map fun i =>
    [BitVec.ofNat 10 (a.getD (4 * i + k) 0), BitVec.ofNat 10 (b.getD (4 * i + k) 0)]).flatten

/-- One codeword of a pair as its four logical lanes bring it: A where `which` is 0, B where it is 1. -/
def laneCodeword (which : Nat) (lanes : List (List (BitVec 10))) : List Nat :=
  (List.range 544).map fun s => ((lanes.getD (s % 4) []).getD (2 * (s / 4) + which) 0).toNat

/-- The lanes' symbols of the pair that 10,280 message bits fill. -/
def pairOut (fec : Bool) (bits : Nat) : List (List (BitVec 10)) :=
  pairLanes (codeword fec (bits % 2 ^ 5140)) (codeword fec (bits / 2 ^ 5140 % 2 ^ 5140))

/-- What a receiver makes of a pair: message bits, symbols corrected and codewords not corrected (R253, R256). -/
def pairIn (fec : Bool) (lanes : List (List (BitVec 10))) : Nat × Nat × Nat :=
  let one := fun (cw : List Nat) =>
    if fec then
      match rsCorrect cw with
      | some (c, k) => (symNat (c.take 514), k, 0)
      | none => (symNat (cw.take 514), 0, 1)
    else (symNat (cw.take 514), 0, 0)
  let a := one (laneCodeword 0 lanes)
  let b := one (laneCodeword 1 lanes)
  (a.1 + b.1 * 2 ^ 5140, a.2.1 + b.2.1, a.2.2 + b.2.2)

/-! ## The alignment flit (R255, Table 11-1) -/

/-- Symbol m of the alignment flit on logical lane k, in the period with this count. -/
def alignSym (k m : Nat) (period : BitVec 10) : BitVec 10 :=
  if m < 32 then 0x3E0#10 else if m < 62 then 0x01F#10
  else if m = 62 then BitVec.ofNat 10 (0x150 + k) else if m = 63 then ~~~ BitVec.ofNat 10 (0x150 + k)
  else if m = 64 then period else ~~~ period

/-- The 2,640 message bits of the alignment flit: symbols 0 to 263 of codeword A. -/
def alignBits (period : BitVec 10) : Nat :=
  symNat ((List.range 264).map fun s => (alignSym (s % 4) (s / 4) period).toNat)

/-- Whether the alternate symbols of a lane from here on are the alignment flit of logical lane k, up to symbol 63. -/
def alignHere (inv : Bool) (k : Nat) (sym : List (BitVec 10)) : Bool :=
  (List.range 64).all fun m =>
    let x := sym.getD (2 * m) 0
    decide (2 * m < sym.length) && decide ((if inv then ~~~ x else x) = alignSym k m 0)

/-- Where a lane's alignment flit begins among its symbols, with the lane's number and whether it is inverted
(R255). -/
def findAlign (sym : List (BitVec 10)) : Option (Nat × Nat × Bool) :=
  (List.range sym.length).findSome? fun o =>
    (List.range 8).findSome? fun c =>
      if alignHere (decide (4 ≤ c)) (c % 4) (sym.drop o) then some (o, c % 4, decide (4 ≤ c)) else none

/-! ## Blocks and the scrambler (R251, R252, R257) -/

/-- One payload through the scrambler, or back through it: each bit with those 39 and 58 places earlier on the line; the
register holds the line's last 58 bits, the latest at bit 0. -/
def scramble (back : Bool) (reg : BitVec 58) (w : BitVec 64) : BitVec 64 × BitVec 58 :=
  (List.range 64).foldl
    (fun p i =>
      let x := w.getLsbD i
      let y := x ^^ p.2.getLsbD 38 ^^ p.2.getLsbD 57
      (p.1 ||| ((BitVec.ofBool y).setWidth 64 <<< i),
       (p.2 <<< 1) ||| (BitVec.ofBool (if back then x else y)).setWidth 58))
    (0, reg)

/-- The 2,640 bits of a flit's 40 blocks: block 0 a control block, the others data blocks (R251, R257). -/
def codeFlit (reg : BitVec 58) (bytes : List Byte) : Nat × BitVec 58 :=
  (List.range 40).foldl
    (fun p i =>
      let r := scramble false p.2 (BitVec.ofNat 64 (leAt bytes (8 * i) 8))
      (p.1 + ((if i = 0 then 2 else 1) + 4 * r.1.toNat) <<< (66 * i), r.2))
    (0, reg)

/-- The 40 sync headers of a flit position. -/
def syncHeaders (bits : Nat) : List Nat := (List.range 40).map fun i => bits >>> (66 * i) % 4

/-- Whether sync headers have the pattern of a flit: a control block, then data blocks (R257). -/
def flitPattern (l : List Nat) : Bool := decide (l = 2 :: List.replicate 39 1)

/-- The 320 bytes of a received flit (R251, R257). -/
def uncodeFlit (reg : BitVec 58) (bits : Nat) : List Byte × BitVec 58 :=
  (List.range 40).foldl
    (fun p i =>
      let r := scramble true p.2 (BitVec.ofNat 64 (bits >>> (66 * i + 2)))
      (p.1 ++ wBytes 8 r.1, r.2))
    ([], reg)

/-- Codeword pairs of an alignment period (R254). -/
def periodPairs : Nat := 16 * 66

/-- Flit positions of an alignment period (R254). -/
def periodFlits : Nat := 16 * 257

end Sys2Proof.Machine
end

