-- ==== Sys2Proof/Machine/EgressOps.lean ====
section
/-! DEFINITION. What leaves an output: egress tags, and the LD-ID or PIDs that a route gives (01 R18, R19; 03 R74, R75). -/

namespace Sys2Proof.Machine

open Sys2Proof

/-- The tag an egress port assigns: the lowest of its tag map that is free (R19 names no order; DESIGN CHOICE, log entry
120). -/
def lowestTag (ts : Tab (Option TagUse)) : Nat → Nat → Nat
  | 0, k => k
  | n + 1, k => if (tabGet none ts k).isNone then k else lowestTag ts n (k + 1)

/-- A message leaves through the transmitter of output x: counted and traced (R346, R352). -/
def egressNote (x : Nat) (m : Msg) (s : State) : State := countOut x m (trace m m.counted x true s)

/-- LD-ID of a message that leaves on a CXL port: the route's for one that a LOCAL_LD route directs, the vPPB's for one that
the virtual switch does (R74, 10 R241). -/
def outLd (s : State) (m : Msg) : Option (BitVec 4) :=
  match outFeid m with
  | some f => if rtKind (route s f) = 1 then some (BitVec.ofNat 4 (rtLd (route s f))) else none
  | none => m.ld

/-- Destination and source PID of a message that leaves on a PBR link: FEID[11:0] of each (R74, R75). -/
def outPids (s : State) (m : Msg) : Option (BitVec 12 × BitVec 12) :=
  match outFeid m with
  | some f =>
    if rtKind (route s f) = 3 then
      some (BitVec.ofNat 12 f, match m.req with | .fabric _ g => g.setWidth 12 | _ => Config.ownPid)
    else none
  | none => none

end Sys2Proof.Machine
end

