-- ==== Sys2Proof/Machine/FlitOps.lean ====
section
/-! DEFINITION. The bytes of Weft flits, and the coding of a link's transmitter and receiver (Weft Links: Coding, scrambling
and FEC; Flits). -/

namespace Sys2Proof.Machine

open Sys2Proof

/-! ## Bytes (Tables 11-2 to 11-5, 11-7) -/

/-- mkind of a MGMT message (Table 11-5). -/
def mkindOf (o : Op) : Nat :=
  match o with
  | .apply => 1 | .restore => 2 | .timeInfo => 0x10 | .mctp => 0x20 | _ => 0xFF

/-- MGMT message of an mkind (Table 11-5). -/
def opOfMkind (k : Nat) : Op :=
  match k with
  | 1 => .apply | 2 => .restore | 0x10 => .timeInfo | 0x20 => .mctp | _ => .mgmtOther

/-- Number of a colour in the message header (Table 11-4). -/
def wcolour (c : Colour) : Nat :=
  match c with
  | .green => 0 | .yellow => 1 | .red => 2

/-- The Weft message header of message m of k slots (Table 11-4). -/
def msgHeader (m : Msg) (k : Nat) : BitVec 128 :=
  let mgmt := decide (m.mclass = 0)
  let asks := decide (m.mclass = 1 ∨ m.mclass = 3 ∨ m.mclass = 5 ∨ m.mclass = 6 ∨ m.mclass = 7)
  BitVec.ofNat 128 ((if asks then m.feid.toNat else 0) + (if mgmt then 0 else m.tag.toNat) * 2 ^ 16
    + m.mclass.toNat * 2 ^ 32 + m.sclass.toNat * 2 ^ 35 + wcolour m.colour * 2 ^ 38 + m.hops.toNat % 8 * 2 ^ 40
    + nb m.poison * 2 ^ 43 + k % 512 * 2 ^ 44 + (if mgmt then mkindOf m.op else 0) * 2 ^ 56
    + (if m.op = .apply ∨ m.op = .restore then m.tag.toNat % 256 else 0) * 2 ^ 64)

/-- The message a start slot's header describes; what its further bytes say stands in `given` (R260; log entry 136). -/
def msgOfHeader (w : BitVec 128) (given : Msg) : Msg :=
  let mgmt := decide (fnat w 32 3 = 0)
  { given with
    op := if mgmt then opOfMkind (fnat w 56 8) else given.op
    feid := fld w 0 16, tag := if mgmt then (fld w 64 8).setWidth 16 else fld w 16 16, mclass := fld w 32 3
    sclass := fld w 35 3, colour := if fnat w 38 2 = 0 then .green else if fnat w 38 2 = 1 then .yellow else .red
    hops := (fld w 40 3).setWidth 4, poison := bit w 43 }

/-- Bytes [16 (i − 1), 16 i) of a message as it stands behind its header: TIME_INFO's are its data, any other's as the
device stores it (R90; log entry 7). -/
def msgPart (m : Msg) (i : Nat) : BitVec 128 :=
  if m.op = .timeInfo then fld m.data (128 * (i - 1)) 128 else Config.storedBytes m i

/-- Channel of a slot. -/
def slotVc (x : WSlot) : Nat :=
  match x with
  | .empty => 0 | .start v _ _ => v.toNat | .cont v _ => v.toNat

/-- The 16 bytes of a slot. -/
def slotData (x : WSlot) : BitVec 128 :=
  match x with
  | .empty => 0 | .start _ m k => msgHeader m k | .cont _ b => b

/-- A bit for each of the 18 slots. -/
def slotBits (f : WSlot → Bool) (l : List WSlot) : Nat :=
  ((List.range 18).filter fun i => f (l.getD i .empty)).foldl (fun r i => r + 2 ^ i) 0

/-- Header of a flit (Table 11-2). -/
def flitHeader (btype : Nat) (seq ack : BitVec 12) (ackV nak replay : Bool) (slots : List WSlot) : BitVec 128 :=
  BitVec.ofNat 128 (btype + seq.toNat * 2 ^ 8 + ack.toNat * 2 ^ 20 + nb ackV * 2 ^ 32 + nb nak * 2 ^ 33
    + nb replay * 2 ^ 34 + slotBits (fun x => decide (x ≠ .empty)) slots * 2 ^ 35
    + slotBits (fun x => match x with | .start .. => true | _ => false) slots * 2 ^ 53
    + (List.range 18).foldl (fun r i => r + slotVc (slots.getD i .empty) * 2 ^ (71 + 3 * i)) 0)

/-- Sideband type and data (Table 11-3). -/
def sideWord (b : Sideband) : Nat :=
  match b with
  | .none => 0
  | .snap v g o => 1 + (v.toNat + g.toNat * 2 ^ 3 + o.toNat * 2 ^ 35) * 2 ^ 4
  | .time t id => 2 + (t.toNat + id.toNat * 2 ^ 48) * 2 ^ 4
  | .echo t id => 3 + (t.toNat + id.toNat * 2 ^ 48) * 2 ^ 4

/-- A credit return's 16 bits (Table 11-3). -/
def creditBits (c : Option (BitVec 3 × BitVec 13)) : Nat :=
  match c with
  | none => 0
  | some (v, k) => v.toNat + k.toNat * 2 ^ 3

/-- Trailer of a flit without its CRC (Table 11-3). -/
def flitTrailer (c0 c1 : Option (BitVec 3 × BitVec 13)) (b : Sideband) : BitVec 96 :=
  BitVec.ofNat 96 (creditBits c0 + creditBits c1 * 2 ^ 16 + nb c0.isSome * 2 ^ 32 + nb c1.isSome * 2 ^ 33
    + sideWord b * 2 ^ 36)

/-- A flit's 320 bytes from its header, its 288 bytes of slots and its trailer; the CRC covers bytes 0 to 315 (R257,
R259). -/
def flitBytes (hdr : BitVec 128) (slots : List Byte) (tr : BitVec 96) : List Byte :=
  let b := wBytes 16 hdr ++ slots ++ wBytes 12 tr
  b ++ wBytes 4 (crc32 b)

/-- The bytes of a SEQ or NOP flit (R258, R259). -/
def wflitBytes (f : WFlit) : List Byte :=
  flitBytes (flitHeader (if f.seq.isSome then 0x4B else 0x55) (f.seq.getD 0) f.ack f.ackV f.nak f.replay f.slots)
    (((List.range 18).map fun i => wBytes 16 (slotData (f.slots.getD i .empty))).flatten)
    (flitTrailer f.cr0 f.cr1 f.side)

/-- The bytes of a TRAIN flit (R258, R274, Table 11-7). -/
def trainBytes (p : WeftPeer) (seen : Bool) (ack : BitVec 12) (ackV : Bool) : List Byte :=
  flitBytes (flitHeader 0x2D 0 ack ackV false false [])
    (wBytes 8 p.serial ++ wBytes 4 p.session ++ leBytes 1 p.link.toNat ++ leBytes 1 p.vcCount.toNat ++ leBytes 1 (nb p.fec)
      ++ leBytes 1 (nb seen) ++ leBytes 2 p.rxNext.toNat ++ leBytes 1 (nb p.rxValid) ++ zeros 5
      ++ ((List.range 8).map fun v => wBytes 4 (tabGet 0 p.vcSlots v)).flatten
      ++ ((List.range 8).map fun v => wBytes 4 (tabGet 0 p.freed v)).flatten ++ zeros 200) 0

/-! ## Reading a flit -/

/-- The slots that a header and the slot bytes describe, the messages in order behind their headers. -/
def readSlots (hdr : BitVec 128) (bytes : List Byte) : Nat → Nat → List Msg → List WSlot × List Msg
  | 0, _, ms => ([], ms)
  | k + 1, i, ms =>
    let v := fld hdr (71 + 3 * i) 3
    let w := BitVec.ofNat 128 (leAt bytes (16 + 16 * i) 16)
    if bit hdr (35 + i) = false then
      let r := readSlots hdr bytes k (i + 1) ms
      (.empty :: r.1, r.2)
    else if bit hdr (53 + i) then
      match ms with
      | [] => let r := readSlots hdr bytes k (i + 1) []; (.empty :: r.1, r.2)
      | m :: rest =>
        let r := readSlots hdr bytes k (i + 1) rest
        (.start v (msgOfHeader w m) (fnat w 44 9) :: r.1, r.2)
    else
      let r := readSlots hdr bytes k (i + 1) ms
      (.cont v w :: r.1, r.2)

/-- Sideband of a trailer (Table 11-3); a reserved type is none. -/
def readSide (tr : BitVec 128) : Sideband :=
  match fnat tr 36 4 with
  | 1 => .snap (fld tr 40 3) (fld tr 43 32) (fld tr 75 17)
  | 2 => .time (fld tr 40 48) (fld tr 88 8)
  | 3 => .echo (fld tr 40 48) (fld tr 88 8)
  | _ => .none

/-- What a receiver finds in a flit's 320 bytes, with the messages its start slots begin; a flit of a sync pattern that
does not fit, of a failing CRC or of an invalid btype fails (R257 to R259, R274). -/
def readFlit (pattern : Bool) (bytes : List Byte) (ms : List Msg) : WeftRx × List Msg :=
  let hdr := BitVec.ofNat 128 (leAt bytes 0 16)
  let tr := BitVec.ofNat 128 (leAt bytes 304 16)
  if pattern = false ∨ (crc32 (bytes.take 316)).toNat ≠ leAt bytes 316 4 then (.bad, ms)
  else
    match fnat hdr 0 8 with
    | 0x2D =>
      let b := bytes.drop 16
      let words := fun (o : Nat) => (List.range 8).foldl (fun t v => tabSet 0 t v (BitVec.ofNat 32 (leAt b (o + 4 * v) 4))) []
      (.train { serial := BitVec.ofNat 64 (leAt b 0 8), session := BitVec.ofNat 32 (leAt b 8 4),
                link := BitVec.ofNat 3 (leAt b 12 1), vcCount := BitVec.ofNat 4 (leAt b 13 1),
                fec := decide (leAt b 14 1 = 1), rxNext := BitVec.ofNat 12 (leAt b 16 2),
                rxValid := decide (leAt b 18 1 = 1), vcSlots := words 0x18, freed := words 0x38 }
        (decide (leAt b 15 1 = 1)), ms)
    | 0x4B | 0x55 =>
      let seq := decide (fnat hdr 0 8 = 0x4B)
      let r := readSlots hdr bytes 18 0 ms
      (.flit { seq := if seq then some (fld hdr 8 12) else none, ack := fld hdr 20 12, ackV := bit hdr 32, nak := bit hdr 33,
               replay := bit hdr 34, slots := r.1, badStart := decide (fld hdr 53 18 &&& ~~~ fld hdr 35 18 ≠ 0),
               cr0 := if bit tr 32 then some (fld tr 0 3, fld tr 3 13) else none
               cr1 := if bit tr 33 then some (fld tr 16 3, fld tr 19 13) else none
               side := readSide tr }, r.2)
    | _ => (.bad, ms)

/-! ## The transmitter (R250 to R256) -/

/-- Message bits of one flit position. -/
def flitBits : Nat := 2640

/-- Message bits enter the codeword pairs. -/
def txBits (bits : Nat) (t : WeftTx) : WeftTx := { t with acc := t.acc + bits <<< t.len, len := t.len + flitBits }

/-- The alignment flit is inserted where a period begins (R254, R255). -/
def txAlign (t : WeftTx) : WeftTx :=
  if t.pos = 0 then { txBits (alignBits t.period) t with pos := 1, period := t.period + 1 } else t

/-- A flit enters the stream: blocks, scrambler, and its place in the alignment period. -/
def txFlit (bytes : List Byte) (t : WeftTx) : WeftTx :=
  let t1 := txAlign t
  let r := codeFlit t1.scr bytes
  { txBits r.1 t1 with scr := r.2, pos := (t1.pos + 1) % periodFlits }

/-- The full codeword pair leaves, if there is one; two flit positions fill no second one. -/
def txPair (fec : Bool) (t : WeftTx) : Option (List (List (BitVec 10))) × WeftTx :=
  if 10280 ≤ t.len then (some (pairOut fec (t.acc % 2 ^ 10280)), { t with acc := t.acc >>> 10280, len := t.len - 10280 })
  else (none, t)

/-- Correction is on: while the link is not UP, or as the two ends asked for it (R256; log entry 135). -/
def fecNow (w : Weft) : Bool := (decide (w.st ≠ .up) && decide (w.st ≠ .relock)) || w.fecOn

/-- The bytes of a flit go through link n's transmit path; a codeword pair that fills leaves on the four lanes. -/
def sendBytes (n : Nat) (bytes : List Byte) (s : State) : State :=
  let w := weft s n
  let r := txPair (fecNow w) (txFlit bytes w.tx)
  let s1 := setWeft n { w with tx := r.2 } s
  match r.1 with
  | some lanes => emit (.weftPair (BitVec.ofNat 3 n) lanes) s1
  | none => s1

/-! ## The receiver (R250 to R256) -/

/-- Symbols of skew between lanes that the receiver tolerates: 25.6 ns, two codeword pairs (R250, R253). -/
def skewLimit : Nat := 2 * 272

/-- Whether four logical lanes are all there. -/
def allLanes (l : List (Nat × Nat × Bool)) : Bool := (List.range 4).all fun k => l.any fun f => f.2.1 = k

/-- The receiver looks for the alignment flit on every lane: found on four lanes of different numbers within the skew, it
locks and each lane begins with it (R255). -/
def rxLock (c : WeftRecv) : WeftRecv :=
  let found := c.sym.filterMap findAlign
  let first := (found.map fun f => f.1).foldl min (found.headD (0, 0, false)).1
  let last := (found.map fun f => f.1).foldl max 0
  if found.length ≠ 4 then c
  else if allLanes found && decide (last - first ≤ skewLimit) then
    { c with locked := true, order := found.map fun f => (BitVec.ofNat 2 f.2.1, f.2.2),
             sym := (c.sym.zip found).map fun p => p.1.drop p.2.1, acc := 0, len := 0, pos := 0, pair := 0
             missed := 0 }
  else { c with sym := c.sym.map fun l => l.drop (first + 1) }

/-- Symbols of logical lane k, its polarity undone. -/
def logicalLane (c : WeftRecv) (k : Nat) : List (BitVec 10) :=
  match (c.order.zip c.sym).find? fun p => p.1.1.toNat = k with
  | some p => if p.1.2 then p.2.map (~~~ ·) else p.2
  | none => []

/-- The alignment flit of a period that begins is looked for on every lane (R255, R278). -/
def noteAlign (c : WeftRecv) : WeftRecv :=
  if c.pair ≠ 0 then c
  else
    let seen := (c.order.zip c.sym).all fun p => alignHere p.1.2 p.1.1.toNat p.2
    { c with missed := if seen then 0 else c.missed + 1 }

/-- A codeword pair is taken where every lane has one: with the symbols corrected and the codewords not corrected. -/
def rxPair (fec : Bool) (c : WeftRecv) : Option ((Nat × Nat) × WeftRecv) :=
  if c.locked ∧ c.sym.all fun l => 272 ≤ l.length then
    let r := pairIn fec ((List.range 4).map fun k => (logicalLane c k).take 272)
    let c := { noteAlign c with pair := (c.pair + 1) % periodPairs }
    some (r.2, { c with sym := c.sym.map fun l => l.drop 272, acc := c.acc + r.1 <<< c.len, len := c.len + 10280 })
  else none

/-- Every whole pair is taken, at most `k`. -/
def rxPairs (fec : Bool) : Nat → WeftRecv → (Nat × Nat) × WeftRecv
  | 0, c => ((0, 0), c)
  | k + 1, c =>
    match rxPair fec c with
    | none => ((0, 0), c)
    | some (a, c1) =>
      let r := rxPairs fec k c1
      ((a.1 + r.1.1, a.2 + r.1.2), r.2)

/-- Blocks are received: those with an invalid sync header are kept while they are among the last 1,024 (R251, R278). -/
def noteBlocks (heads : List Nat) (c : WeftRecv) : WeftRecv :=
  let n := c.blocks + heads.length
  let bad := ((List.range heads.length).filter fun i => heads.getD i 1 = 0 ∨ heads.getD i 1 = 3).map (c.blocks + ·)
  { c with blocks := n, invalid := (c.invalid ++ bad).filter fun b => n < b + 1025 }

/-- A symptom of the receiver: alignment-flit lock lost on a lane in 2 consecutive periods, or more than 16 invalid sync
headers in 1,024 consecutive blocks (R278). -/
def recvSymptom (c : WeftRecv) : Bool := decide (2 ≤ c.missed) || decide (16 < c.invalid.length)

/-- The flits of the positions received whole, at most `k`: the alignment flit of a period is passed over without the
descrambler (R252, R254). -/
def rxFlits : Nat → WeftRecv → List (List Byte × Bool) × WeftRecv
  | 0, c => ([], c)
  | k + 1, c =>
    if c.len < flitBits then ([], c)
    else
      let c1 := { c with acc := c.acc >>> flitBits, len := c.len - flitBits, pos := (c.pos + 1) % periodFlits }
      if c.pos = 0 then rxFlits k c1
      else
        let bits := c.acc % 2 ^ flitBits
        let u := uncodeFlit c.scr bits
        let r := rxFlits k (noteBlocks (syncHeaders bits) { c1 with scr := u.2 })
        ((u.1, flitPattern (syncHeaders bits)) :: r.1, r.2)

/-- Symbols arrive on the link's four lanes: the corrections, the codewords not corrected, and the flits they complete. -/
def rxSymbols (fec : Bool) (sym : List (List (BitVec 10))) (c : WeftRecv) :
    ((Nat × Nat) × List (List Byte × Bool)) × WeftRecv :=
  let c0 := { c with sym := (List.range 4).map fun k => c.sym.getD k [] ++ sym.getD k [] }
  let c1 := if c0.locked then c0 else rxLock c0
  let k := (c1.sym.map List.length).foldl max 0
  let a := rxPairs fec (k / 272) c1
  let b := rxFlits (a.2.len / flitBits) a.2
  ((a.1, b.1), b.2)

/-- The received flits, read in order, with the messages their start slots begin. -/
def readFlits : List (List Byte × Bool) → List Msg → List WeftRx
  | [], _ => []
  | f :: fs, ms =>
    let r := readFlit f.2 f.1 ms
    r.1 :: readFlits fs r.2

/-- The polarity found on each of link n's lanes is reported in its status (R250, 12 lane.status). -/
def notePolarity (n : Nat) (order : List (BitVec 2 × Bool)) (s : State) : State :=
  ((weftLanes n).zip order).foldl (fun s p => setLane p.1 { lane s p.1 with rxInv := p.2.2 } s) s

end Sys2Proof.Machine
end

