-- ==== Sys2Proof/Machine/WeftOps.lean ====
section
/-! DEFINITION. Shared operations of the Weft links: registers, the receive window, credits, packing a flit, going down
and the end of PARAM (Weft Links). -/

namespace Sys2Proof.Machine

open Sys2Proof

/-! ## Registers (11, Registers) -/

/-- Number of a link state (Table 11-6). -/
def weftStNum (st : WeftSt) : Nat :=
  match st with
  | .off => 0 | .detect => 1 | .equalize => 2 | .align => 3 | .param => 4 | .up => 5 | .relock => 6
/-- Number of a down cause. -/
def weftCauseNum (c : WeftCause) : Nat :=
  match c with
  | .lock => 0 | .replay => 1 | .partner => 2 | .protocol => 3 | .command => 4 | .reset => 5
/-- Number of an outcome (Table 11-8). -/
def weftOutNum (o : WeftOutcome) : Nat :=
  match o with
  | .none => 0 | .resume => 1 | .fresh => 2 | .new => 3
/-- weft.status. -/
def weftStatusWord (w : Weft) : BitVec 64 :=
  BitVec.ofNat 64 (weftStNum w.st + nb w.held * 8 + nb w.idDiffers * 16 + nb w.fecOn * 32 + w.vcCount.toNat * 64
    + weftCauseNum w.downCause * 2 ^ 10 + weftOutNum w.outcome * 2 ^ 13 + w.since.toNat * 2 ^ 16)
/-- weft.peer. -/
def weftPeerWord (w : Weft) : BitVec 64 := BitVec.ofNat 64 (w.peerLink.toNat + w.peerSession.toNat * 2 ^ 32)
/-- weft.seq. -/
def weftSeqWord (w : Weft) : BitVec 64 :=
  BitVec.ofNat 64 (w.txNext.toNat + w.acked.toNat * 2 ^ 12 + w.rxNext.toNat * 2 ^ 24 + w.replay.length % 2048 * 2 ^ 36)
/-- Virtual channel v. -/
def weftVc (w : Weft) (v : Nat) : WeftVc := tabGet WeftVc.init w.vcs v
/-- The link with virtual channel v replaced. -/
def setVc (v : Nat) (c : WeftVc) (w : Weft) : Weft := { w with vcs := tabSet WeftVc.init w.vcs v c }
/-- Slots that may be sent on a channel: vc_slots − (C − R) (R269). -/
def vcAvail (c : WeftVc) : Nat := c.limit.toNat - (c.sent - c.reported).toNat
/-- weft.credit. -/
def weftCreditWord (c : WeftVc) : BitVec 64 :=
  BitVec.ofNat 64 (vcAvail c % 2 ^ 17 + c.limit.toNat * 2 ^ 17 + c.occupancy.toNat * 2 ^ 34)

/-! ## Small updates -/

/-- Counter k of link n grows by d (Table 11-9). -/
def weftCnt (n k d : Nat) (s : State) : State :=
  let w := weft s n
  setWeft n { w with cnt := tabSet 0 w.cnt k (tabGet 0 w.cnt k + BitVec.ofNat 64 d) } s

/-- Link n enters a state, stamped. -/
def setWeftSt (n : Nat) (st : WeftSt) (s : State) : State :=
  setWeft n { weft s n with st := st, since := stamp s, stateAt := s.tele.time } s

/-- The tag timers of link n turn from start times into times already counted as it leaves UP, and back as it returns
(R281). -/
def weftClock (n : Nat) (s : State) : State :=
  let w := weft s n
  setWeft n { w with tags := tabMap none (fun _ t => t.map fun v => { v with since := s.tele.time - v.since }) w.tags } s

/-- One message that cannot cross link n is resolved: a request in error, a non-posted CXL.io request with Unsupported
Request, any other discarded and counted (R261). -/
def weftResolve (n : Nat) (m : Msg) (s : State) : State :=
  if isRequest m.op then failRequest m s
  else if m.op = .ioNonPosted then sendTo (completionMsg m .ioCompletion .noOp 0 true) true (ioGone m s)
  else weftCnt n 10 1 s

/-! ## Down (R278, R279) -/

/-- Link n is declared down with a cause (R279): output HELD, LINK_DOWN, WEFT_DOWN indexed, and training begun again
with everything sent and received kept. A protocol error advances the session and raises PROTOCOL (R276, R278). -/
def weftDown (n : Nat) (c : WeftCause) (s : State) : State :=
  let w := weft s n
  let s0 := if w.st = .up then weftClock n s else s
  let w0 := weft s0 n
  let next : WeftSt := if w.disabled || w.isolated then .off else if c = .reset then .detect else .equalize
  let s1 := setWeft n { w0 with
      st := next, held := true, downCause := c, since := stamp s, stateAt := s.tele.time, relockAt := none, round := none,
      stuckRounds := 0, stuckSince := none, timerAt := none, nakDue := false, nakSent := none, goodTrains := 0,
      seenSent := 0, seenGot := 0, sawSeen := false, peer := none, rxValid := true, recv := WeftRecv.init, timeDue := false, echoDue := none,
      session := if c = .protocol then w0.session + 1 else w0.session } s0
  let s2 := if c = .protocol then countErr (48 + n) (raiseFree 1 0x10 (source 2 n) s1) else s1
  let s3 := if next = .off then lanesTo .off 0 (weftLanes n) s2 else equalise 7 (weftLanes n) s2
  trigger 0 n (raiseCond 1 1 (source 2 n) (BitVec.ofNat 64 (weftCauseNum c)) (holdOutput (48 + n) s3))

/-- A symptom on a link that is UP: the link enters RELOCK, the 40 µs run, and the receiver looks for lock anew (R278). -/
def weftSymptom (n : Nat) (s : State) : State :=
  if (weft s n).st = .up then
    let s1 := weftCnt n 6 1 (setWeftSt n .relock (weftClock n s))
    setWeft n { weft s1 n with relockAt := some s1.tele.time, recv := WeftRecv.init } s1
  else s

/-- The messages that link n has sent and the partner may not have are resolved (R277): requests with a tag in error,
every other message in the replay buffer discarded and counted. -/
def weftLost (n : Nat) (s : State) : State :=
  let w := weft s n
  let ts := w.tags.filterMap fun t => t.2.map fun v => v.msg
  let asked := ts.filter fun m => isRequest m.op || decide (m.op = .ioNonPosted)
  let k := (asked.filter fun m => isRequest m.op).length
  let others := ((w.replay.map fun f => f.slots).flatten.filter fun x => match x with
    | .start _ m _ => !needsTag m
    | _ => false).length + (ts.length - asked.length)
  let s1 := setWeft n { w with tags := [], replay := [], round := none } s
  let s2 := weftCnt n 10 others (asked.foldl (fun s m => weftResolve n m s) s1)
  if k = 0 then s2 else raise 1 0x11 (source 2 n) (BitVec.ofNat 64 k) (weftCnt n 9 k s2)

/-- A channel as FRESH starts it: C, R and G at 0, and no partial message (Table 11-8). -/
def freshVc (c : WeftVc) : WeftVc :=
  { c with sent := 0, reported := 0, freed := 0, part := none, out := none, owed := false, snapDue := false
           occupancy := match c.part with
             | some p => c.occupancy - BitVec.ofNat 17 p.2.2
             | none => c.occupancy }

/-- Sequence numbers and credit counters start afresh (Table 11-8). -/
def weftFresh (n : Nat) (s : State) : State :=
  let w := weft s n
  setWeft n { w with txNext := 0, acked := 0, rxNext := 0, accepted := false,
                     vcs := tabMap WeftVc.init (fun _ c => freshVc c) w.vcs } s

/-! ## The end of PARAM (R275, R276, R280) -/

/-- The output of a link that is UP enters RESUMING once the replay buffer it kept has been sent again (R280). -/
def resumeWeft (n : Nat) (s : State) : State :=
  let w := weft s n
  if w.st = .up ∧ w.round = none ∧ (output s (48 + n)).st = .held ∧ loomUp s (48 + n) then resumeOutput (48 + n) s else s

/-- The link reaches UP: negotiated values in force, the partner recorded, the condition gone, the output RESUMING. -/
def weftUp (n : Nat) (p : WeftPeer) (o : WeftOutcome) (s : State) : State :=
  let w := weft s n
  let k := min w.cfgVc.toNat p.vcCount.toNat
  let lim := fun (v : Nat) => if v < k then BitVec.ofNat 17 (tabGet 0 p.vcSlots v).toNat else 0#17
  let vcs := (List.range 8).foldl
    (fun t v => tabSet WeftVc.init t v { tabGet WeftVc.init t v with limit := lim v }) w.vcs
  let s1 := setWeft n { w with
      st := .up, since := stamp s, stateAt := s.tele.time, held := false, idDiffers := false, outcome := o,
      fecOn := w.cfgFec || p.fec, vcCount := BitVec.ofNat 4 k, recorded := true, ident := p.serial, peerLink := p.link,
      peerSession := p.session, peerSlots := p.vcSlots, sessionAtUp := w.session, vcs := vcs, snapAt := s.tele.time,
      round := if w.replay = [] then none else some 0, roundAck := none,
      timerAt := if w.replay = [] then none else some s.tele.time,
      stuckSince := if w.replay = [] then none else some s.tele.time } s
  let s2 := triggerGone 0 n (condGone 1 1 (source 2 n) (weftClock n s1))
  let s3 := lanesTo .l0 7 (weftLanes n) s2
  resumeWeft n s3

/-- Identity of R121: serial and link equal those recorded. -/
def weftSame (w : Weft) (p : WeftPeer) : Bool :=
  w.recorded && decide (p.serial = w.ident) && decide (p.link = w.peerLink)

/-- The conditions of RESUME beside the identity (Table 11-8). -/
def weftResumes (w : Weft) (p : WeftPeer) : Bool :=
  weftSame w p && decide (p.session = w.peerSession) && decide (w.session = w.sessionAtUp) && w.rxValid && p.rxValid
  && decide (min w.cfgVc.toNat p.vcCount.toNat = w.vcCount.toNat) && decide (p.vcSlots = w.peerSlots)

/-- Replay entries that an acknowledgement up to `upTo` leaves, in a window of 1,024 (R267). -/
def replayAfter (upTo : BitVec 12) (l : List SentFlit) : List SentFlit :=
  l.filter fun f => !decide ((upTo - f.seq).toNat < 1024)

/-- PARAM ends with its outcome (Table 11-8, R280): RESUME keeps what was sent and received; FRESH resolves it; NEW also
purges what is held and detaches bindings, and stays in PARAM. -/
def weftParamEnd (n : Nat) (s : State) : State :=
  let w := weft s n
  match w.peer with
  | none => s
  | some p =>
    if weftResumes w p then
      let vcs := (List.range 8).foldl
        (fun t v => tabSet WeftVc.init t v { tabGet WeftVc.init t v with reported := tabGet 0 p.freed v }) w.vcs
      weftUp n p .resume (setWeft n { w with replay := replayAfter (p.rxNext - 1) w.replay, acked := p.rxNext - 1,
                                             vcs := vcs } s)
    else
      let s1 := weftFresh n (weftLost n s)
      if weftSame w p ∨ w.recorded = false then weftUp n p .fresh s1
      else
        let s2 := raiseFree 1 0x12 (source 2 n) s1
        let s3 := setWeft n { weft s2 n with idDiffers := true, outcome := .new } s2
        detachFor (48 + n) (source 2 n) (purge (fun _ => true) (48 + n) s3)

/-- The end may enter UP (R275). -/
def paramDone (w : Weft) : Bool :=
  decide (w.st = .param) && !w.idDiffers && w.peer.isSome && decide (8 ≤ w.goodTrains) && decide (8 ≤ w.seenGot)
  && decide (16 ≤ w.seenSent)

/-! ## Acknowledgements, NAKs and credits (R266 to R272) -/

/-- A replay round of link n starts from the oldest unacknowledged flit (R268). -/
def replayRound (n : Nat) (ack : Option (BitVec 12)) (s : State) : State :=
  let w := weft s n
  if w.replay = [] then s
  else weftCnt n 4 1 (setWeft n { w with round := some 0, roundAck := ack, stuckRounds := w.stuckRounds + 1,
                                         timerAt := some s.tele.time } s)

/-- An acknowledgement is applied: the replay entries it covers are freed; one outside the window is ignored (R267). -/
def ackIn (n : Nat) (ack : BitVec 12) (s : State) : State :=
  let w := weft s n
  if w.replay.any fun f => decide (f.seq = ack) then
    let l := replayAfter ack w.replay
    let k := w.replay.length - l.length
    let t := if l = [] then none else some s.tele.time
    setWeft n { w with
      replay := l, acked := ack, stuckRounds := 0, stuckSince := t, timerAt := t
      round := match w.round with
        | none => none
        | some i => if l = [] then none else some (i - k) } s
  else s

/-- A NAK is applied: one that repeats the running round's is ignored (R268). -/
def nakIn (n : Nat) (ack : BitVec 12) (s : State) : State :=
  let w := weft s n
  if w.round.isSome ∧ w.roundAck = some ack then s else replayRound n (some ack) s

/-- A NAK is requested, unless one has gone out since the last accepted flit and replay_timeout has not passed
(R266). -/
def nakWanted (n : Nat) (s : State) : State :=
  let w := weft s n
  let again := match w.nakSent with
    | none => true
    | some t => decide (t.toNat + w.replayTimeout.toNat * usTicks ≤ now s)
  if again then setWeft n { w with nakDue := true } s else s

/-- A credit return is applied: (count − R[12:0]) mod 8,192 is added to R (R270). -/
def creditIn (n : Nat) (c : Option (BitVec 3 × BitVec 13)) (s : State) : State :=
  match c with
  | none => s
  | some (v, k) =>
    let w := weft s n
    let q := weftVc w v.toNat
    setWeft n (setVc v.toNat { q with reported := q.reported + (k - q.reported.setWidth 13).setWidth 32 } w) s

/-! ## Time sources (14 R334) -/

/-- Ticks of one second. -/
def secTicks : Nat := 8000000000

/-- Candidate source c is valid: LOCAL always; TSYNC_IN within 1.1 s of a good pulse; a Weft link that is UP, with a recent
ECHO and a TIME_INFO of a locked chain of at most 14 steps that does not end at this device. -/
def sourceValid (s : State) (c : Nat) : Bool :=
  if c = 1 then true
  else if c = 2 then
    match s.tele.tsyncAt with
    | some a => decide (now s ≤ a.toNat + 11 * (secTicks / 10))
    | none => false
  else if 16 ≤ c ∧ c < 24 then
    let w := weft s (c - 16)
    decide (w.st = .up)
      && (match tabGet none s.tele.echoAt (c - 16) with
          | some a => decide (now s ≤ a.toNat + 4 * w.tsyncUs.toNat * usTicks)
          | none => false)
      && (match w.timeInfo with
          | some d => decide (fnat d 152 8 = 2 ∨ fnat d 152 8 = 4) && decide (fnat d 144 8 ≤ 14)
              && decide (fld d 64 64 ≠ s.boot.serial)
          | none => false)
  else false

/-- Candidates in priority order. -/
def candidates (s : State) : List Nat := (List.range 4).map fun i => (tabGet 0 s.tele.sources i).toNat

/-- The highest-priority valid candidate; 0 where there is none. -/
def bestSource (s : State) : Nat := ((candidates s).find? fun c => sourceValid s c).getD 0

/-- A valid candidate stands above the source in use. -/
def better (s : State) : Bool :=
  (((candidates s).takeWhile fun c => decide (c ≠ s.tele.source.toNat)).any fun c => sourceValid s c)

/-- Something that may make a candidate valid comes: since when a better candidate has stayed valid is kept (R334). -/
def noteBetter (f : State → State) (s : State) : State :=
  let s0 := if better s then s else { s with tele := { s.tele with betterSince := none } }
  let s1 := f s0
  if better s1 ∧ s1.tele.betterSince = none then { s1 with tele := { s1.tele with betterSince := some s1.tele.time } } else s1

/-- What a received sideband does (R271, R272). A TIME or ECHO gives the halves of the offset of R272. -/
def sidebandIn (n : Nat) (b : Sideband) (s : State) : State :=
  let w := weft s n
  match b with
  | .none => s
  | .snap v g _ =>
    let q := weftVc w v.toNat
    let s1 := setWeft n (setVc v.toNat { q with reported := g } w) s
    if q.reported = g then s1 else weftCnt n 8 1 s1
  | .time t id =>
    let back := (stamp s - t).toInt
    setWeft n { w with echoDue := some (id, stamp s), back := if w.forward.isSome then some back else w.back } s
  | .echo t id =>
    match tabGet none w.t1 id.toNat with
    | none => s
    | some t1 =>
      noteBetter (fun s => { s with tele := { s.tele with echoAt := tabSet none s.tele.echoAt n (some s.tele.time) } })
        (setWeft n { w with forward := some (t - t1).toInt } s)

/-- Whether a flit's sideband is a protocol error: C − G beyond the channel's vc_slots (R271). -/
def sidebandBad (w : Weft) (b : Sideband) : Bool :=
  match b with
  | .snap v g _ => decide ((weftVc w v.toNat).limit.toNat < ((weftVc w v.toNat).sent - g).toNat)
  | _ => false

/-! ## Receiving messages (R260, R264) -/

/-- A response that link n brought: the tag map names what it answers; a free tag's response is discarded and counted
(R19, R281). -/
def weftResponse (n : Nat) (m : Msg) (s : State) : State :=
  let w := weft s n
  let xp := 48 + n
  match tabGet none w.tags m.tag.toNat with
  | none => freeSlots n m.mclass.toNat (weftSlots m) (weftCnt n 10 1 s)
  | some t =>
    let s1 := setWeft n { w with tags := tabSet none w.tags m.tag.toNat none } s
    if isRequest t.msg.op then
      completeWith xp t.msg { completionMsg t.msg m.op m.mv m.data m.poison with len := m.len, devLoad := m.devLoad } false
        (countLat xp t.msg s1)
    else
      enqueue (xpOfReq s t.msg.req)
        { t.msg with op := m.op, mclass := m.mclass, data := m.data, poison := m.poison, len := m.len,
                     inXp := BitVec.ofNat 6 xp } (ioGone t.msg s1)

/-- A message that link n brought whole. MGMT messages are consumed by kind; responses return through the tag map;
anything else routes by its FEID (R260, R264, 03 R61). -/
def weftMessage (n : Nat) (m : Msg) (s : State) : State :=
  let xp := 48 + n
  let s := countIn xp m s
  match m.op with
  | .apply | .restore =>
    freeSlots n 0 1 (setWeft n { weft s n with heard := (weft s n).heard ++ [m] } s)
  | .timeInfo =>
    freeSlots n 0 3 (noteBetter (fun s => setWeft n { weft s n with timeInfo := some (m.data.setWidth 256) } s) s)
  | .mctp => freeSlots n 0 (weftSlots m) s
  | .mgmtOther => freeSlots n 0 (weftSlots m) (weftCnt n 10 1 s)
  | .memData | .cmp | .cmpS | .cmpE | .biConflictAck | .birspI | .birspS | .birspE | .ioCompletion | .cacheRsp =>
    weftResponse n m s
  | _ =>
    let q := { m with req := .fabric (BitVec.ofNat 6 xp) 0, inXp := BitVec.ofNat 6 xp, counted := false, phase := none,
                      proxy := false, born := s.tele.time }
    match exitXp s m.feid.toNat m.dev.toNat false with
    | some y => enqueue y q (trace q false y false s)
    | none =>
      let s1 := freeSlots n m.mclass.toNat (weftSlots m) (decodeMiss (source 2 n) 6 m.dev.toNat s)
      if isRequest m.op then errorCompletion q s1 else weftCnt n 10 1 s1

/-- A slot is a protocol error as it stands: a channel not enabled, a length out of range, a message that would not fit
its buffer, or a part without its start (R269, R278; log entry 36). -/
def slotBad (w : Weft) (x : WSlot) : Bool :=
  match x with
  | .empty => false
  | .start v m k =>
    decide (w.vcCount.toNat ≤ v.toNat) || decide (k = 0 ∨ 258 < k) || decide (k ≠ weftSlots m) || decide (m.mclass ≠ v)
    || (weftVc w v.toNat).part.isSome
    || decide ((tabGet 0 w.cfgSlots v.toNat).toNat < (weftVc w v.toNat).occupancy.toNat + k)
  | .cont v _ => decide (w.vcCount.toNat ≤ v.toNat) || (weftVc w v.toNat).part.isNone

/-- One slot of an accepted flit; true where it is a protocol error. -/
def slotIn (n : Nat) (x : WSlot) (s : State) : Bool × State :=
  let w := weft s n
  if slotBad w x then (true, s)
  else
    match x with
    | .empty => (false, s)
    | .start v m k =>
      let q := weftVc w v.toNat
      let q1 := { q with occupancy := q.occupancy + 1, part := if k = 1 then none else some (m, k, 1) }
      let s1 := setWeft n (setVc v.toNat q1 w) s
      (false, if k = 1 then weftMessage n m s1 else s1)
    | .cont v _ =>
      let q := weftVc w v.toNat
      match q.part with
      | none => (true, s)
      | some (m, k, i) =>
        let q1 := { q with occupancy := q.occupancy + 1, part := if i + 1 = k then none else some (m, k, i + 1) }
        let s1 := setWeft n (setVc v.toNat q1 w) s
        (false, if i + 1 = k then weftMessage n m s1 else s1)

/-- The slots of an accepted flit, in order, up to a protocol error. -/
def slotsIn (n : Nat) : List WSlot → State → Bool × State
  | [], s => (false, s)
  | x :: xs, s =>
    let r := slotIn n x s
    if r.1 then r else slotsIn n xs r.2

/-- A flit's header holds a protocol error that needs no sequence: a start bit outside the valid slots, a channel that
is not enabled, or a length out of range (R278). -/
def headerBad (w : Weft) (f : WFlit) : Bool :=
  f.badStart || f.slots.any fun x => match x with
    | .empty => false
    | .start v _ k => decide (w.vcCount.toNat ≤ v.toNat) || decide (k = 0 ∨ 258 < k)
    | .cont v _ => decide (w.vcCount.toNat ≤ v.toNat)

/-- A SEQ or NOP flit that passes CRC on a link that is UP (R266 to R272). -/
def flitIn (n : Nat) (f : WFlit) (s : State) : State :=
  if headerBad (weft s n) f || sidebandBad (weft s n) f.side then weftDown n .protocol s
  else
    let s1 := if f.ackV then resumeWeft n (ackIn n f.ack s) else s
    let s2 := if f.nak then nakIn n f.ack s1 else s1
    let s3 := sidebandIn n f.side (creditIn n f.cr1 (creditIn n f.cr0 s2))
    match f.seq with
    | none => s3
    | some q =>
      let w := weft s3 n
      let behind := (w.rxNext - q).toNat
      if behind = 0 then
        let r := slotsIn n f.slots (setWeft n { w with rxNext := w.rxNext + 1, accepted := true, nakSent := none } s3)
        if r.1 then weftDown n .protocol r.2 else r.2
      else if behind ≤ 1024 then weftCnt n 5 1 s3
      else nakWanted n s3

/-! ## Sending (R257, R260 to R262, R265 to R272) -/

/-- A staged message that link n does not carry: its class has no channel, or it would need a seventh hop (R261,
R262). -/
def unsendable (w : Weft) (m : Msg) : Bool := decide (w.vcCount.toNat ≤ m.mclass.toNat) || decide (6 ≤ m.hops.toNat)

/-- The staged messages that link n does not carry are resolved, with NO_VC or HOP_LIMIT raised. -/
def weftReject (n : Nat) (s : State) : State :=
  let x := 48 + n
  let w := weft s n
  let gone := ((output s x).staging.map fun e => e.2.filter fun m => decide (m.got = m.total) && unsendable w m.msg).flatten
  let o := output s x
  let keep := tabMap [] (fun _ l => l.filter fun m => !(decide (m.got = m.total) && unsendable w m.msg)) o.staging
  gone.foldl (fun s e =>
      raiseFree 1 (if w.vcCount.toNat ≤ e.msg.mclass.toNat then 0x22 else 0x21) (source 2 n)
        (weftResolve n e.msg s))
    (setOutput x { o with staging := keep } s)

/-- Link n can start message m now: its output is not HELD, there is credit for all its slots, and a tag where it takes one
(R269, 05 R120). -/
def weftTakes (s : State) (n : Nat) (m : Msg) : Bool :=
  let w := weft s n
  notHeld s (48 + n) && decide (weftSlots m ≤ vcAvail (weftVc w m.mclass.toNat)) && !unsendable w m && (!needsTag m || tagFree s (48 + n) m)

/-- Message m starts on link n: tagged, one hop more, its slots debited whole (R260, R262, R269). -/
def weftStart (n : Nat) (m : Msg) (s : State) : WSlot × State :=
  let w := weft s n
  let t := lowestTag w.tags w.tags.length 0
  let own := needsTag m
  let k := weftSlots m
  let q := weftVc w m.mclass.toNat
  let sent := { m with tag := if own then BitVec.ofNat 16 t else m.tag, hops := m.hops + 1 }
  let w1 := if own then { w with tags := tabSet none w.tags t (some { msg := m, since := s.tele.time }) } else w
  let q1 := { q with sent := q.sent + BitVec.ofNat 32 k, out := if k = 1 then none else some (sent, k, 1) }
  (.start m.mclass sent k, setWeft n (setVc m.mclass.toNat q1 w1) s)

/-- The next slot of link n: the rest of a message under way, else a notice, else a staged message (R205, R264; log
entry 9). -/
def nextSlotOut (n : Nat) (s : State) : Option (WSlot × State) :=
  let w := weft s n
  match (List.range 8).find? fun v => (weftVc w v).out.isSome with
  | some v =>
    let q := weftVc w v
    match q.out with
    | none => none
    | some (m, k, i) =>
      some (.cont (BitVec.ofNat 3 v) (msgPart m i),
        setWeft n (setVc v { q with out := if i + 1 = k then none else some (m, k, i + 1) } w) s)
  | none =>
    match w.notices with
    | m :: ms =>
      if weftTakes s n m then some (weftStart n m (egressNote (48 + n) m (setWeft n { w with notices := ms } s)))
      else none
    | [] =>
      match pickStaged s (48 + n) (weftTakes s n) with
      | none => none
      | some (sc, mc, e) =>
        let m := delivered e
        some (weftStart n m (egressNote (48 + n) m (takeStaged (48 + n) sc mc e s)))

/-- Up to `k` slots of a new flit. -/
def packSlots (n : Nat) : Nat → State → List WSlot × State
  | 0, s => ([], s)
  | k + 1, s =>
    match nextSlotOut n s with
    | none => ([], s)
    | some (x, s1) =>
      let r := packSlots n k s1
      (x :: r.1, r.2)

/-- Credit return of the next channel, from channel v0 on, that owes one (R270). -/
def nextCredit (w : Weft) (v0 : Nat) : Option (Nat × Weft) :=
  ((List.range 8).map fun i => (v0 + i) % 8).findSome? fun v =>
    if (weftVc w v).owed ∧ v < w.vcCount.toNat then
      some (v, { setVc v { weftVc w v with owed := false } w with crNext := BitVec.ofNat 3 (v + 1) })
    else none

/-- The value a credit return of channel v reports: G[12:0]. -/
def creditOf (w : Weft) (v : Nat) : BitVec 3 × BitVec 13 := (BitVec.ofNat 3 v, (weftVc w v).freed.setWidth 13)

/-- The sideband of the next flit: ECHO before TIME before SNAP (R272). -/
def sidebandOut (w : Weft) (st : BitVec 48) : Sideband × Weft :=
  match w.echoDue with
  | some (id, t) => (.echo t id, { w with echoDue := none })
  | none =>
    if w.timeDue then
      (.time st w.syncId, { w with timeDue := false, syncId := w.syncId + 1, t1 := tabSet none w.t1 w.syncId.toNat (some st) })
    else
      match (List.range 8).find? fun v => (weftVc w v).snapDue with
      | some v =>
        let q := weftVc w v
        (.snap (BitVec.ofNat 3 v) q.freed q.occupancy, setVc v { q with snapDue := false } w)
      | none => (.none, w)

/-- A flit of link n leaves with acknowledgement, NAK, credit returns and sideband, which are built anew at every
transmission (R259, R266, R267). -/
def flitOut (n : Nat) (seq : Option (BitVec 12)) (again : Bool) (slots : List WSlot) (s : State) : State :=
  let w := weft s n
  let c0 := nextCredit w w.crNext.toNat
  let w0 := match c0 with | some p => p.2 | none => w
  let c1 := nextCredit w0 w0.crNext.toNat
  let w1 := match c1 with | some p => p.2 | none => w0
  let b := sidebandOut w1 (stamp s)
  let f : WFlit :=
    { seq := seq, ack := w.rxNext - 1, ackV := w.accepted, nak := w.nakDue, replay := again, slots := slots
      badStart := false, cr0 := c0.map fun p => creditOf w p.1, cr1 := c1.map fun p => creditOf w p.1, side := b.1 }
  let w2 := { b.2 with nakDue := false, nakSent := if w.nakDue then some s.tele.time else w.nakSent }
  let s1 := sendBytes n (wflitBytes f) (setWeft n w2 s)
  emit (.weftFlit (BitVec.ofNat 3 n) f) (if w.nakDue then weftCnt n 3 1 s1 else s1)

/-- The next flit of a link that is UP: the running replay round's, a new SEQ flit while fewer than 1,024 are
unacknowledged and there is something to send, else NOP (R257, R265, R268). -/
def sendUp (n : Nat) (s : State) : State :=
  let w := weft s n
  match w.round, w.round.bind fun i => w.replay[i]? with
  | some i, some f =>
    let s1 := setWeft n { w with round := if i + 1 < w.replay.length then some (i + 1) else none } s
    resumeWeft n (flitOut n (some f.seq) true f.slots s1)
  | _, _ =>
    if 1024 ≤ w.replay.length then flitOut n none false [] s
    else
      let r := packSlots n 18 (weftReject n (setWeft n { w with round := none } s))
      if r.1 = [] then flitOut n none false [] r.2
      else
        let v := weft r.2 n
        let t := if v.replay = [] then some s.tele.time else v.timerAt
        let u := if v.replay = [] then some s.tele.time else v.stuckSince
        flitOut n (some v.txNext) false r.1
          (setWeft n { v with txNext := v.txNext + 1, replay := v.replay ++ [{ seq := v.txNext, slots := r.1 }]
                              timerAt := t, stuckSince := u } r.2)

/-- The TRAIN flit of a link that trains (R274, Table 11-7). -/
def sendTrain (n : Nat) (s : State) : State :=
  let w := weft s n
  let seen := decide (8 ≤ w.goodTrains)
  let p : WeftPeer :=
    { serial := s.boot.serial, session := w.session, link := BitVec.ofNat 3 n, vcCount := w.cfgVc, fec := w.cfgFec,
      rxNext := w.rxNext, rxValid := w.rxValid, vcSlots := w.cfgSlots,
      freed := (List.range 8).foldl (fun t v => tabSet 0 t v (weftVc w v).freed) [] }
  let s1 := if seen then setWeft n { w with seenSent := w.seenSent + 1 } s else s
  emit (.train (BitVec.ofNat 3 n) p seen) (sendBytes n (trainBytes p seen (w.rxNext - 1) w.accepted) s1)

/-! ## Commands (R283) -/

/-- Link n may leave OFF. -/
def weftMayRun (w : Weft) : Bool := !w.disabled && !w.isolated

/-- Link n goes OFF: declared down if it was not, all lanes off (R279, Table 16-3). -/
def weftStop (n : Nat) (c : WeftCause) (s : State) : State :=
  let w := weft s n
  if w.st = .off then s
  else if w.held then lanesTo .off 0 (weftLanes n) (setWeftSt n .off s)
  else setWeftSt n .off (weftDown n c s)

/-- Link n is let train again, from DETECT. -/
def weftRelease (n : Nat) (s : State) : State :=
  if (weft s n).st = .off && weftMayRun (weft s n) && !s.fault.safeStop then setWeftSt n .detect s else s

/-- The reset of pd.weft[n]: declared down with cause RESET, resolved at once, training from DETECT with no receive
state kept (R279). -/
def weftReset (n : Nat) (s : State) : State :=
  let s1 := weftFresh n (weftLost n (if (weft s n).st = .off then s else weftDown n .reset s))
  setWeft n { weft s1 n with rxValid := false, tx := WeftTx.init } s1

end Sys2Proof.Machine
end

