-- ==== Sys2Proof/Machine/SignalOps.lean ====
section
/-! DEFINITION. Shared operations of the lane array above the links: its registers, lost signals and references, bit
tests (Lane Array and Signal Integrity). -/

namespace Sys2Proof.Machine

open Sys2Proof

/-! ## Registers (12, Registers) -/

/-- Number of a lane's power state. -/
def laneStNum (st : LaneSt) : Nat :=
  match st with
  | .l0 => 0 | .l0pIdle => 1 | .l1Pll => 2 | .l1NoPll => 3 | .test => 4 | .off => 5
/-- lane.status. -/
def laneStatusWord (v : Lane) : BitVec 64 :=
  BitVec.ofNat 64 (laneStNum v.st + v.rate.toNat * 8 + nb v.signal * 64 + nb v.rxInv * 128 + nb v.converged * 256
    + v.since.toNat * 2 ^ 16)
/-- lane.adapt. -/
def laneAdaptWord (v : Lane) : BitVec 64 :=
  BitVec.ofNat 64 (v.ctle.toNat + v.h1.toNat * 2 ^ 8 + v.h2.toNat * 2 ^ 16 + v.floatPos.toNat * 2 ^ 24
    + v.limitHits.toNat * 2 ^ 48)
/-- lane.test_ctl. -/
def testCtlWord (v : Lane) : BitVec 64 := BitVec.ofNat 64 (v.mode.toNat + v.pattern.toNat * 8 + nb v.inject * 32)
/-- lane.test_status. -/
def testStatusWord (v : Lane) : BitVec 64 :=
  BitVec.ofNat 64 (nb v.locked + nb v.refLost * 2 + v.lockLost.toNat * 2 ^ 16)
/-- lane.quad. -/
def quadWord (s : State) (q : Nat) : BitVec 64 :=
  let v := quad s q
  BitVec.ofNat 64 (nb v.pllLock + (if q < 96 then nb (bit s.lane.refSel (q / 12)) else 0) * 2 + v.rate.toNat * 4
    + v.unlocks.toNat * 2 ^ 16)
/-- lane.ref_status. -/
def refStatusWord (s : State) : BitVec 64 := BitVec.ofNat 64 (s.lane.present.toNat + s.lane.refSel.toNat * 8)

/-! ## References and signal (R287) -/

/-- The port or link controller of lane l takes a symptom (R235, R278). -/
def laneSymptom (l : Nat) (s : State) : State :=
  if l < 384 then
    let u := portOfLane s l
    let p := port s u
    if (p.st = .up ∨ p.st = .confirm) ∧ p.inL0 ∧ p.symptom = none then
      let s1 := leaveL0 u s
      setPort u { port s1 u with symptom := some (.link, s.tele.time) } s1
    else s
  else
    weftSymptom ((l - 384) / 4) s

/-- Lane l loses signal; a lane that carries data reports it. -/
def signalLost (l : Nat) (s : State) : State :=
  let v := lane s l
  let s1 := setLane l { v with signal := false } s
  if v.st = .l0 then laneSymptom l s1 else s1

/-- Bits compared in one tick, in sixteenths, by rate (Table 12-2). -/
def bitsPerTick (rate : Nat) : Nat :=
  match rate with
  | 0 => 5 | 1 => 10 | 2 => 16 | 3 => 32 | 4 => 64 | 5 => 128 | 6 => 256 | _ => 425

/-- A test's counts brought up to the present: bits by the lane's rate, and among them bit errors, which the line
decides: a free value (R301; log entry 38). -/
def testSync (l : Nat) (s : State) : State :=
  let v := lane s l
  if v.testing && v.locked then
    let n := (s.tele.time - v.countAt).toNat * bitsPerTick v.rate.toNat / 16
    let e := (freeVal 64 s).toNat % (n + 1)
    tookFree (setLane l { v with bits := v.bits + BitVec.ofNat 64 n, errs := v.errs + BitVec.ofNat 64 e,
                                 countAt := s.tele.time } s)
  else s

/-- Quads that run from a reference input: of the looms that select it, or the Weft quads. -/
def quadsOf (s : State) (input : Nat) : List Nat :=
  if input = 2 then (List.range 8).map (96 + ·)
  else (List.range 96).filter fun q => bit s.lane.refSel (q / 12) == decide (input = 1)

/-- A quad that ran from a lost reference loses lock: PLL_UNLOCK, its lanes without signal, a test's counting ended. -/
def quadUnlock (q : Nat) (s : State) : State :=
  let v := quad s q
  if v.pllLock then
    let s1 := raiseFreeCond 2 0x31 (source 10 q)
      (setQuad q { v with pllLock := false, unlocks := satAdd v.unlocks 1 } s)
    (List.range 4).foldl (fun s i =>
      let l := 4 * q + i
      let s0 := testSync l s
      let w := lane s0 l
      if w.st = .off then s0
      else if w.testing then setLane l { w with locked := false, refLost := true, signal := false } s0
      else signalLost l s0) s1
  else s

end Sys2Proof.Machine
end

