-- ==== Sys2Proof/Machine/LossOps.lean ====
section
/-! DEFINITION. Shared operations of a loss: a stack, a loom link, the management core, a domain reset, safe-stop
(Fault Collection and Reaction; Power Domains R417; Management R307; Memory Integrity R372). -/

namespace Sys2Proof.Machine

open Sys2Proof

/-! ## Stacks (15 R372, R373) -/

/-- Cause of hbm.stack_status. -/
def stackCauseReset : BitVec 3 := 5

/-- The reservoir share of a lost stack is lost: every segment's chunks there, RSVR-0x0010 for each output with its
count of messages, and every quota halved (05 R129). -/
def shareLost (k : Nat) (s : State) : State :=
  let r := (tabKeys s.xbar.voqs).foldl (fun (a : Tab Nat × State) v =>
    let q := loseChunks v (fun _ c => c.stackB == decide (k = 1)) a.2
    (tabSet 0 a.1 (voqOut v) (tabGet 0 a.1 (voqOut v) + q.1), q.2)) ([], s)
  let s1 := if r.1 = [] then raise 5 0x10 (source 6 k) 0 r.2
    else r.1.foldl (fun s p => raise 5 0x10 (srcOfXp p.1) (BitVec.ofNat 64 p.2) s) r.2
  { s1 with xbar := { s1.xbar with quotaHalvings := s1.xbar.quotaHalvings + 1 } }

/-- Stack k is declared lost with a cause: its accesses stop, HBM-0x0001 is raised, and the buffer manager, the proxy and
the trace ring are told (R372, R373, 05 R129, 06 R158). -/
def stackLose (k : Nat) (cause : BitVec 3) (s : State) : State :=
  let v := stackOf s k
  if v.st ≠ .up then s
  else
    let s1 := setStack k { v with st := .lost, cause := cause, ues := [] } s
    let s2 := { s1 with xbar := { s1.xbar with stackLost := tabSet false s1.xbar.stackLost k true }
                        tele := traceEnd 0x0B01 s1.tele }
    let s3 := trigger 4 k (countErr (86 + k) (raise 11 1 (source 6 k) (BitVec.ofNat 64 cause.toNat) s2))
    directoryLost k (shareLost k s3)

/-! ## Loom links (04 R113) -/

/-- The link of loom n is declared failed: its outputs are HELD, hold timers start, XBAR-0x0020 is raised and LOOM_LINK
indexed. -/
def loomDown (n : Nat) (s : State) : State :=
  let l := loom s n
  let s2 := setLoom n { l with st := .failed, failures := satAdd l.failures 1, symptomAt := none,
                               lastTry := s.tele.time } s
  let s3 := (loomXps n).foldl (fun s x => holdOutput x s) s2
  let s4 := (loomXps n).foldl (fun s x => if x < 48 then startHolds x s else s) s3
  trigger 2 n (raiseCond 3 0x20 (source 12 n) (BitVec.ofNat 64 n) s4)

/-! ## The management core (13 R307) -/

/-- A busy mailbox is answered HW_FAULT with its request's tag, in place of a response that it has not yet received. -/
def mailboxLost (m : Nat) (s : State) : State :=
  let b := mbx s m
  match b.accepted, b.answer with
  | some (op, tag, _), _ | none, some (op, tag, _) =>
    setMbx m { b with accepted := none, answer := some (op, tag, rep 0x60) } s
  | none, none => s

/-- What firmware had in hand is lost (R307 steps 3 to 5, R310): busy mailboxes answer HW_FAULT, MCTP requests get no
response, tickets and an uncommitted load are dropped, and maker level ends. -/
def coreLost (s : State) : State :=
  let s1 := (List.range 4).foldl (fun s m => mailboxLost m s) s
  let s2 := { s1 with mgmt := { s1.mgmt with
      mctpWait := [], reasm := [], tickets := [], maker := none, tunnels := [] } }
  if s2.plan.shadowState = .loading ∨ s2.plan.shadowState = .validating then dropLoad s2 else s2

/-- A management restart begins, unless firmware is RESTARTING or HALTED (R307). -/
def fwRestart (cause : BitVec 8) (hang : Bool) (s : State) : State :=
  if s.mgmt.fw = .restarting ∨ s.mgmt.fw = .halted then s
  else
    let s1 := coreLost s
    { s1 with mgmt := { s1.mgmt with
        fw := .restarting, restarts := satAdd s1.mgmt.restarts 1, restartCause := cause, hangRestart := hang } }

/-- The core is left HALTED until a cold or a warm reset, its commands lost as in a restart (R307; log entry 44). -/
def fwHalt (s : State) : State :=
  if s.mgmt.fw = .halted then s
  else
    let s1 := coreLost s
    { s1 with mgmt := { s1.mgmt with fw := .halted } }

/-! ## Domain resets (17 R417) -/

/-- Domain d passes through OFF and is restored without retention. -/
def domainOff (d : Nat) (s : State) : State :=
  setDomain d { domain s d with st := .off, step := 1, fromRet := false, misses := 0 } s

/-- A plane's reset: an UP plane is declared lost, one in TEST or STANDBY starts its reset again, and one that failed its check
stays DOWN until a cold reset (04 R112). -/
def planeReset (n : Nat) (s : State) : State :=
  if (plane s n).st = .up then planeDown n .resends s
  else if (plane s n).checkFail then s
  else domainOff (168 + n) (setPlane n { plane s n with st := .test, rejoin := false } s)

/-- The telemetry engines lose their counter values and what was in progress (Table 17-10). -/
def teleLost (s : State) : State :=
  let t := s.tele
  let s1 := match t.window with
    | some w => finishTicket w.ticket (rep 0x60) s
    | none => s
  let s2 := t.heatClears.foldl (fun s h => finishTicket h.1 (rep 0x60) s) s1
  { s2 with tele := { s2.tele with
      sets := tabMap CSet.init (fun _ c => { c with cycles := 0, cycleAt := s.aon, cnt := [], ovf := 0, sample := 0 })
        t.sets
      window := none, dumpWriting := none, hostWriting := none, hostDue := [], heatInc := [], sweeping := false, heatClears := []
      traceOn := false, traceLeft := none, traceGap := 0 } }

/-- The retained tables of a heddle or control domain are reloaded before its release (R411). -/
def tablesLost (d : Nat) (s : State) : State := domainOff d (setDomain d { domain s d with reload := true } s)

/-- A reset of domain d by a level-3 reaction: what it carries is lost first, as Table 17-10 gives for its group. -/
def domainReset (d : Nat) (s : State) : State :=
  if d < 104 then domainOff d (quadUnlock d s)
  else if d < 152 then
    let p := d - 104
    domainOff d ([2 * p, 2 * p + 1].foldl (fun s u => if (port s u).st = .off then s else portDown u .link s) s)
  else if d < 160 then domainOff d (weftReset (d - 152) s)
  else if d < 168 then domainOff d (if (loom s (d - 160)).st = .up then loomDown (d - 160) s else s)
  else if d < 170 then planeReset (d - 168) s
  else if d < 191 then tablesLost d s
  else if d < 215 then engineFail (d - 199) s
  else if d < 217 then domainOff d (stackLose (d - 215) stackCauseReset s)
  else if d = 217 then domainOff d (teleLost s)
  else s

/-! ## Safe-stop (16 R385) -/

/-- Everything held in the buffer and the reservoir is discarded. -/
def dropAll (s : State) : State := (List.range 64).foldl (fun s x => purge (fun _ => true) x s) s

/-- Every CXL port sends Link Disable and every Weft link stops in OFF; the data path stops and what it holds is
discarded; flt.safe_stop records the cause. In safe-stop a second one only counts (R385). -/
def safeStopNow (block code : Nat) (s : State) : State :=
  if s.fault.safeStop then s
  else
    let s0 := abortEntry 1 0xFF s
    let s1 := { s0 with
      fault := { s0.fault with safeStop := true, ssCode := BitVec.ofNat 8 code, ssBlock := BitVec.ofNat 5 block,
                               ssStamp := stamp s }
      pmu := { s0.pmu with st := .safeStop, exiting := false } }
    let s2 := (List.range 96).foldl (fun s u => portStop u s) s1
    let s3 := (List.range 8).foldl (fun s n => weftStop n .command s) s2
    dropAll s3

end Sys2Proof.Machine
end

