-- ==== Sys2Proof/Machine/Reaction.lean ====
section
/-! DEFINITION. The collector's reactions, taken at the end of every command (Fault Collection and Reaction R376, R377,
R385; Power Domains R417), and the outcome of a command. -/

namespace Sys2Proof.Machine

open Sys2Proof

/-- Outcome of a command. -/
abbrev Out := Host.Outcome State Fault Refusal

/-- A source is isolated as Table 16-3 gives; kinds without an isolating action are not (R377). -/
def isolate (src : BitVec 32) (s : State) : State :=
  let i := srcIndex src
  if isolates src then
    match srcKind src with
    | 1 => portStop i (setPort i { port s i with isolated := true } s)
    | 2 => weftStop i .command (setWeft i { weft s i with isolated := true } s)
    | 3 => freezeBinding i false s
    | 4 => freezeInst i false s
    | _ => s
  else s

/-- The exit action of Table 16-3 for a source: as PORT_ENABLE or WEFT_ENABLE, also where another record isolates it too
(log entry 42); none for a binding or an instance (R384). -/
def release1 (src : BitVec 32) (s : State) : State :=
  let i := srcIndex src
  match srcKind src with
  | 1 => portRelease i (setPort i { port s i with isolated := false } s)
  | 2 => weftRelease i (setWeft i { weft s i with isolated := false } s)
  | _ => s

/-- Cause of the FW_RESTARTED event that a level-3 reaction brings: 2 for a memory of the core (15 R369), 0 for the
watchdog's FW_HANG; the spec names no cause for another code (log entry 43). -/
def restartCauseOf (x : Reaction) (s : State) : BitVec 8 :=
  if srcKind x.source = 11 then 2 else if x.block = 13 ∧ x.code = 1 then 0 else freeVal 8 s

/-- The reset a level-3 reaction brings to a domain; the management core's is its restart (R307). -/
def resetFor (x : Reaction) (d : Nat) (s : State) : State :=
  if d = 218 then fwRestart (restartCauseOf x s) false (tookFree s) else domainReset d s

/-- One reaction: a FAULT wake for class F or level 2 and more (17 Table 17-9), the domain's reset at level 3, isolation
from level 2 on, safe-stop at level 4 (R376); or an exit action (R383). -/
def react (x : Reaction) (s : State) : State :=
  if x.exit then release1 x.source s
  else
  let s1 := wakeBy 7 0 s
  let s2 := if 3 ≤ x.level then
      match resetDomain x.source x.detail with
      | some d => resetFor x d s1
      | none => s1
    else s1
  let s3 := if 2 ≤ x.level then isolate x.source s2 else s2
  if x.level = 4 then safeStopNow x.block x.code s3 else s3

/-- Reactions waiting are taken in order, those they bring about after them; at the bound none is left (log
entry 62). -/
def settleN : Nat → State → State
  | 0, s => { s with fault := { s.fault with todo := [] } }
  | n + 1, s =>
    match s.fault.todo with
    | [] => s
    | x :: l => settleN n (react x { s with fault := { s.fault with todo := l } })

/-- Every reaction raised within a command is taken before it ends (R320, R376). -/
def settle (s : State) : State := settleN 4096 s

/-- A command's next state. -/
def fin (s : State) : Out := .next (settle s)

/-- The next state of a command of the data path: nothing while it stands still in safe-stop (R385). -/
def live (s : State) (f : State → Out) : Out := if s.fault.safeStop then fin s else f s

/-- A Nib command's next state. -/
def command (op : Nat) (maker : Bool) (r : Req) (p : List Byte) (body : State → Reply × State) (s : State) : Out :=
  fin (nib op maker r p body s)

end Sys2Proof.Machine
end

