-- ==== Sys2Proof/Machine/Binding.lean ====
section
/-! DEFINITION. Meanings of decode's rows and of the 0x03 Nib family (Bindings, Heddle Tables and Address Decode). -/

namespace Sys2Proof.Machine

open Sys2Proof

/-! ## Decode -/

/-- The request that a host's message becomes as logical upstream port u takes it: the port is its requester, and its entry
into the device begins at its xp (R61). -/
def hostMsg (s : State) (u : BitVec 7) (op : Op) (mv : MetaV) (tag : BitVec 16) (data : BitVec 512) (mask : BitVec 64)
    (poison : Bool) : Msg :=
  { vc0Msg op tag.toNat (opLen op) data with
    mv := mv, mclass := 1, req := .host u, inXp := BitVec.ofNat 6 (queueXp s (u.toNat / 2)), mask := mask
    poison := poison, born := s.tele.time }

/-- HOST_REQUEST_DECODE (R61, R71, R72, R76, R83): a CXL.mem request taken at an upstream port that is UP. -/
def execHostRequestDecode (u : BitVec 7) (op : Op) (mv : MetaV) (hpa : BitVec 64) (tag : BitVec 16)
    (data : BitVec 512) (mask : BitVec 64) (poison : Bool) (ue : DecodeUe) (s : State) : Out := live s fun s =>
  let n := u.toNat
  let p := port s n
  if p.st = .up ∧ p.inL0 ∧ p.role = 1 ∧ isRequest op then
    let m := hostMsg s u op mv tag data mask poison
    fin (hostRequest m n hpa ue (countIn (queueXp s (n / 2)) m s))
  else fin s

/-- A request that waited for its page entry is decoded, from its window on, with the tables as they stand now: none of
its entries is of an earlier plan or set (R69, R71, R79). -/
def redecode (d : Decoding) (ue : DecodeUe) (s : State) : State :=
  let m := d.msg
  match m.req with
  | .host u => hostAccess m u.toNat d.addr ue s
  | _ => outcome m m.binding.toNat d.addr (lineAccess m d.addr ue s)

/-- The page entry of index pi as its fetch ends: it replaces its cache line, or, both copies being uncorrectable, is invalid
from now on with HEDL-0x0022; nothing waits for it any more (R69, R70). -/
def pageArrived (pi : Nat) (first second : Ecc) (s : State) : State :=
  let r := mirrorRead (pi * 32) first second s
  let s1 := { r.2 with plan := { r.2.plan with pageWait := r.2.plan.pageWait.filter fun d => !decide (d.page = pi) } }
  if r.1 then
    raise 6 0x22 (source 0 0) (BitVec.ofNat 64 pi) { s1 with plan := { s1.plan with pageBad := s1.plan.pageBad ++ [pi] } }
  else cachePage pi s1

/-- Requests that waited for a page entry go on in order; `ue` is what the first one's walk meets (R69). -/
def redecodeAll (l : List Decoding) (ue : DecodeUe) (s : State) : State :=
  match l with
  | [] => s
  | d :: ds => ds.foldl (fun s d => redecode d noUe s) (redecode d ue s)

/-- PAGE_ENTRY_FETCH_DONE (R69, R70): the entry replaces its cache line, or is invalid from now on with HEDL-0x0022; the
requests that waited for it go on in order. -/
def execPageEntryFetchDone (page : BitVec 23) (first second : Ecc) (ue : DecodeUe) (s : State) : Out := live s fun s =>
  let pi := page.toNat
  let mine := s.plan.pageWait.filter fun d => decide (d.page = pi)
  if mine.isEmpty then fin s else fin (redecodeAll mine ue (pageArrived pi first second s))

/-! ## Binding states (R77, R78) -/

/-- BINDING_READ (R89). -/
def execBindingRead (r : Req) (binding : BitVec 16) (s : State) : Out :=
  command 0x0301 false r (wBytes 2 binding)
    (fun s =>
      let b := binding.toNat
      let v := brun s b
      let el := match v.holdStart with | some t => (s.tele.time - t).toNat / usTicks | none => 0
      if 8192 ≤ b then (badField 0, s)
      else (ok (wBytes 64 (ctx s b) ++ wBytes 4 v.outstanding ++ leBytes 4 (heldOf s b)
        ++ leBytes 4 (min el (2 ^ 32 - 1)) ++ wBytes 8 v.refused), s)) s

/-- BINDING_ACTIVATE (R77, R78): a STAGED binding is to enter ACTIVE at the next weave-frame boundary. -/
def execBindingActivate (r : Req) (binding : BitVec 16) (s : State) : Out :=
  command 0x0302 false r (wBytes 2 binding)
    (fun s =>
      let b := binding.toNat
      if 8192 ≤ b then (badField 0, s)
      else if planBusy s then (rep 2, s)
      else if bstate s b ≠ 1 then (rep 0x0301, s)
      else
        let t := BitVec.ofNat 64 (nextFrame (now s))
        (ok (wBytes 8 t), setBrun b { brun s b with activateAt := some t } s)) s

/-- Bindings whose activation is due at the earliest boundary, and that boundary. -/
def dueBindings (s : State) : Option (Nat × List Nat) :=
  let ts := s.bind.filterMap fun p => p.2.activateAt.map fun t => (p.1, t.toNat)
  match ts with
  | [] => none
  | p :: ps =>
    let t := ps.foldl (fun m q => min m q.2) p.2
    some (t, (ts.filter fun q => decide (q.2 = t)).map (·.1))

/-- BINDING_ACTIVATION_BOUNDARY (R77, R201): at the boundary the bindings due that are still STAGED enter ACTIVE. -/
def execBindingActivationBoundary (s : State) : Out :=
  match dueBindings s with
  | none => fin s
  | some (t, bs) =>
    fin (bs.foldl (fun s b =>
      let s1 := setBrun b { brun s b with activateAt := none } s
      if bstate s1 b = 1 then activateBinding b s1 else s1) (trafSync (reach t s)))

/-- BINDING_FREEZE (R77, R89). -/
def execBindingFreeze (r : Req) (binding : BitVec 16) (s : State) : Out :=
  command 0x0303 false r (wBytes 2 binding)
    (fun s =>
      let b := binding.toNat
      if 8192 ≤ b then (badField 0, s)
      else if bstate s b = 2 ∨ bstate s b = 3 then (ok, freezeBinding b false s)
      else (rep 0x0301, s)) s

/-- BINDING_THAW (R77, R78). -/
def execBindingThaw (r : Req) (binding : BitVec 16) (s : State) : Out :=
  command 0x0304 false r (wBytes 2 binding)
    (fun s =>
      let b := binding.toNat
      if 8192 ≤ b then (badField 0, s)
      else if planBusy s then (rep 2, s)
      else if bstate s b ≠ 3 then (rep 0x0301, s)
      else (ok, setBstate b 2 s)) s

/-- BINDING_DRAIN (R77, R78, R89). -/
def execBindingDrain (r : Req) (binding : BitVec 16) (flags : BitVec 16) (s : State) : Out :=
  command 0x0305 false r (wBytes 2 binding ++ wBytes 2 flags)
    (fun s =>
      let b := binding.toNat
      if 8192 ≤ b then (badField 0, s)
      else if 2 ≤ flags.toNat then (badField 2, s)
      else if planBusy s then (rep 2, s)
      else if bstate s b < 2 ∨ 5 < bstate s b then (rep 0x0301, s)
      else
        pend 0x0305 r (fun t s =>
          let s1 := setBstate b 5 s
          let s2 := setBrun b { brun s1 b with drainTickets := (brun s1 b).drainTickets ++ [t] } s1
          drainCheck b (if bit flags 0 then forceHeld b s2 else s2)) s) s

/-- A port or link of a target_mask is up with the identity recorded (R89). -/
def targetReady (s : State) (x : Nat) : Bool :=
  if x < 48 then
    let p := queueXp s x
    let us := (List.range 2).filter fun h => halfExists s p h && decide ((port s (2 * p + h)).role ≠ 0)
    !us.isEmpty && us.all fun h => decide ((port s (2 * p + h)).st = .up)
  else decide ((weft s (x - 48)).st = .up) && !(weft s (x - 48)).held && !(weft s (x - 48)).idDiffers

/-- BINDING_REATTACH (R77, R78, R89). -/
def execBindingReattach (r : Req) (binding : BitVec 16) (s : State) : Out :=
  command 0x0306 false r (wBytes 2 binding)
    (fun s =>
      let b := binding.toNat
      if 8192 ≤ b then (badField 0, s)
      else if planBusy s then (rep 2, s)
      else if bstate s b ≠ 4 then (rep 0x0301, s)
      else if ((List.range 56).filter fun x => bit (ctxTargets (ctx s b)) x).all (fun x => targetReady s x) then
        (ok, setBstate b 2 s)
      else (rep 0x0302, s)) s

/-- BINDING_SET_HOLD (R78, R81). -/
def execBindingSetHold (r : Req) (binding : BitVec 16) (limit : BitVec 32) (s : State) : Out :=
  command 0x0307 false r (wBytes 2 binding ++ zeros 2 ++ wBytes 4 limit)
    (fun s =>
      let b := binding.toNat
      if 8192 ≤ b then (badField 0, s)
      else if planBusy s then (rep 2, s)
      else (ok, setCtx b (ctxWithHold (ctx s b) limit) s)) s

/-- HOLD_EXPIRED (R80, R81): the timer of a binding that can hold reaches its limit. One whose limit has already elapsed,
or that stands expired under a binding that was thawed, completes at the next whole microsecond. -/
def execHoldExpired (binding : BitVec 13) (s : State) : Out :=
  let b := binding.toNat
  let v := brun s b
  match v.holdStart with
  | none => fin s
  | some t =>
    let l := ctxHold (ctx s b)
    if canHold s b = false ∨ l = 2 ^ 32 - 1 ∨ (v.expired ∧ bstate s b ≠ 2) then fin s
    else if v.expired ∨ t.toNat + l * usTicks < now s then fin (expireHold b (reach ((now s / usTicks + 1) * usTicks) s))
    else fin (expireHold b (reach (t.toNat + l * usTicks) s))

/-! ## Reading and probing (R89) -/

/-- WINDOW_READ (R89). -/
def execWindowRead (r : Req) (port_ : BitVec 8) (window : BitVec 8) (s : State) : Out :=
  command 0x0308 false r (wBytes 1 port_ ++ wBytes 1 window)
    (fun s =>
      if 95 < port_.toNat ∨ 15 < window.toNat then (rep 0x0303, s)
      else (ok (wBytes 32 (tabGet 0 s.plan.active.window (16 * port_.toNat + window.toNat))), s)) s

/-- A field of a probe: all ones where its step was not reached. -/
def probeField (n : Nat) (v : Option Nat) : List Byte :=
  match v with
  | some x => leBytes n x
  | none => List.replicate n 0xFF

/-- The response of DECODE_PROBE for a walk (R89). -/
def probeBytes (s : State) (w : Walk) : List Byte :=
  let xp := match w.feid, w.dev with
    | some f, some d => exitXp s f d (w.proxy.getD false)
    | _, _ => none
  let res := match w.refused, w.miss with
    | some st, _ => (2, st)
    | none, some c => (1, c)
    | none, none => if w.stall.isNone ∧ xp.isNone then (1, 6) else (0, 0)
  leBytes 1 res.1 ++ leBytes 1 res.2 ++ probeField 2 w.binding ++ probeField 1 xp ++ probeField 1 (w.proxy.map nb)
    ++ probeField 2 w.feid ++ probeField 8 w.dev ++ probeField 4 w.xe ++ probeField 4 w.page

/-- DECODE_PROBE (R89): R71 without the protection, meter and enqueue steps. DESIGN CHOICE (log entry 130): it reads a
page entry as it stands in HBM and neither fills a page-cache line nor meets a memory error. -/
def execDecodeProbe (r : Req) (port_ : BitVec 8) (hpa : BitVec 64) (s : State) : Out :=
  command 0x0309 false r (wBytes 1 port_ ++ zeros 3 ++ wBytes 8 hpa)
    (fun s =>
      if 95 < port_.toNat then (rep 0x0303, s)
      else (ok (probeBytes s (decodeHost s port_.toNat hpa.toNat).1), s)) s

/-- MIGRATION_STATUS (R89). -/
def execMigrationStatus (r : Req) (slot : BitVec 8) (s : State) : Out :=
  command 0x030A false r (wBytes 1 slot)
    (fun s =>
      let g := migSlot s slot.toNat
      let st := match g.st with | .idle => 0 | .copying => 1 | .aborted => 2
      if 16 ≤ slot.toNat then (badField 0, s)
      else (ok (leBytes 1 st ++ wBytes 4 g.page ++ leBytes 4 g.watermark.toNat ++ wBytes 1 g.span
        ++ leBytes 2 g.stall.length), s)) s

end Sys2Proof.Machine
end

