-- ==== Sys2Proof/Machine/Buf.lean ====
section
/-! DEFINITION. Meanings of the rows of the shared cell buffer and its reservoir (Shared Cell Buffer and Reservoir). -/

namespace Sys2Proof.Machine

open Sys2Proof

/-- WAITING_MESSAGE_ADMIT (R118): the first message that waits in an input's receive buffer of a class is admitted once
Table 5-1 lets it be. -/
def execWaitingMessageAdmit (input : BitVec 6) (mclass : BitVec 3) (s : State) : Out := live s fun s =>
  let k := input.toNat * 8 + mclass.toNat
  match tabGet [] s.xbar.rx k with
  | [] => fin s
  | w :: rest =>
    match tryPlace w.outXp.toNat w.msg s with
    | (some s1, _) =>
      fin (countIn 82 w.msg (creditBack w.msg { s1 with xbar := { s1.xbar with rx := tabSet [] s1.xbar.rx k rest } }))
    | (none, s1) => fin s1

/-- RESUME_COMPLETE (R122): an output in RESUMING whose VOQs have drained past their marks returns to UP. -/
def execResumeComplete (xp : BitVec 6) (s : State) : Out :=
  let x := xp.toNat
  if (output s x).st = .resuming ∧ marksDone s x ∧ (output s x).stagedMark = 0 then fin (setOutSt x .up s) else fin s

/-- Message `i` of VOQ k's segment leaves it without being refilled: its cells leave their chunks, and it no longer lies
before the resume mark (R122, R130). -/
def dropRes (k i : Nat) (s : State) : State :=
  let v := voq s k
  match v.res[i]? with
  | none => s
  | some r =>
    let q := keyIx (voqOut k) (voqMc k)
    let flags := (List.range v.res.length).map fun j => decide (j = i)
    let ch := chopChunks v.chunks (((v.res.zip flags).map fun p => List.replicate p.1.cells p.2).flatten)
    let mark := markAfter v.mark ((v.buf.map fun _ => false) ++ flags)
    let s1 := setVoq k { v with res := v.res.eraseIdx i, chunks := ch, mark := mark } s
    let key := bufKey s1 q
    freeChunks q v.chunks ch (setKey q { key with resCells := key.resCells - BitVec.ofNat 28 r.cells } s1)

/-- A cell's payload is uncorrectable on refill: message `i` of the segment, which the cell belongs to, is poisoned, or
discarded where the error lies in the message's header (R107, R130). -/
def refillUe (k i : Nat) (inHeader : Bool) (s : State) : State :=
  let v := voq s k
  match v.res[i]? with
  | none => s
  | some r =>
    let d := voqIn k + voqOut k * 64 + r.msg.binding.toNat * 2 ^ 12 + nb inHeader * 2 ^ 25
    let s1 := raise 4 0x21 (srcOfXp (voqOut k)) (BitVec.ofNat 64 d) s
    if inHeader then voqSettle k (discardMsg r.msg (dropRes k i s1))
    else
      setVoq k { voq s1 k with res := v.res.modify i fun r => { r with msg := { r.msg with poison := true } } } s1

/-- RESERVOIR_REFILL (R127, R128, R130): the head chunk of a segment moves back while the VOQ's buffer segment holds
fewer than 51 cells. `header` and `payload` are the checks of the chunk header and of its cells; `place` says where a cell
that fails lies. -/
def execReservoirRefill (input output_ : BitVec 6) (mclass sclass : BitVec 3) (header payload : Ecc) (place : CellPlace)
    (s : State) : Out := live s fun s =>
  let k := voqIx input.toNat output_.toNat mclass.toNat sclass.toNat
  match (voq s k).chunks with
  | [] => fin s
  | c :: _ =>
    if 51 ≤ segCells (voq s k) then fin s
    else
      let s1 := memRead (8 + nb c.stackB) header s
      if eccBad header then
        let r := loseChunks k (fun j _ => j == 0) s1
        fin (raiseFree 5 0x11 (srcOfXp (voqOut k)) r.2)
      else
        let s2 := memRead (8 + nb c.stackB) payload s1
        let s3 := if eccBad payload then refillUe k place.which.toNat place.inHeader s2 else s2
        let head := ((voq s3 k).chunks.head?.map (·.cells)).getD 0
        fin (refill k (voq s3 k).res.length (min c.cells head) s3)

/-- AUDIT_PASS_START (R131): a pass starts audit_period after the start of the previous one. -/
def execAuditPassStart (s : State) : Out :=
  if s.xbar.auditPhase = .idle then
    fin (startPass (reach (s.xbar.auditStart.toNat + bfAudit (bufRec s 64) * usTicks) s))
  else fin s

/-- AUDIT_RUN (R133): a write of buf.audit_ctl.run starts a pass if none is running. -/
def execAuditRun (s : State) : Out := if s.xbar.auditPhase = .idle then fin (startPass s) else fin s

/-- AUDIT_WALK_DONE (R131, R133): the walk has coloured every cell on a list; the lists found broken are truncated. -/
def execAuditWalkDone (broken : List BrokenList) (s : State) : Out :=
  if s.xbar.auditPhase = .walk then
    let s1 := broken.foldl breakList s
    let s2 := (listed s1).foldl colourCell s1
    fin { s2 with xbar := { s2.xbar with auditPhase := .sweep } }
  else fin s

/-- AUDIT_SWEEP_DONE (R131 to R133): cells without the pass colour return to their free lists. -/
def execAuditSweepDone (s : State) : Out :=
  if s.xbar.auditPhase = .sweep then
    let l := leaked s
    let n := l.length + (s.xbar.cutFree.map (·.2)).sum
    let s1 := ownAll l .free s
    let s2 := { s1 with xbar := { s1.xbar with
        auditPhase := .idle, passes := s1.xbar.passes + 1, lastLeaked := BitVec.ofNat 20 n, cutFree := []
        repairPasses := if n = 0 then s1.xbar.repairPasses else satAdd s1.xbar.repairPasses 1 } }
    if n = 0 then fin s2 else fin (raise 4 0x20 (source 0 0) (BitVec.ofNat 64 n) s2)
  else fin s

/-- AGE_CHECK (R134, R135): every VOQ's head stamp is compared with fabric time. -/
def execAgeCheck (s : State) : Out :=
  fin ((tabKeys s.xbar.voqs).foldl (fun s k => if overAge s k then ageDiscard k s else s) s)

/-- UP_HOLD_EXPIRED (Table 5-3, R154): what is held for an upstream port that stays down for up_hold_limit is discarded,
and the host departs for the proxy; an unlimited one never expires (Table 5-5). -/
def execUpHoldExpired (u : BitVec 7) (s : State) : Out :=
  let x := queueXp s (u.toNat / 2)
  match tabGet none (output s x).upHold (u.toNat % 2) with
  | none => fin s
  | some t =>
    if upHoldEnds s = false then fin s
    else
    let s1 := reach (t.toNat + bfUpHold (bufRec s 64) * usTicks) s
    let o := output s1 x
    let s2 := setOutput x { o with upHold := tabSet none o.upHold (u.toNat % 2) none } s1
    fin (depart u.toNat (purge (fun m => decide (outPort s x m = u.toNat)) x s2))

end Sys2Proof.Machine
end

