-- ==== Sys2Proof/Machine/Fault.lean ====
section
/-! DEFINITION. Commands of the fault collector: occurrences, the flash log, automatic exit, the 0x0B family and
injection (Fault Collection and Reaction). -/

namespace Sys2Proof.Machine

open Sys2Proof

/-- Record index k × 256 + c. -/
def recKey (block code : Nat) : Nat := block * 256 + code

/-! ## Occurrences (R378, R393) -/

/-- FLT-0x0010 RECORD_UE: a record whose storage is lost is rewritten valid with count 1 and source 0. What else it
holds is not stated: free values (log entry 40). What is isolated stays so. -/
def rewriteRec (key : Nat) (s : State) : State :=
  let w := freeVal 256 s
  let r := faultRec s.fault key
  { tookFree s with fault := setFaultRec s.fault key { r with
      valid := true, count := 1, source := 0, cleared := bit w 0, escalated := bit w 1, injected := bit w 2
      level := fld w 3 3, recoveries := fld w 6 4, first := fld w 16 48, detail := fld w 64 64, last := fld w 128 48
      lastSource := fld w 176 16 } }

/-- FAULT_OCCURRENCE (R378): a block raises one of its codes; no block raises a code no faults table defines (R375). -/
def execFaultOccurrence (block : BitVec 5) (code : BitVec 8) (src : BitVec 16) (detail : BitVec 64) (s : State) : Out :=
  let key := recKey block.toNat code.toNat
  if faultTable.any fun r => r.1 == key then
    let s1 := if key = 0x0F10 ∧ detail.toNat < 5120 then rewriteRec detail.toNat s else s
    fin (raise block.toNat code.toNat (srcOf16 src) detail s1)
  else fin s

/-! ## The flash fault log (R386, 20 R473) -/

/-- Stack that a log record marks as lost for good: HBM-0x0001, not injected, with another cause than RESET (15 R373). -/
def lossOf (d : BitVec 128) : Option Nat :=
  if fnat d 0 8 = 11 ∧ fnat d 32 16 = 1 ∧ bit d 26 = false ∧ fnat d 96 32 ≠ 5 then some (fnat d 48 12 % 2) else none

/-- Records the log holds before it wraps (20 Table 20-2). -/
def logCap : Nat := 65536

/-- FAULT_LOG_APPEND (R386): the oldest record waiting is appended with the device serial; a full log wraps. -/
def execFaultLogAppend (s : State) : Out :=
  match s.fault.logDue with
  | [] => fin s
  | x :: l =>
    let kept := if logCap ≤ s.fault.log.length then s.fault.log.drop 1 else s.fault.log
    let s1 := { s with fault := { s.fault with logDue := l, log := kept ++ [{ x with serial := s.boot.serial }] } }
    match lossOf x.data with
    | some k => fin { s1 with boot := { s1.boot with recordedLoss := s1.boot.recordedLoss ||| (1#2 <<< k) } }
    | none => fin s1

/-! ## Quiet period and automatic exit (R383, R384) -/

/-- The exit action is taken for the sources of a record that `which` names; it stays isolated while others remain. -/
def exitRec (key : Nat) (which : BitVec 32 → Bool) (s : State) : State :=
  let r := faultRec s.fault key
  let left := r.sources.filter fun x => !which x
  let s1 := { s with fault := setFaultRec s.fault key { r with
      sources := left, isolated := !left.isEmpty, exhausted := r.exhausted && !left.isEmpty } }
  (r.sources.filter which).foldl (fun s x => release1 x s) s1

/-- AUTO_EXIT (R383, R384): the quiet window of an isolated record ends. With max_recover reached the sources stay
isolated and FLT-0x0001 is raised. -/
def execAutoExit (block : BitVec 5) (code : BitVec 8) (s : State) : Out :=
  let key := recKey block.toNat code.toNat
  let c := faultCfg s.fault key
  let r := faultRec s.fault key
  if r.isolated = false ∨ c.autoExit = false ∨ r.sources.any autoKind = false ∨ s.fault.safeStop then fin s
  else
    let s1 := reach (quietEnd c r) s
    if c.maxRecover.toNat ≤ r.recoveries.toNat then
      if r.exhausted then fin s1
      else
        fin (raise 15 1 (srcOf16 r.source) (BitVec.ofNat 64 key)
          { s1 with fault := setFaultRec s1.fault key { r with exhausted := true } })
    else
      fin (exitRec key autoKind { s1 with fault := setFaultRec s1.fault key { r with
        recoveries := satAdd r.recoveries 1 } })

/-! ## Acknowledgement and configuration (R380, R382) -/

/-- FAULT_ACK_WRITE (R380): flt.rec.status.ack is written. -/
def execFaultAckWrite (block : BitVec 5) (code : BitVec 8) (s : State) : Out :=
  if block.toNat < 20 ∧ code ≠ 0 then fin (ackRec (recKey block.toNat code.toNat) s) else fin s

/-- A command on a fault record: NO_SUCH_FAULT for a block above 19 or code 0. -/
def recCommand (block code : BitVec 8) (f : Nat → State → Reply × State) (s : State) : Reply × State :=
  if 19 < block.toNat ∨ code = 0 then (rep 0x0B01, s) else f (recKey block.toNat code.toNat) s

/-- FAULT_READ (Table 16-6). -/
def execFaultRead (r : Req) (block code : BitVec 8) (s : State) : Out :=
  command 0x0B01 false r (wBytes 1 block ++ wBytes 1 code) (recCommand block code fun key s =>
    let x := faultRec s.fault key
    (ok (wBytes 8 (recStatus key x) ++ wBytes 6 x.first ++ zeros 2 ++ wBytes 8 x.detail ++ wBytes 8 (recLast x)
      ++ wBytes 8 (cfgWord (faultCfg s.fault key))), s)) s

/-- Valid records from an index on, at most `n`, and the index after the last one examined (R392). -/
def listFrom (s : State) (n from_ : Nat) : List Nat × Nat :=
  let found := ((s.fault.recs.filter fun p => p.2.valid && decide (from_ ≤ p.1 ∧ p.1 < 5120)).map (·.1)).take n
  (found, if found.length < n then 5120 else (found.getLast?.getD 5119) + 1)

/-- FAULT_LIST (R392): valid records in index order. -/
def execFaultList (r : Req) (from_ max_ : BitVec 16) (s : State) : Out :=
  command 0x0B02 false r (wBytes 2 from_ ++ wBytes 2 max_) (fun s =>
    if max_ = 0 ∨ 256 < max_.toNat then (badField 2, s)
    else
      let l := listFrom s max_.toNat from_.toNat
      (ok (leBytes 2 l.1.length ++ leBytes 2 l.2
        ++ l.1.flatMap fun k => leBytes 2 k ++ wBytes 8 (recStatus k (faultRec s.fault k))), s)) s

/-- FAULT_ACK (R380): RECORD_ISOLATED while isolated, else the count it discards. -/
def execFaultAck (r : Req) (block code : BitVec 8) (s : State) : Out :=
  command 0x0B03 false r (wBytes 1 block ++ wBytes 1 code) (recCommand block code fun key s =>
    let x := faultRec s.fault key
    if x.isolated then (rep 0x0B02, s) else (ok (wBytes 4 (x.count - (ackedRec key s).count)), ackRec key s)) s

/-- FAULT_RELEASE (R384): the exit action at once, whatever auto_exit says; recoveries stays. -/
def execFaultRelease (r : Req) (block code : BitVec 8) (s : State) : Out :=
  command 0x0B04 false r (wBytes 1 block ++ wBytes 1 code) (recCommand block code fun key s =>
    if (faultRec s.fault key).isolated then (ok, exitRec key (fun _ => true) s) else (rep 0x0B03, s)) s

/-- FAULT_CONFIG (R382): flt.cfg is written, and the response gives what is in force; a level or a ceiling above 4 is
out of range (log entry 20). -/
def execFaultConfig (r : Req) (block code : BitVec 8) (cfg : BitVec 64) (s : State) : Out :=
  command 0x0B05 false r (wBytes 1 block ++ wBytes 1 code ++ zeros 2 ++ wBytes 8 cfg) (recCommand block code fun key s =>
    if 4 < cfg.toNat % 8 ∨ 4 < cfg.toNat / 8 % 8 then (badField 4, s)
    else
    let c := cfgWrite key cfg (faultCfg s.fault key)
    (ok (wBytes 8 (cfgWord c)), { s with fault := setFaultCfg s.fault key c })) s

/-- FAULT_LOG_READ (Table 16-6): records from the oldest one kept on; one beyond the log is BAD_FIELD (log entry 47). -/
def execFaultLogRead (r : Req) (index : BitVec 32) (count : BitVec 16) (s : State) : Out :=
  command 0x0B06 false r (wBytes 4 index ++ wBytes 2 count) (fun s =>
    if s.fault.log.length ≤ index.toNat then (badField 0, s)
    else if count = 0 ∨ 64 < count.toNat ∨ s.fault.log.length < index.toNat + count.toNat then (badField 4, s)
    else (ok (((s.fault.log.drop index.toNat).take count.toNat).flatMap fun x => wBytes 8 x.stamp ++ wBytes 16 x.data), s))
    s

/-! ## Injection (R387 to R389) -/

/-- The word an arming names, laid out as mem.last_hard (R505). -/
def injWord (s : State) : BitVec 64 :=
  BitVec.ofNat 64 (s.mem.injUnit.toNat % 4096 * 2 ^ 52 + s.mem.injAddr.toNat % 2 ^ 52)

/-- INJECT_MEM (R387): arms one inversion. -/
def execInjectMem (r : Req) (type mask : BitVec 8) (unit timeout : BitVec 16) (addr : BitVec 64) (s : State) : Out :=
  command 0x0F01 false r
    (wBytes 1 type ++ wBytes 1 mask ++ zeros 2 ++ wBytes 2 unit ++ wBytes 2 timeout ++ wBytes 8 addr) (fun s =>
    if 9 < type.toNat then (badField 0, s)
    else if !(decide (unit.toNat < 4096) && decide (addr.toNat < 2 ^ 52) && Config.memHolds type.toNat unit addr) then
      (rep 0x0F02, s)
    else if s.mem.inj = .armed ∧ now s < s.mem.injUntil.toNat then (rep 0x0F01, s)
    else (ok, { s with mem := { s.mem with
      inj := .armed, injType := type, injMask := mask, injUnit := unit, injAddr := addr
      injUntil := s.tele.time + BitVec.ofNat 64 (timeout.toNat * msTicks) } })) s

/-- Check bits or check symbols that the mask inverts. -/
def maskCount (t : Nat) (mask : BitVec 8) : Nat :=
  ((List.range (if isHbm t then 4 else 8)).filter fun i => bit mask i).length

/-- Whether a word with `n` check bits or symbols inverted reads uncorrectable: two bits in SRAM, two or three symbols in
HBM. For more of them the spec states neither: a free value (R387; log entry 46). -/
def injectedUe (t n : Nat) (s : State) : Bool :=
  if n < 2 then false
  else if n = 2 ∨ (n = 3 ∧ isHbm t = true) then true
  else bit (freeVal 1 s) 0

/-- INJECTED_WRITE (R387): the word the arming names is written, with its check bits inverted by the mask. -/
def execInjectedWrite (s : State) : Out :=
  if s.mem.inj ≠ .armed then fin s
  else if s.mem.injUntil.toNat ≤ now s then fin { s with mem := { s.mem with inj := .expired } }
  else
    let t := s.mem.injType.toNat
    let w := injWord s
    let n := maskCount t s.mem.injMask
    let m := memType s t
    fin (setMemType t { m with
      injected := if n = 0 then gone w m.injected else gone w m.injected ++ [w]
      bad := if injectedUe t n s then gone w m.bad ++ [w] else gone w m.bad
      writebacks := gone w m.writebacks } { tookFree s with mem := { s.mem with inj := .fired } })

/-- INJECT_EXPIRED (R387): the arming lapses after timeout_ms without a write. -/
def execInjectExpired (s : State) : Out :=
  if s.mem.inj = .armed then
    let s1 := reach s.mem.injUntil.toNat s
    fin { s1 with mem := { s1.mem with inj := .expired } }
  else fin s

/-- INJECT_RAISE (R389): the collector reacts to a named code; the block's own rules do not run. -/
def execInjectRaise (r : Req) (block code : BitVec 8) (src : BitVec 16) (detail : BitVec 64) (s : State) : Out :=
  command 0x0F02 false r (wBytes 1 block ++ wBytes 1 code ++ wBytes 2 src ++ wBytes 8 detail)
    (recCommand block code fun _ s => (ok, raiseWith true block.toNat code.toNat (srcOf16 src) detail s)) s

/-- INJECT_STATUS as Table 16-6 numbers its states. -/
def injNum (i : InjSt) : Nat :=
  match i with
  | .idle => 0 | .armed => 1 | .fired => 2 | .expired => 3

/-- INJECT_STATUS (R387). -/
def execInjectStatus (r : Req) (s : State) : Out :=
  command 0x0F03 false r [] (fun s =>
    (ok (leBytes 1 (injNum s.mem.inj) ++ wBytes 1 s.mem.injType ++ wBytes 2 s.mem.injUnit ++ wBytes 8 s.mem.injAddr), s)) s

end Sys2Proof.Machine
end

