-- ==== Sys2Proof/Machine/Lane.lean ====
section
/-! DEFINITION. The lane array's commands: references, equalisation, L0p, ASPM, tests, margining and the 0x06 Nib
family (Lane Array and Signal Integrity). -/

namespace Sys2Proof.Machine

open Sys2Proof

/-! ## References and signal (R287) -/

/-- REF_LOST (R287): the input is declared lost, LANE-0x0030 raised, and the quads that run from it lose lock. -/
def execRefLost (input : BitVec 2) (s : State) : Out :=
  let i := input.toNat
  if 2 < i ∨ bit s.lane.present i = false then fin s
  else
    let s1 := { s with lane := { s.lane with present := s.lane.present &&& ~~~ (1#3 <<< i) } }
    fin ((quadsOf s i).foldl (fun s q => quadUnlock q s) (raiseFreeCond 2 0x30 (source 0 0) s1))

/-- REF_RESTORED (R287): the input shows edges again and its quads relock. -/
def execRefRestored (input : BitVec 2) (s : State) : Out :=
  let i := input.toNat
  if 2 < i ∨ bit s.lane.present i then fin s
  else
    let s1 := { s with lane := { s.lane with present := s.lane.present ||| (1#3 <<< i) } }
    let s2 := (quadsOf s i).foldl (fun s q => quadTouch q (condGone 2 0x31 (source 10 q) s)) s1
    fin (if s2.lane.present = 7 then condGone 2 0x30 (source 0 0) s2 else s2)

/-- LANE_LOSS_OF_SIGNAL (R287): the lane reports it to its controller, which takes it as a symptom. -/
def execLaneLossOfSignal (lane_ : BitVec 9) (s : State) : Out :=
  if 416 ≤ lane_.toNat then fin s else fin (signalLost lane_.toNat s)

/-! ## Equalisation (R292, R293) -/

/-- What a receiver may converge to under its preset record: CTLE in [min, max], |h1| within h1_max, taps not enabled at
0, floating taps at positions 13 to 48 (R292, R293). -/
def convergeOk (r : BitVec 128) (ctle : BitVec 5) (h1 h2 : BitVec 8) (floatPos : BitVec 24) : Bool :=
  let c := psCtle r
  decide (c.2.1 ≤ ctle.toNat ∧ ctle.toNat ≤ c.2.2) && decide (h1.toInt.natAbs ≤ psH1 r)
  && (decide (2 ≤ fnat r 96 8) || decide (h2 = 0))
  && (List.range 4).all fun k =>
      if k < fnat r 104 8 then decide (13 ≤ fnat floatPos (6 * k) 6 ∧ fnat floatPos (6 * k) 6 ≤ 48)
      else decide (fnat floatPos (6 * k) 6 = 0)

/-- LANE_CONVERGED (R292): no tap has moved for 2 µs; the lane's equalisation ends with its CTLE code fixed. A lane
unused at its rate never converges (R290). -/
def execLaneConverged (lane_ : BitVec 9) (ctle : BitVec 5) (h1 h2 : BitVec 8) (floatPos : BitVec 24) (rxInv : Bool)
    (s : State) : Out :=
  let l := lane_.toNat
  let v := lane s l
  match v.preset with
  | none => fin s
  | some r =>
    if 416 ≤ l ∨ (v.st ≠ .l0 ∧ v.st ≠ .test) ∨ v.converged ∨ psUnused r ∨ convergeOk r ctle h1 h2 floatPos = false then
      fin s
    else fin (setLane l { v with converged := true, ctle := ctle, h1 := h1, h2 := h2, floatPos := floatPos,
                                 rxInv := rxInv, adaptAt := s.tele.time } s)

/-- ADAPT_AT_LIMIT (R293): a tap at its limit for 1 ms raises LANE-0x0010 once for each lane and training, and counts. -/
def execAdaptAtLimit (lane_ : BitVec 9) (s : State) : Out :=
  let l := lane_.toNat
  let v := lane s l
  if 416 ≤ l ∨ v.st ≠ .l0 then fin s
  else
    let s1 := setLane l { v with limitHits := satAdd v.limitHits 1, limitRaised := true } s
    fin (if v.limitRaised then s1 else raiseFree 2 0x10 (source 10 (l / 4)) s1)

/-! ## L0p (R297 to R299) -/

/-- A weave has a valid entry with xp x as its input or output. -/
def weaveUses (t : Tab (BitVec 1024)) (x : Nat) : Bool :=
  t.any fun e => (List.range 64).any fun i =>
    bit e.2 (16 * i + 15) && (decide (i = x) || decide (fnat e.2 (16 * i) 6 = x))

/-- A woven slot of xp x in the weave in force or in one loaded into the shadow or the alternate bank; a ganged pair has
the slots of both its xps (R297, 04 R94). -/
def wovenXp (s : State) (x : Nat) : Bool :=
  let uses := fun y => weaveUses (weaveNow s) y || weaveUses s.plan.shadow.weave y || weaveUses s.plan.altWeave y
  uses x || (decide (x < 48 ∧ prMode (portRec s x) = 3) && uses (x + 1))

/-- A margin scan runs on a lane of port u. -/
def scanned (s : State) (u : Nat) : Bool := s.lane.margins.any fun m => !m.aborted && (lanesOf s u).contains m.lane

/-- Port u may stand narrowed: l0p_ok, UP, 256-byte flits, no woven slot, no margin scan (R297). -/
def mayNarrow (s : State) (u : Nat) : Bool :=
  let p := port s u
  prFlag (govRec s u) 4 && decide (p.st = .up) && p.inL0 && p.flit256 && decide (1 < p.trained.toNat)
  && !wovenXp s (queueXp s (u / 2)) && !scanned s u

/-- Port u runs on `k` of its trained lanes, the rest in L0P_IDLE. -/
def l0pWidth (u k : Nat) (s : State) : State :=
  let p := port s u
  let ls := (lanesOf s u).take p.trained.toNat
  let r := p.rate.toNat
  setPort u { p with width := BitVec.ofNat 5 k, l0p := decide (k < p.trained.toNat) }
    (lanesTo .l0pIdle r (ls.drop k) (lanesTo .l0 r (ls.take k) s))

/-- L0P_NARROW (R297): after l0p_idle_us without a message the port asks to narrow; a partner that declines is asked
again after another idle period. -/
def execL0pNarrow (u : BitVec 7) (accepted : Bool) (s : State) : Out :=
  let n := u.toNat
  let v := l0pOf s n
  if (port s n).l0p ∨ mayNarrow s n = false then fin s
  else
    let s1 := reach (v.lastUse.toNat + v.idleUs.toNat * usTicks) s
    let s2 := setL0p n { v with lastUse := s1.tele.time, widenAt := none, failAt := none } s1
    fin (if accepted then l0pWidth n 1 (emit (.portAction u 4) s2) else s2)

/-- L0P_NARROW_REQUEST (R297): a partner's request is declined while a woven slot or a scan needs the width. -/
def execL0pNarrowRequest (u : BitVec 7) (s : State) : Out :=
  let n := u.toNat
  if (port s n).st ≠ .up ∨ (port s n).l0p then fin s
  else if mayNarrow s n then fin (l0pWidth n 1 (emit (.portAction u 5) s))
  else fin (emit (.portAction u 6) s)

/-- A message is queued for port u: in its output's queues or staging. -/
def egressQueued (s : State) (u : Nat) : Bool :=
  let x := queueXp s (u / 2)
  !(voqsTo s x).isEmpty || (output s x).staging.any fun e => e.2.any fun m => decide (outPort s x m.msg = u)

/-- Widening of port u starts now: its lanes resume (log entry 39). -/
def widen (u : Nat) (s : State) : State :=
  setL0p u { l0pOf s u with widenAt := some s.tele.time, failAt := none, lastUse := s.tele.time }
    (l0pWidth u (port s u).trained.toNat (emit (.portAction (BitVec.ofNat 7 u) 3) s))

/-- L0P_WIDEN (R298, R299): a message queued at its egress, the partner's request, or a weave that gives its xp a slot
starts the port widening. -/
def execL0pWiden (u : BitVec 7) (partner : Bool) (s : State) : Out :=
  let n := u.toNat
  if (port s n).l0p ∧ (port s n).st = .up ∧ (partner ∨ egressQueued s n ∨ wovenXp s (queueXp s (n / 2))) then
    fin (widen n s)
  else fin s

/-- WIDEN_FAIL (R298): lanes not resumed within 5 µs stay in L0P_IDLE and LANE-0x0020 is raised. -/
def execWidenFail (u : BitVec 7) (resumed : BitVec 5) (s : State) : Out :=
  let n := u.toNat
  let v := l0pOf s n
  match v.widenAt with
  | none => fin s
  | some t =>
    if resumed.toNat = 0 ∨ (port s n).trained.toNat ≤ resumed.toNat ∨ (port s n).st ≠ .up
        ∨ t.toNat + 5 * usTicks < now s then fin s
    else
      let s1 := l0pWidth n resumed.toNat (reach (t.toNat + 5 * usTicks) s)
      fin (raiseFree 2 0x20 (source 1 n)
        (setL0p n { v with widenAt := none, failAt := some s1.tele.time } s1))

/-- WIDEN_RETRY (R298): 1 ms after a failed widening it is tried again. -/
def execWidenRetry (u : BitVec 7) (s : State) : Out :=
  let n := u.toNat
  match (l0pOf s n).failAt with
  | some t => if (port s n).st = .up then fin (widen n (reach (t.toNat + msTicks) s)) else fin s
  | none => fin s

/-! ## ASPM L1 (R295, R296) -/

/-- Every lane of the quads of lanes `ls` is in L1 or OFF (Table 12-4). -/
def quadsRest (s : State) (ls : List Nat) : Bool :=
  ls.all fun l => (List.range 4).all fun i =>
    match (lane s (l / 4 * 4 + i)).st with
    | .l1Pll | .l1NoPll | .off => true
    | .l0 | .l0pIdle | .test => false

/-- ASPM_L1_ENTRY (R296): a downstream port with l1_ok; its lanes go to L1_PLL, or to L1_NOPLL where every lane of their
quads is in L1 or OFF (Table 12-4). -/
def execAspmL1Entry (u : BitVec 7) (pllOff : Bool) (s : State) : Out :=
  let n := u.toNat
  let p := port s n
  if p.st = .up ∧ p.inL0 ∧ p.role = 2 ∧ prFlag (govRec s n) 2 then
    let ls := (lanesOf s n).take p.trained.toNat
    let s0 := lanesTo .l1Pll p.rate.toNat ls (leaveL0 n s)
    let s1 := if pllOff && quadsRest s0 ls then lanesTo .l1NoPll p.rate.toNat ls s0 else s0
    fin (setL0p n { l0pOf s1 n with l1 := true } s1)
  else fin s

/-- ASPM_L1_EXIT (R296): the lanes return to L0. -/
def execAspmL1Exit (u : BitVec 7) (s : State) : Out :=
  let n := u.toNat
  let p := port s n
  if (l0pOf s n).l1 ∧ p.st = .up then
    let s1 := enterL0 n (lanesTo .l0 p.rate.toNat ((lanesOf s n).take p.trained.toNat) s)
    fin (setL0p n { l0pOf s1 n with l1 := false, lastUse := s1.tele.time } (setPort n { port s1 n with l0p := false, width := p.trained } s1))
  else fin s

/-! ## Tests (R300, R301) -/

/-- The checker of a mode checks (Table 12-6). -/
def checks (mode : Nat) : Bool := decide (mode = 2 ∨ mode = 3 ∨ mode = 4)

/-- The transmitter of a mode sends the pattern (Table 12-6). -/
def sends (mode : Nat) : Bool := decide (mode = 1 ∨ mode = 3 ∨ mode = 4)

/-- TEST_INJECT (R301): one transmitted bit is inverted; ignored in FAR_LOOP; pending while the transmitter is idle. A
near loop's checker counts the bit. -/
def execTestInject (lane_ : BitVec 9) (s : State) : Out :=
  let l := lane_.toNat
  let v := lane s l
  let m := v.mode.toNat
  if 416 ≤ l ∨ (v.testing ∧ m = 5) then fin s
  else if v.testing && sends m then
    fin (if m = 4 ∧ v.locked then setLane l { lane (testSync l s) l with errs := (lane (testSync l s) l).errs + 1 }
      (testSync l s) else s)
  else if v.st = .l0 then fin s
  else fin (setLane l { v with inject := true } s)

/-- TEST_CHECKER_LOCK (R301): 1,024 bits without error; the checker counts from now on. -/
def execTestCheckerLock (lane_ : BitVec 9) (s : State) : Out :=
  let l := lane_.toNat
  let v := lane s l
  if v.testing && checks v.mode.toNat && !v.locked && !v.refLost then
    fin (setLane l { v with locked := true, countAt := s.tele.time } s)
  else fin s

/-- TEST_CHECKER_LOCK_LOST (R301): more than 256 errors in 4,096 bits, which count; the checker seeds itself again. -/
def execTestCheckerLockLost (lane_ : BitVec 9) (errs : BitVec 16) (s : State) : Out :=
  let l := lane_.toNat
  let v0 := lane s l
  if v0.testing && v0.locked && decide (256 < errs.toNat ∧ errs.toNat ≤ 4096) then
    let s1 := testSync l s
    let v := lane s1 l
    fin (setLane l { v with locked := false, lockLost := satAdd v.lockLost 1, bits := v.bits + 4096,
                            errs := v.errs + errs.setWidth 64 } s1)
  else fin s

/-- The port or link of lane l is OFF (R300). -/
def laneFree (s : State) (l : Nat) : Bool :=
  if l < 384 then decide ((port s (portOfLane s l)).st = .off) else decide ((weft s ((l - 384) / 4)).st = .off)

/-- Rate and pattern are allowed for lane l, and its quad runs no test at another rate (R300, Table 12-5). -/
def testRateOk (s : State) (ls : List Nat) (rate pattern l : Nat) : Bool :=
  (if l < 384 then decide (rate ≤ 6) else decide (rate = 7))
  && (match pattern with | 0 => decide (rate ≤ 4) | 1 => true | _ => decide (5 ≤ rate))
  && (List.range 4).all fun i =>
      let w := lane s (l / 4 * 4 + i)
      ls.contains (l / 4 * 4 + i) || !w.testing || decide (w.rate.toNat = rate)

/-- Lanes of a run. -/
def laneRun (l count : BitVec 16) : List Nat := (List.range count.toNat).map (l.toNat + ·)

/-- A test starts on lane l. -/
def testStart (mode pattern rate : Nat) (s : State) (l : Nat) : State :=
  let v := lane s l
  let r := presetOf s l rate
  putLane l { v with
    st := .test, since := stamp s, rate := BitVec.ofNat 3 rate, mode := BitVec.ofNat 3 mode,
    pattern := BitVec.ofNat 2 pattern, testing := true, locked := false, refLost := false, bits := 0, errs := 0,
    countAt := s.tele.time, converged := false, limitRaised := false, ctle := BitVec.ofNat 5 (psCtle r).1,
    h1 := 0, h2 := 0, floatPos := 0, adaptAt := s.tele.time, preset := some r, inject := v.inject && !(sends mode) && decide (mode ≠ 5) } s

/-- LANE_TEST_START (R300, R303). -/
def execLaneTestStart (r : Req) (lane_ count : BitVec 16) (mode pattern rate : BitVec 8) (s : State) : Out :=
  command 0x0603 false r
    (wBytes 2 lane_ ++ wBytes 2 count ++ wBytes 1 mode ++ wBytes 1 pattern ++ wBytes 1 rate ++ zeros 1) (fun s =>
    let ls := laneRun lane_ count
    if count.toNat < 1 ∨ 32 < count.toNat then (badField 2, s)
    else if 5 < mode.toNat then (badField 4, s)
    else if 2 < pattern.toNat then (badField 5, s)
    else if 7 < rate.toNat then (badField 6, s)
    else if 416 < lane_.toNat + count.toNat then (rep 0x0602, s)
    else if ls.any fun l => !laneFree s l then (rep 0x0601, s)
    else if ls.any fun l => !testRateOk s ls rate.toNat pattern.toNat l then (rep 0x0603, s)
    else (ok, ls.foldl (testStart mode.toNat pattern.toNat rate.toNat) s)) s

/-- A test stops on lane l; its counts stand. -/
def testStop (s : State) (l : Nat) : State :=
  let v := lane s l
  endScans [l] <| putLane l { v with
    st := .off, since := stamp s, testing := false, mode := 0, locked := false, converged := false, signal := false,
    ctle := 0, h1 := 0, h2 := 0, floatPos := 0, limitRaised := false, preset := none } s

/-- The counts that LANE_TEST_STOP returns for lane l. -/
def testCounts (s : State) (l : Nat) : List Byte :=
  let v := lane s l
  wBytes 8 v.bits ++ wBytes 8 v.errs ++ wBytes 2 v.lockLost ++ leBytes 1 (nb v.locked) ++ leBytes 1 (nb v.refLost)
  ++ zeros 4

/-- LANE_TEST_STOP (R303). -/
def execLaneTestStop (r : Req) (lane_ count : BitVec 16) (s : State) : Out :=
  command 0x0604 false r (wBytes 2 lane_ ++ wBytes 2 count) (fun s =>
    let ls := laneRun lane_ count
    if count.toNat < 1 ∨ 32 < count.toNat then (badField 2, s)
    else if 416 < lane_.toNat + count.toNat then (rep 0x0602, s)
    else if ls.any fun l => !laneFree s l then (rep 0x0601, s)
    else
      let s1 := ls.foldl (fun s l => testSync l s) s
      (ok ((ls.map (testCounts s1)).flatten), (ls.filter fun l => (lane s1 l).testing).foldl testStop s1)) s

/-! ## Margins (R302) -/

/-- Lane l is in UP or in test. -/
def marginable (s : State) (l : Nat) : Bool :=
  let v := lane s l
  decide (v.st = .test)
  || (decide (v.st = .l0) && (if l < 384 then decide ((port s (portOfLane s l)).st = .up)
      else decide ((weft s ((l - 384) / 4)).st = .up)))

/-- LANE_MARGIN (R302, R303). -/
def execLaneMargin (r : Req) (lane_ : BitVec 16) (eye dwell : BitVec 8) (errLimit : BitVec 32) (s : State) : Out :=
  command 0x0605 false r
    (wBytes 2 lane_ ++ wBytes 1 eye ++ wBytes 1 dwell ++ wBytes 4 errLimit) (fun s =>
    let l := lane_.toNat
    if 415 < l then (rep 0x0602, s)
    else if 2 < eye.toNat ∨ ((lane s l).rate.toNat ≤ 4 ∧ eye ≠ 0) then (badField 2, s)
    else if dwell.toNat < 16 ∨ 30 < dwell.toNat then (badField 3, s)
    else pend 0x0605 r (fun t s =>
      let m : Margin := { ticket := t, lane := l, eye := eye, dwell := dwell, errLimit := errLimit,
                          aborted := !marginable s l }
      { s with lane := { s.lane with margins := s.lane.margins ++ [m] } }) s) s

/-- The magnitude of a signed step count. -/
def stepMag (w : BitVec 8) : Nat := w.toInt.natAbs

/-- LANE_MARGIN_DONE (R302): a lane's scan ends with the last passing steps, at most 32 in time and 64 in voltage; with
status ABORTED where the lane has left L0 or its link is down. -/
def execLaneMarginDone (lane_ : BitVec 9) (left right down up : BitVec 8) (points : BitVec 16) (s : State) : Out :=
  let l := lane_.toNat
  match s.lane.margins.find? fun m => decide (m.lane = l) with
  | none => fin s
  | some m =>
    if 32 < stepMag left ∨ 32 < stepMag right ∨ 64 < stepMag down ∨ 64 < stepMag up ∨ 192 < points.toNat then fin s
    else
      let q := ok (leBytes 1 (nb (m.aborted || !marginable s l)) ++ leBytes 1 0 ++ wBytes 1 left ++ wBytes 1 right ++ wBytes 1 down
        ++ wBytes 1 up ++ wBytes 2 points)
      fin (finishTicket m.ticket q { s with lane := { s.lane with margins := s.lane.margins.erase m } })

/-! ## The rest of the 0x06 Nib family (R303) -/

/-- LANE_STATUS (R303). -/
def execLaneStatus (r : Req) (lane_ : BitVec 16) (s : State) : Out :=
  command 0x0601 false r (wBytes 2 lane_) (fun s =>
    let l := lane_.toNat
    let s := if 415 < l then s else adaptSync l s
    let v := lane s l
    if 415 < l then (rep 0x0602, s)
    else
      let rec_ := match v.preset with | some p => p | none => presetOf s l v.rate.toNat
      (ok (wBytes 8 (laneStatusWord v) ++ wBytes 8 (laneAdaptWord v) ++ wBytes 16 rec_), s)) s

/-- LANE_PRESET_SET (R291): one record of the working copy, in effect at the lane's next equalisation at that rate. -/
def execLanePresetSet (r : Req) (record : BitVec 128) (s : State) : Out :=
  command 0x0602 false r (wBytes 16 record) (fun s =>
    if 415 < psLane record then (rep 0x0602, s)
    else match presetBad record with
      | some off => (badField off, s)
      | none => (ok, { s with lane := { s.lane with
          presets := tabSet none s.lane.presets (psLane record * 8 + psRate record) (some record) } })) s

/-- LANE_POWER_CFG (R303): the port's l0p_idle_us. -/
def execLanePowerCfg (r : Req) (port_ half : BitVec 8) (idle : BitVec 16) (s : State) : Out :=
  command 0x0606 false r (wBytes 1 port_ ++ wBytes 1 half ++ wBytes 2 idle) (fun s =>
    if 47 < port_.toNat then (badField 0, s)
    else if 1 < half.toNat ∨ halfExists s port_.toNat half.toNat = false then (badField 1, s)
    else if idle.toNat < 1 ∨ 1000 < idle.toNat then (badField 2, s)
    else
      let u := 2 * port_.toNat + half.toNat
      (ok, setL0p u { l0pOf s u with idleUs := idle } s)) s

/-- LANE_REF_SELECT (R287): a loom takes the other 100 MHz input, while all its CXL ports are OFF. -/
def execLaneRefSelect (r : Req) (loom_ ref : BitVec 8) (s : State) : Out :=
  command 0x0607 false r (wBytes 1 loom_ ++ wBytes 1 ref) (fun s =>
    let n := loom_.toNat
    if 7 < n then (badField 0, s)
    else if 1 < ref.toNat then (badField 1, s)
    else if (List.range 12).any fun i => decide ((port s (12 * n + i)).st ≠ .off) then (rep 0x0604, s)
    else
      let sel := (s.lane.refSel &&& ~~~ (1#8 <<< n)) ||| (if ref = 1 then 1#8 <<< n else 0)
      let s1 := { s with lane := { s.lane with refSel := sel } }
      (ok, (List.range 12).foldl (fun s i => quadTouch (12 * n + i) s) s1)) s

end Sys2Proof.Machine
end

