-- ==== Sys2Proof/Machine/NibTable.lean ====
section
/-! DEFINITION. The request layouts of every Nib command, and what a request's header and length are checked for before
its own fields (13 R317, R318; the payload tables of each family). -/

namespace Sys2Proof.Machine

open Sys2Proof

/-- Layout of a request payload: byte runs that are fields and reserved by turns, a field run first; and where a length
or count field stands that says how many more units follow: its offset, its size and the bytes of a unit. -/
structure Layout where
  runs : List Nat
  tail : Option (Nat × Nat × Nat)
  deriving DecidableEq, Repr

/-- A layout of fixed length. -/
def runs (l : List Nat) : Option Layout := some { runs := l, tail := none }

/-- A layout with a variable part. -/
def runsTail (l : List Nat) (off size unit : Nat) : Option Layout := some { runs := l, tail := some (off, size, unit) }

/-- Family 0x01 (Table 13-10). -/
def layout01 (c : Nat) : Option Layout :=
  match c with
  | 0x01 => runs [] | 0x02 => runs [] | 0x03 => runs [2, 2] | 0x04 => runs [6, 2] | 0x05 => runs [4] | 0x06 => runs [2, 2]
  | 0x07 => runs [6, 2] | 0x08 => runsTail [6, 2] 4 2 8 | 0x09 => runs [4] | 0x0A => runs [5, 3] | 0x0B => runs [1, 3]
  | _ => none

/-- Family 0x02 (02 Table 2-9). -/
def layout02 (c : Nat) : Option Layout :=
  match c with
  | 0x01 => runs [2, 2, 8] | 0x02 => runsTail [12] 8 4 1 | 0x03 => runs [4] | 0x04 => runs [] | 0x05 => runs []
  | 0x06 => runs [2] | 0x07 => runs [2] | 0x08 => runs [2, 2, 6]
  | _ => none

/-- Family 0x03 (03 Table 3-12). -/
def layout03 (c : Nat) : Option Layout :=
  match c with
  | 0x01 => runs [2] | 0x02 => runs [2] | 0x03 => runs [2] | 0x04 => runs [2] | 0x05 => runs [4] | 0x06 => runs [2]
  | 0x07 => runs [2, 2, 4] | 0x08 => runs [2] | 0x09 => runs [1, 3, 8] | 0x0A => runs [1]
  | _ => none

/-- Family 0x04 (10, Commands). -/
def layout04 (c : Nat) : Option Layout :=
  match c with
  | 0x01 => runs [2] | 0x02 => runs [2] | 0x03 => runs [3] | 0x04 => runs [2] | 0x05 => runs [2] | 0x06 => runs [2]
  | _ => none

/-- Family 0x05 (11, Commands). -/
def layout05 (c : Nat) : Option Layout :=
  match c with
  | 0x01 => runs [1] | 0x02 => runs [3, 1, 40] | 0x03 => runs [1] | 0x04 => runs [1] | 0x05 => runs [1] | 0x06 => runs [1]
  | 0x07 => runs [1]
  | _ => none

/-- Family 0x06 (12, Commands). -/
def layout06 (c : Nat) : Option Layout :=
  match c with
  | 0x01 => runs [2] | 0x02 => runs [16] | 0x03 => runs [7, 1] | 0x04 => runs [4] | 0x05 => runs [8] | 0x06 => runs [4]
  | 0x07 => runs [2]
  | _ => none

/-- Family 0x07 (07, Commands). -/
def layout07 (c : Nat) : Option Layout :=
  match c with
  | 0x01 => runs [28] | 0x02 => runs [2] | 0x03 => runs [2] | 0x04 => runs [4] | 0x05 => runs [2] | 0x06 => runs [4]
  | 0x07 => runs [2] | 0x08 => runs [2, 2, 4096] | 0x09 => runs [6] | 0x0A => runs [2] | 0x0B => runsTail [4] 2 2 1
  | 0x0C => runs [1]
  | _ => none

/-- Family 0x08 (08, Commands). -/
def layout08 (c : Nat) : Option Layout :=
  match c with
  | 0x01 => runs [2] | 0x02 => runs [2, 2, 64] | 0x03 => runs [1] | 0x04 => runs [1, 3, 64] | 0x05 => runs [2]
  | _ => none

/-- Family 0x09 (09, Commands). -/
def layout09 (c : Nat) : Option Layout :=
  match c with
  | 0x01 => runs [4] | 0x02 => runs [2, 2, 32] | 0x03 => runs [4] | 0x04 => runs [4] | 0x05 => runs [] | 0x06 => runs []
  | _ => none

/-- Family 0x0A (14, Commands). -/
def layout0A (c : Nat) : Option Layout :=
  match c with
  | 0x01 => runs [] | 0x02 => runs [24] | 0x03 => runs [8] | 0x04 => runs [1, 7, 96] | 0x05 => runs [1] | 0x06 => runs [16]
  | 0x07 => runs [3, 1, 2, 2, 8] | 0x08 => runs [12] | 0x09 => runs [1, 3, 4] | 0x0A => runs [6] | 0x0B => runs [8]
  | 0x0C => runs [5, 3, 32] | 0x0D => runs [10]
  | _ => none

/-- Family 0x0B (16, Commands). -/
def layout0B (c : Nat) : Option Layout :=
  match c with
  | 0x01 => runs [2] | 0x02 => runs [4] | 0x03 => runs [2] | 0x04 => runs [2] | 0x05 => runs [2, 2, 8] | 0x06 => runs [6]
  | _ => none

/-- Family 0x0C (17 Table 17-13). -/
def layout0C (c : Nat) : Option Layout :=
  match c with
  | 0x01 => runs [] | 0x02 => runs [1, 3] | 0x03 => runs [2] | 0x04 => runs [5, 3, 4] | 0x05 => runs [25, 7, 2]
  | _ => none

/-- Family 0x0D (18, Commands). -/
def layout0D (c : Nat) : Option Layout :=
  match c with
  | 0x01 => runs [1] | 0x02 => runs [3, 1] | 0x03 => runs [1, 7, 24] | 0x04 => runs [4] | 0x05 => runs [2, 2]
  | 0x06 => runs [2, 2]
  | _ => none

/-- Family 0x0E (19, Commands). -/
def layout0E (c : Nat) : Option Layout :=
  match c with
  | 0x01 => runs [] | 0x02 => runs [] | 0x03 => runs [1, 3, 256] | 0x04 => runs [0, 4, 97, 3, 256] | 0x05 => runs [256]
  | 0x06 => runs [] | 0x07 => runs [1, 3, 97, 3, 256] | 0x08 => runs [1, 3, 256] | 0x09 => runs [256] | 0x0A => runs [10]
  | 0x0B => runs [48] | 0x0C => runs [1, 3, 6] | 0x0D => runsTail [2, 2] 0 2 1 | 0x0E => runsTail [2, 2] 0 2 1
  | _ => none

/-- Family 0x0F (16 Table 16-7, 20 Table 20-7). -/
def layout0F (c : Nat) : Option Layout :=
  match c with
  | 0x01 => runs [2, 2, 12] | 0x02 => runs [12] | 0x03 => runs [] | 0x10 => runsTail [1, 3, 6, 2] 8 2 1
  | 0x11 => runs [1, 3]
  | _ => none

/-- Request layout of an opcode; none where no command has it (R327). -/
def layout (op : Nat) : Option Layout :=
  match op / 256 with
  | 0x01 => layout01 (op % 256) | 0x02 => layout02 (op % 256) | 0x03 => layout03 (op % 256) | 0x04 => layout04 (op % 256)
  | 0x05 => layout05 (op % 256) | 0x06 => layout06 (op % 256) | 0x07 => layout07 (op % 256) | 0x08 => layout08 (op % 256)
  | 0x09 => layout09 (op % 256) | 0x0A => layout0A (op % 256) | 0x0B => layout0B (op % 256) | 0x0C => layout0C (op % 256)
  | 0x0D => layout0D (op % 256) | 0x0E => layout0E (op % 256) | 0x0F => layout0F (op % 256)
  | _ => none

/-- Maker-only commands (19, 20). -/
def makerOnly (op : Nat) : Bool := decide (op = 0x0E06) || decide (op = 0x0E0D) || decide (op = 0x0E0E)

/-- Bytes of the fixed part of a layout. -/
def fixedLen (l : Layout) : Nat := l.runs.foldl (· + ·) 0

/-- Whether a payload's length is one the layout allows. -/
def lengthOk (l : Layout) (p : List Byte) : Bool :=
  match l.tail with
  | none => decide (p.length = fixedLen l)
  | some (off, size, unit) => decide (fixedLen l ≤ p.length) && decide (p.length = fixedLen l + leAt p off size * unit)

/-- The detail of BAD_LENGTH: the length allowed, 0 where several are (Table 13-5). -/
def lengthDetail (l : Layout) : Nat := if l.tail.isSome then 0 else fixedLen l

/-- Offset of the first reserved byte that is not 0, counting `field` first (R318 step 1; log entry 45). -/
def reservedBad : Bool → Nat → List Nat → List Byte → Option Nat
  | _, _, [], _ => none
  | true, off, n :: l, p => reservedBad false (off + n) l (p.drop n)
  | false, off, n :: l, p =>
    match (p.take n).findIdx? (fun b => b != 0) with
    | some k => some (off + k)
    | none => reservedBad true (off + n) l (p.drop n)

/-- Opcode that a request header carries. -/
def hdrOp (h : List Byte) : Nat := leAt h 0 2
/-- Tag that a request header carries. -/
def hdrTag (h : List Byte) : BitVec 16 := BitVec.ofNat 16 (leAt h 4 2)

/-- The header of a request is well formed: kind 0, version 1, status and detail 0 (Table 13-4, R318 step 1). -/
def hdrOk (h : List Byte) : Bool :=
  decide (leAt h 2 1 = 0) && decide (leAt h 3 1 = 1) && decide (leAt h 6 2 = 0) && decide (leAt h 12 4 = 0)

/-- The failure of a request before its own field checks, if one fails: header, opcode, level and state, length, reserved
payload bytes (R318). -/
def arrival (r : Req) (h p : List Byte) (s : State) : Option Reply :=
  if hdrOk h = false then some (badField 0xFFFFFFFF)
  else
    match layout (hdrOp h) with
    | none => some (rep 0x10)
    | some l =>
      if (lengthOk l p && decide (leAt h 8 4 = p.length)) = false then
        some ((gate (hdrOp h) (makerOnly (hdrOp h)) r s).getD (rep 0x11 (lengthDetail l)))
      else
        match reservedBad true 0 l.runs p with
        | some off => some ((gate (hdrOp h) (makerOnly (hdrOp h)) r s).getD (badField off))
        | none => none

/-- The same failure as the boot ROM finds it (20 R476). -/
def romArrival (h p : List Byte) : Option Reply :=
  if hdrOk h = false then some (badField 0xFFFFFFFF)
  else if romOp (hdrOp h) = false then some (rep 0x10)
  else
    match layout (hdrOp h) with
    | none => some (rep 0x10)
    | some l =>
      if (lengthOk l p && decide (leAt h 8 4 = p.length)) = false then some (rep 0x11 (lengthDetail l))
      else (reservedBad true 0 l.runs p).map badField

/-- A request that has become complete is taken: answered at once where it fails before its own checks, left for its row
where it does not. Nothing answers in STANDBY, nor in safe-stop while firmware is not RUNNING (R504, 17 Table 17-9); the
boot ROM answers while it waits for a recovery image (20 R476). -/
def arrive (r : Req) (h p : List Byte) (s : State) : State :=
  if s.boot.held then s
  else if s.boot.stage = 7 then
    if romHears r s then
      match romArrival h p with
      | some q => respond r (hdrOp h) p q s
      | none => s
    else s
  else if s.pmu.st = .standby ∨ (s.mgmt.fw ≠ .running ∧ s.fault.safeStop) then s
  else if s.mgmt.fw ≠ .running then respond r (hdrOp h) p (hwReply s) s
  else
    match nibPower (hdrOp h) s with
    | .stop s1 | .go s1 =>
      match arrival r h p s1 with
      | some q => respond r (hdrOp h) p q s1
      | none => s1

/-- Largest request payload of an owner mailbox: its 32 KiB buffer less the header (R311). -/
def mailboxMax : Nat := 32752

/-- A write of go = 1 to owner mailbox m (R313): ignored and counted while busy or done; a request larger than the buffer
is not accepted (R311). -/
def mailboxGo (m : Nat) (s : State) : State :=
  let b := mbx s m
  if b.busy || b.done then overrun m s
  else
    let h := tabSlice 0 b.req 0 16
    let n := leAt h 8 4
    if mailboxMax < n then s
    else
      let p := tabSlice 0 b.req 16 n
      arrive { src := .mailbox (BitVec.ofNat 2 m), tag := hdrTag h } h p
        (setMbx m { b with go := true, busy := true, accepted := some (BitVec.ofNat 16 (hdrOp h), hdrTag h, p) } s)

end Sys2Proof.Machine
end

