-- ==== Sys2Proof/Machine/SlotOps.lean ====
section
/-! DEFINITION. Shared operations of the slot channels: states, gate, PERST, trips, power-off and what their port learns
(Selvedge Slot Power). -/

namespace Sys2Proof.Machine

open Sys2Proof

/-! ## Registers (18, Slot registers) -/

/-- ilimit of a gate_ctl word, 100 mA units. -/
def gcIlimit (w : BitVec 64) : Nat := fnat w 0 7
/-- fast_trip, A. -/
def gcFast (w : BitVec 64) : Nat := fnat w 7 5
/-- slew, 0.1 V/ms. -/
def gcSlew (w : BitVec 64) : Nat := fnat w 12 7
/-- brk_us. -/
def gcBrk (w : BitVec 64) : Nat := fnat w 19 16
/-- ramp_to_ms. -/
def gcRamp (w : BitVec 64) : Nat := fnat w 35 8

/-- A gate_ctl word that a write may set: every field in range and fast_trip at least 1.5 × ilimit (R429, R442). -/
def gateOk (w : BitVec 64) : Bool :=
  decide (10 ≤ gcIlimit w ∧ gcIlimit w ≤ 120) && decide (2 ≤ gcFast w ∧ gcFast w ≤ 30)
  && decide (5 ≤ gcSlew w ∧ gcSlew w ≤ 120) && decide (10 ≤ gcBrk w ∧ gcBrk w ≤ 20000) && decide (1 ≤ gcRamp w)
  && decide (3 * gcIlimit w ≤ 20 * gcFast w)

/-- The fields of a gate_ctl word; reserved bits read 0. -/
def gateMask (w : BitVec 64) : BitVec 64 := w &&& BitVec.ofNat 64 (2 ^ 43 - 1)
/-- The fields of a ctl word. -/
def ctlMask (w : BitVec 64) : BitVec 64 := w &&& BitVec.ofNat 64 (2 ^ 27 - 1)
/-- The fields of a pg_cfg word. -/
def pgMask (w : BitVec 64) : BitVec 64 := w &&& BitVec.ofNat 64 (2 ^ 40 - 1)

/-- ctl.on. -/
def ctlOn (c : Slot) : Bool := bit c.ctl 0
/-- ctl.auto. -/
def ctlAuto (c : Slot) : Bool := bit c.ctl 1
/-- ctl.btn_act is TOGGLE. -/
def ctlToggle (c : Slot) : Bool := bit c.ctl 2
/-- ctl.attn_led. -/
def ctlAttn (c : Slot) : Nat := fnat c.ctl 3 2
/-- ctl.pwr_led. -/
def ctlPwr (c : Slot) : Nat := fnat c.ctl 5 2
/-- ctl.retry_max. -/
def ctlRetries (c : Slot) : Nat := fnat c.ctl 7 4
/-- ctl.retry_ms in force: outside 100 to 60,000 the nearest limit. -/
def ctlRetryMs (c : Slot) : Nat := max 100 (min 60000 (fnat c.ctl 11 16))
/-- pg_cfg.pg_delay_us. -/
def pgDelay (c : Slot) : Nat := fnat c.pgCfg 0 16
/-- pg_cfg.perst_delay_ms in force: outside 1 to 1,000 the nearest limit (log entry 51). -/
def perstDelay (c : Slot) : Nat := max 1 (min 1000 (fnat c.pgCfg 16 10))
/-- pg_cfg.dmg_delay_ms in force: outside 100 to 10,000 the nearest limit (log entry 51). -/
def dmgDelay (c : Slot) : Nat := max 100 (min 10000 (fnat c.pgCfg 26 14))

/-- Value of a channel state (Table 18-2). -/
def slotStNum (st : SlotSt) : Nat :=
  match st with
  | .empty => 0 | .debounce => 1 | .wait => 2 | .ramp => 3 | .pgDelay => 4 | .on => 5 | .decay => 6 | .latched => 7
  | .damaged => 8

/-- slot.status.trip_cause. -/
def tripNum (c : TripCause) : Nat :=
  match c with
  | .none => 0 | .fast => 1 | .breaker => 2 | .ramp => 3

/-- slot[n].status. -/
def slotStatusWord (c : Slot) : BitVec 64 :=
  BitVec.ofNat 64 (slotStNum c.st + nb c.prsntL * 16 + nb c.prsntS * 32 + nb c.pg * 64 + nb c.perst * 128
    + nb c.gateOn * 256 + nb c.retryActive * 512 + nb c.wake * 1024 + tripNum c.trip * 2048 + c.since.toNat * 2 ^ 16)

/-- slot[n].meas. -/
def slotMeasWord (s : State) (c : Slot) : BitVec 64 :=
  BitVec.ofNat 64 (c.iout.toNat + c.vout.toNat * 2 ^ 16 + s.slot.vbus.toNat * 2 ^ 32 + nb s.slot.busUv * 2 ^ 48
    + nb s.slot.busOv * 2 ^ 49)

/-- slot[n].counts. -/
def slotCountsWord (c : Slot) : BitVec 64 :=
  BitVec.ofNat 64 (c.trips.toNat + c.insertions.toNat * 2 ^ 16 + c.retryCount.toNat * 2 ^ 32 + c.surprise.toNat * 2 ^ 48)

/-! ## Indicators (Table 18-4) -/

/-- PWR_LED of a channel: 1 off, 2 on, 3 blink (R438). -/
def pwrLed (c : Slot) : Nat :=
  if c.st = .damaged then 2
  else if ctlPwr c ≠ 0 then ctlPwr c
  else if c.toggleAt.isSome then 3
  else
    match c.st with
    | .ramp | .pgDelay | .decay => 3
    | .on => 2
    | _ => 1

/-- ATTN_LED of a channel: 1 off, 2 on, 3 blink (R438). -/
def attnLed (c : Slot) : Nat :=
  if c.st = .latched ∨ c.st = .damaged then 2 else if ctlAttn c ≠ 0 then ctlAttn c else 1

/-! ## The slot's port -/

/-- Logical ports whose PORT record names slot n (10 Table 10-2). -/
def slotPorts (s : State) (n : Nat) : List Nat :=
  (List.range 96).filter fun u =>
    decide (prSlot (portRec s (u / 2)) (u % 2) = n) && decide (prRole (portRec s (u / 2)) (u % 2) ≠ 0)

/-- The host bound to the slot's port owns slot control: host_hp (10 Table 10-2). -/
def hostHp (s : State) (n : Nat) : Bool := (slotPorts s n).any fun u => bit (portRec s (u / 2)) 35

/-- The slot's port is declared down with a cause (R433, R434). -/
def slotDown (n : Nat) (cause : DownCause) (s : State) : State :=
  (slotPorts s n).foldl (fun s u => portLost u cause s) s

/-- A Slot Status bit of the slot's port sets (10 Table 10-7). -/
def slotSts (n b : Nat) (s : State) : State := (slotPorts s n).foldl (fun s u => slotEvent u b s) s

/-! ## States, gate and PERST -/

/-- SLOT_POWER commands of a channel end: those for `on` with a reply. -/
def slotReply (n : Nat) (on : Bool) (q : Reply) (s : State) : State :=
  let c := slotCh s n
  let s1 := setSlot n { c with cmds := c.cmds.filter fun p => decide (p.2 ≠ on) } s
  finishAll ((c.cmds.filter fun p => decide (p.2 = on)).map (·.1)) q s1

/-- Channel n enters a state, stamped; SLOT_POWER completes at ON, or at WAIT or EMPTY (18 Table 18-5). -/
def slotTo (n : Nat) (st : SlotSt) (s : State) : State :=
  let s1 := setSlot n { slotCh s n with st := st, since := stamp s } s
  match st with
  | .on => slotReply n true ok s1
  | .wait | .empty => slotReply n false ok s1
  | _ => s1

/-- PERST of a bay is asserted or released. -/
def setPerst (n : Nat) (v : Bool) (s : State) : State :=
  if (slotCh s n).perst = v then s
  else emit (.pin 2 (BitVec.ofNat 8 n) (!v)) (setSlot n { slotCh s n with perst := v } s)

/-- The gate is pulled off: PG drops, PERST asserts, and no timer of the powered states runs on (R427, R431). -/
def gateOff (n : Nat) (s : State) : State :=
  let c := slotCh s n
  setPerst n true (setSlot n { c with
    gateOn := false, pg := false, pgFrom := none, breakerAt := none, rampAt := none, perstFrom := none, offAt := none
    gateOffAt := if c.gateOn then some s.aon else c.gateOffAt } s)

/-- Where a channel goes when its gate is off: DECAY while VOUT is at or above 2.0 V, else WAIT for a seated card,
DEBOUNCE for a closed short pin, or EMPTY (R431, R433, R435). -/
def offState (c : Slot) : SlotSt :=
  if 2000 ≤ c.vout.toNat then .decay
  else if c.prsntS then .wait
  else if c.shortPin then .debounce
  else .empty

/-- ctl.on is written. -/
def setOn (n : Nat) (v : Bool) (s : State) : State :=
  setSlot n { slotCh s n with ctl := setFld (slotCh s n).ctl 0 1 (b1 v) } s

/-! ## Trips (R431) -/

/-- Fault code of a trip. -/
def tripCode (c : TripCause) : Nat :=
  match c with
  | .fast => 1 | .breaker => 2 | _ => 3

/-- The channel after a trip retries or latches (R431). -/
def tripNext (n : Nat) (s : State) : State :=
  let c := slotCh s n
  if c.retryCount.toNat < ctlRetries c then
    slotTo n (offState c) (setSlot n { c with
      retryCount := c.retryCount + 1, retryActive := true
      retryEnd := s.aon + BitVec.ofNat 64 (ctlRetryMs c * msTicks) } s)
  else raiseFree 17 4 (source 9 n) (slotTo n .latched s)

/-- A trip of channel n (R431): gate off, the cause recorded and raised, Power Fault Detected for a breaker or fast trip,
the port told, a pending SLOT_POWER answered SLOT_TRIPPED (R443), and a retry or a latch. -/
def slotTrip (n : Nat) (cause : TripCause) (s : State) : State :=
  let s1 := gateOff n s
  let c := slotCh s1 n
  let s2 := raiseFree 17 (tripCode cause) (source 9 n) (setSlot n { c with trip := cause, trips := satAdd c.trips 1 } s1)
  let s3 := if cause = .ramp then s2 else slotSts n 1 s2
  tripNext n (slotReply n false (rep 0x0D06) (slotReply n true (rep 0x0D06) (slotDown n .link s3)))

/-! ## Power-on and power-off (R425, R435) -/

/-- A request for power: ctl.on sets. -/
def powerOn (n : Nat) (s : State) : State := slotReply n false (rep 2) (setOn n true s)

/-- A power-off request (R435): ctl.on clears, and a gate that is on gets PERST now and goes off 100 µs later. -/
def powerOff (n : Nat) (s : State) : State :=
  let s1 := slotReply n true (rep 2) (setOn n false s)
  let c := slotCh s1 n
  if c.gateOn then
    setPerst n true (setSlot n { c with offAt := some s.aon, perstFrom := none } s1)
  else match c.st with
    | .wait | .empty => slotReply n false ok s1
    | _ => s1

/-- A write of ctl (18, Slot registers): a change of on asks for power or takes it away. -/
def ctlWrite (n : Nat) (w : BitVec 64) (s : State) : State :=
  let c := slotCh s n
  let s1 := setSlot n { c with ctl := setFld (ctlMask w) 0 1 (b1 (ctlOn c)) } s
  if bit w 0 = ctlOn c then s1 else if bit w 0 then powerOn n s1 else powerOff n s1

/-- A write of gate_ctl: nothing while locked, and nothing for a word R442 refuses; an ilimit lowered to the present
current starts the breaker timer. -/
def gateWrite (n : Nat) (w : BitVec 64) (s : State) : State :=
  let c := slotCh s n
  if c.lock ∨ gateOk w = false then s
  else
    setSlot n { c with
      gateCtl := gateMask w
      breakerAt := if c.gateOn ∧ c.breakerAt = none ∧ gcIlimit w * 100 ≤ c.iout.toNat then some s.aon else c.breakerAt
      pgFrom := if c.gateOn ∧ gcIlimit w * 100 ≤ c.iout.toNat then none else c.pgFrom } s

/-! ## Reset (R441, 21 R494) -/

/-- Channel n after a cold reset: reset values, then the board table's, and a short pin that is closed starts its
debounce (R441). -/
def slotInit (n : Nat) (closed : Bool) (s : State) : Slot :=
  let c : Slot := { Slot.init with
    shortPin := closed, st := if closed then .debounce else .empty, closeAt := if closed then some s.aon else none
    since := stamp s, gateOffAt := some s.aon }
  match tabGet none s.boot.board.slot n with
  | none => c
  | some r =>
    { c with gateCtl := if gateOk (fld r 0 64) then gateMask (fld r 0 64) else c.gateCtl
             ctl := setFld (ctlMask (fld r 64 64)) 0 1 0, pgCfg := pgMask (fld r 128 64), lock := bit r 192 }

/-- Every channel after a cold reset. -/
def slotsReset (seated : BitVec 24) (s : State) : State :=
  { s with slot := { s.slot with
      slots := (List.range 24).foldl (fun t n => tabSet Slot.init t n (slotInit n (bit seated n) s)) []
      busUv := false, busOv := false, vselLost := false } }

end Sys2Proof.Machine
end

