-- ==== Sys2Proof/Machine/Port.lean ====
section
/-! DEFINITION. The CXL ports' commands: messages, link events and the 0x04 Nib family (CXL Ports). -/

namespace Sys2Proof.Machine

open Sys2Proof

/-! ## Messages -/

/-- The outcome of a request sent by port u as its response arrives: a completion toward the requester, a BIRsp toward the
BISnp's sender, or the answer of a CXL.io or CXL.cache request (R19). The DevLoad goes on unchanged (08 R206). -/
def answered (u : Nat) (m : Msg) (op : Op) (mv : MetaV) (data : BitVec 512) (poison : Bool) (devLoad : BitVec 2)
    (s : State) : State :=
  let x := queueXp s (u / 2)
  let back := match m.req with
    | .host h => h.setWidth 16
    | .device h => h.setWidth 16
    | .fabric _ f => f
    | _ => BitVec.ofNat 16 u
  if isRequest m.op then
    let c := completionMsg m op mv (if op = .memData then data else 0) (poison && decide (op = .memData))
    completeWith x m { c with devLoad := devLoad } false (countLat x m s)
  else if m.mclass = 3 then
    enqueue (xpOfReq s m.req)
      { m with op := op, mclass := 4, feid := BitVec.ofNat 16 u, inXp := BitVec.ofNat 6 x, data := 0, len := 0 } s
  else
    let c := { m with op := if m.mclass = 6 then .cacheRsp else .ioCompletion, feid := back, inXp := BitVec.ofNat 6 x,
                      data := data, poison := poison, len := if op = .ioCompletion ∨ op = .cacheRsp then 64 else 0 }
    enqueue (xpOfReq s m.req) c (ioGone m s)

/-- A response that port u receives: its tag names what it answers; one whose tag is free is discarded and counted (R19,
R238). -/
def responseIn (u : Nat) (tag : BitVec 16) (op : Op) (mv : MetaV) (data : BitVec 512) (poison : Bool) (devLoad : BitVec 2)
    (s : State) : State :=
  let p := port s u
  match tabGet none p.tags tag.toNat with
  | none => portCnt u 4 1 s
  | some t => answered u t.msg op mv data poison devLoad (setPort u { p with tags := tabSet none p.tags tag.toNat none } s)

/-- A message from a PBR link (R61, R75): a response returns through the tag map; anything else takes FEID = DPID and is
routed by that entry alone. Without a route a request completes in error, a non-posted CXL.io request with Unsupported
Request, and another message is discarded. -/
def pbrMessage (u : Nat) (q : PbrMsg) (s : State) : State :=
  match q.op with
  | .memData | .cmp | .cmpS | .cmpE | .biConflictAck | .birspI | .birspS | .birspE | .ioCompletion | .cacheRsp =>
    responseIn u q.tag q.op q.mv q.data q.poison 0 s
  | _ =>
    let x := queueXp s (u / 2)
    let m : Msg := { vc0Msg q.op q.tag.toNat (opLen q.op) q.data with
      mv := q.mv, mclass := opClass q.op, feid := q.dpid.setWidth 16, dev := q.dev, mask := q.mask, poison := q.poison
      req := .fabric (BitVec.ofNat 6 x) (q.spid.setWidth 16), inXp := BitVec.ofNat 6 x, born := s.tele.time }
    let s1 := countIn x m s
    match exitXp s q.dpid.toNat q.dev.toNat false with
    | some y => enqueue y m (trace m false y false s1)
    | none =>
      let s2 := decodeMiss (source 1 u) 6 q.dev.toNat s1
      if isRequest q.op then errorCompletion m s2
      else if q.op = .ioNonPosted then unsupported u m s2
      else portCnt u 4 1 s2

/-- CXL_FLIT_RECEIVE (R105, R242): a flit that fails CRC is retried; one that passes acknowledges messages of the replay
buffer and lets its messages in, on a port with ide = 1 only where the MAC that covers it has verified. The messages of a
PBR partner go on at once; others arrive by their own commands (log entry 124). -/
def execCxlFlitReceive (u : BitVec 7) (corrected : Bool) (check : FlitCheck) (hasMsg : Bool) (pbr : Option PbrMsg)
    (s : State) : Out :=
  let n := u.toNat
  if (port s n).inL0 = false then fin s
  else
    let s1 := if corrected then portCnt n 0 1 s else s
    if check.crcOk = false then fin (portCnt n 1 1 s1)
    else
      let s2 := setPort n { port s1 n with replay := (port s1 n).replay.drop check.acks.toNat } s1
      let s3 := if hasMsg then setL0p n { l0pOf s2 n with lastUse := s2.tele.time } s2 else s2
      match pbr with
      | some q =>
        if (port s n).st = .up ∧ (port s n).role = 3 ∧ (prFlag (govRec s n) 1 = false ∨ check.macOk) then fin (pbrMessage n q s3)
        else fin s3
      | none => fin s3

/-- CXL_RESPONSE_RECEIVE (R19, R238): the tag map names the requester, binding and tag that the response returns to; a
response whose tag is free is discarded and counted. -/
def execCxlResponseReceive (u : BitVec 7) (tag : BitVec 16) (op : Op) (mv : MetaV) (data : BitVec 512) (mark : RspMark)
    (s : State) : Out :=
  let p := port s u.toNat
  if p.st ≠ .up ∨ p.inL0 = false then fin s
  else fin (responseIn u.toNat tag op mv data mark.poison mark.devLoad s)

/-! ## The virtual switch's own registers (R239, R244 to R246) -/

/-- 32 bits of HDM decoder k of logical USP u, as the window in force gives them (R239, R240); the fields' places are CXL 3.2's
(log entry 125). -/
def hdmDecoderReg (s : State) (u k off : Nat) : BitVec 32 :=
  let w := tabGet 0 s.plan.active.window (u * 16 + k)
  let base := if winValid w then winBase w else 0
  let size := if winValid w then winSpan w * 2 ^ 30 else 0
  match off with
  | 0x00 => BitVec.ofNat 32 base
  | 0x04 => BitVec.ofNat 32 (base / 2 ^ 32)
  | 0x08 => BitVec.ofNat 32 size
  | 0x0C => BitVec.ofNat 32 (size / 2 ^ 32)
  | 0x10 => BitVec.ofNat 32 (winIg w + winIw w * 2 ^ 4 + 2 ^ 8 + nb (winValid w) * 2 ^ 10)
  | _ => 0

/-- Slot Capabilities of a logical DSP (R244); the fields' places are PCIe's (log entry 34). -/
def slotCapsWord (s : State) (u : Nat) : BitVec 32 :=
  let n := prSlot (portRec s (u / 2)) (u % 2)
  if n < 24 then BitVec.ofNat 32 (0x7B + (n + 1) * 2 ^ 19) else 0

/-- Slot Status of a logical DSP: the events, and Presence Detect State at bit 6 (R245). -/
def slotStsWord (s : State) (u : Nat) : BitVec 32 :=
  let n := prSlot (portRec s (u / 2)) (u % 2)
  (port s u).slotSts.setWidth 32 ||| BitVec.ofNat 32 (if n < 24 then nb (slotCh s n).prsntL * 2 ^ 6 else 0)

/-- Indicator control field of an LED: 1 on, 2 blink, 3 off (log entry 34). -/
def ledField (v : Nat) : Nat :=
  match v with
  | 2 => 1 | 3 => 2 | _ => 3

/-- Slot Control of a logical DSP: the slot's actual state (R246). -/
def slotCtlWord (s : State) (u : Nat) : BitVec 32 :=
  let n := prSlot (portRec s (u / 2)) (u % 2)
  let c := slotCh s n
  if n < 24 then
    BitVec.ofNat 32 (ledField (attnLed c) * 2 ^ 6 + ledField (pwrLed c) * 2 ^ 8 + nb (!c.gateOn) * 2 ^ 10)
  else 0

/-- What a read of a register of the virtual switch of USP u, through vPPB v, answers; none where the vPPB is not bound. -/
def switchReg (s : State) (u v : Nat) (r : SwitchReg) : Option (BitVec 32) :=
  match r with
  | .hdmDecoder k off => some (hdmDecoderReg s u k.toNat off.toNat)
  | .slotCapabilities => (vppbOf s u v).map fun b => slotCapsWord s b.port
  | .slotControl => (vppbOf s u v).map fun b => slotCtlWord s b.port
  | .slotStatus => (vppbOf s u v).map fun b => slotStsWord s b.port
  | .aer => some (tabGet (0, 0) s.mgmt.aer (u * 16 + v)).1

/-- A CXL.io or CXL.cache message, or a back-invalidation of an HDM-DB device, from port u to port `dst`, noted as
outstanding through vPPB v where it is a request (R241). `ld` is the logical device it goes to or comes from. -/
def ioSend (u dst v : Nat) (ld : Option (BitVec 4)) (op : Op) (tag : BitVec 16) (data : BitVec 512) (len : Nat) (up : Bool)
    (s : State) : State :=
  let x := queueXp s (u / 2)
  let m : Msg := { vc0Msg op tag.toNat len data with
    mclass := opClass op, feid := BitVec.ofNat 16 dst, inXp := BitVec.ofNat 6 x, born := s.tele.time, ld := ld
    req := if up then .device (BitVec.ofNat 7 u) else .host (BitVec.ofNat 7 u) }
  let noted := decide (op = .ioNonPosted) || decide (op = .cacheD2H) || decide (op = .cacheH2D)
  let s1 := if noted then { s with mgmt := { s.mgmt with ioOut := s.mgmt.ioOut ++ [(v, m)] } } else s
  let y := queueXp s (dst / 2)
  enqueue y m (countIn x m (trace m false y false s1))

/-- A message that the virtual switch routes nowhere: Unsupported Request for a non-posted CXL.io request, dropped
otherwise. -/
def ioRefuse (u : Nat) (up : Bool) (op : Op) (tag : BitVec 16) (s : State) : State :=
  if op = .ioNonPosted then
    unsupported u { vc0Msg op tag.toNat 0 0 with
      mclass := 5, req := if up then .device (BitVec.ofNat 7 u) else .host (BitVec.ofNat 7 u) } s
  else s

/-- A read of a register of the virtual switch is completed with its value (R239, R240, R244 to R246). -/
def ioOwn (u : Nat) (tag : BitVec 16) (value : BitVec 32) (s : State) : State :=
  let m : Msg := { vc0Msg .ioNonPosted tag.toNat 0 0 with mclass := 5, req := .host (BitVec.ofNat 7 u) }
  sendTo (completionMsg m .ioCompletion .noOp (value.setWidth 512) false) false s

/-- Whether the virtual switch answers a read of its register: its configuration space does so once step 8 of the boot is
complete; the HDM decoders, which are no configuration space, at any time (20 R478). -/
def switchReady (s : State) (r : SwitchReg) : Bool :=
  match r with
  | .hdmDecoder _ _ => true
  | .slotCapabilities | .slotControl | .slotStatus | .aer => decide (5 ≤ s.boot.stage.toNat)

/-- A configuration read that comes too early completes with Configuration Request Retry Status, which a completion without
success carries as 2, and Unsupported Request as 0 (20 R478; log entry 142). -/
def ioRetry (u : Nat) (tag : BitVec 16) (s : State) : State :=
  let m : Msg := { vc0Msg .ioNonPosted tag.toNat 0 0 with mclass := 5, req := .host (BitVec.ofNat 7 u) }
  sendTo (completionMsg m .ioCompletion .noOp 2 true) true s

/-- CXL_IO_MESSAGE (R61, R241): a message of CXL.io or CXL.cache, or a BISnp of an HDM-DB device, is routed by the
virtual switch: downward through the vPPB that PCIe routing names, upward from the LD bound to a vPPB to its host. A read that names a register of the virtual switch is answered
here. -/
def execCxlIoMessage (u : BitVec 7) (via : IoVia) (op : Op) (tag : BitVec 16) (data : BitVec 512) (len : BitVec 16)
    (s : State) : Out :=
  let n := u.toNat
  let p := port s n
  let k := (opClass op).toNat
  if p.st ≠ .up ∨ p.inL0 = false then fin s
  else if p.role = 1 ∧ (k = 5 ∨ k = 6) then
    match via with
    | .reg v r =>
      if op = .ioNonPosted ∧ switchReady s r = false then fin (ioRetry n tag s)
      else match switchReg s n v.toNat r with
      | some w => if op = .ioNonPosted then fin (ioOwn n tag w s) else fin s
      | none => fin (ioRefuse n false op tag s)
    | .vppb v =>
      match vppbOf s n v.toNat with
      | some b => fin (ioSend n b.port (n * 16 + v.toNat) b.ld op tag data len.toNat false s)
      | none => fin (ioRefuse n false op tag s)
  else if p.role = 2 ∧ (k = 5 ∨ k = 6 ∨ k = 3) then
    let ld := match via with | .vppb l => l | .reg l _ => l
    match vppbAt s n ld with
    | some v => fin (ioSend n (v / 16) v (some ld) op tag data len.toNat true s)
    | none => fin (ioRefuse n true op tag s)
  else fin s

/-- The CXL port that message m leaves on can take it: its output is not HELD, the port is UP and in L0, with credit for the
class, and a tag where it needs one (R19, R205, 05 R120). -/
def portTakes (s : State) (x : Nat) (credits : BitVec 8) (m : Msg) : Bool :=
  let u := outPort s x m
  notHeld s x && decide ((port s u).st = .up) && (port s u).inL0 && bit credits m.mclass.toNat && (!needsTag m || tagFree s x m)

/-- A message leaves on logical port u, under a tag of the port's own where it needs one and in the replay buffer otherwise,
with the LD-ID or PIDs that direct it (R18, R19, R74, Table 10-5). -/
def portSend (x u : Nat) (m : Msg) (s : State) : State :=
  let p := port s u
  let t := lowestTag p.tags p.tags.length 0
  let own := needsTag m
  let s1 := if own then
      setPort u { p with tags := tabSet none p.tags t (some { msg := m, since := s.tele.time }) } s
    else setPort u { p with replay := p.replay ++ [m] } s
  let s2 := setL0p u { l0pOf s1 u with lastUse := s1.tele.time } s1
  let sent := { m with tag := if own then BitVec.ofNat 16 t else m.tag }
  emit (.link (BitVec.ofNat 6 x) (BitVec.ofNat 7 u) (outLd s m) (outPids s m) sent) (egressNote x m s2)

/-- EGRESS_SELECT (R205): the transmitter of a CXL port's output takes the next message for which the partner's credits
allow its class. A Weft link serves its channels as it packs a flit (R206), and the proxy and the engines take their
messages by commands of their own; what crosses to xp 62 or 63 is delivered there (log entry 121). -/
def execEgressSelect (xp : BitVec 6) (credits : BitVec 8) (s : State) : Out := live s fun s =>
  let x := xp.toNat
  if 62 ≤ x then
    match pickStaged s x (fun m => bit credits m.mclass.toNat) with
    | none => fin s
    | some (sc, mc, e) => fin (emit (.inner xp (delivered e)) (egressNote x (delivered e) (takeStaged x sc mc e s)))
  else if 48 ≤ x then fin s
  else
    match pickStaged s x (portTakes s x credits) with
    | none => fin s
    | some (sc, mc, e) =>
      fin (portSend x (outPort s x e.msg) (delivered e) (takeStaged x sc mc e s))

/-! ## Link events -/

/-- PORT_SYMPTOM (R235): an uncommanded exit from L0, or a flit that 8 retries do not recover, starts the wait. -/
def execPortSymptom (u : BitVec 7) (retry : Bool) (s : State) : Out :=
  let n := u.toNat
  let p := port s n
  if (p.st = .up ∨ p.st = .confirm) ∧ p.inL0 ∧ p.symptom = none then
    let s1 := leaveL0 n s
    fin (setPort n { port s1 n with symptom := some (if retry then .retry else .link, s.tele.time) } s1)
  else fin s

/-- PORT_DOWN_DECLARE (R235, R236): down_detect_us after the first symptom the port is declared down. -/
def execPortDownDeclare (u : BitVec 7) (s : State) : Out :=
  let n := u.toNat
  match (port s n).symptom with
  | some (c, t) => fin (portDown n c (reach (t.toNat + prDetect (govRec s n) * usTicks) s))
  | none => fin s

/-- HOST_HOT_RESET (R234, R235): a Hot Reset or Link Disable of the host ends the session, whatever the port's state, and
declares the port down at once. -/
def execHostHotReset (u : BitVec 7) (s : State) : Out :=
  let n := u.toNat
  let p := port s n
  if p.role = 1 ∧ p.st ≠ .off then fin (portLost n .link (setPort n { p with session := p.session + 1 } s)) else fin s

/-- IDE_FAIL (R243): counted, raised at level 2, and the port declared down at once. -/
def execIdeFail (u : BitVec 7) (s : State) : Out :=
  let n := u.toNat
  let p := port s n
  if prFlag (govRec s n) 1 ∧ (p.st = .up ∨ p.st = .confirm) then
    fin (portDown n .ide (raiseFree 0 0x10 (source 1 n) (countErr (n / 2) (portCnt n 6 1 s))))
  else fin s

/-- What a training of port u may negotiate: a rate up to max_rate and to that of a PORT_RETRAIN under way, and a width of
lanes that its presets do not mark unused at that rate (R226, R232, R248, 12 R290). -/
def trainOk (s : State) (u rate width : Nat) (flit256 lopt : Bool) : Bool :=
  let r := govRec s u
  let cap := match (port s u).rateCap with | some k => k.toNat | none => 7
  decide (rate ≤ prRate r) && decide (rate ≤ cap) && [1, 2, 4, 8, 16].contains width
  && decide (width ≤ (lanesOf s u).length)
  && (((lanesOf s u).take width).all fun l => !psUnused (presetOf s l rate))
  && (flit256 || (decide (rate ≤ 4) && !lopt)) && (!lopt || prFlag r 0)

/-- The link of port u is in L0 at a rate, width and flit format (R232). -/
def linkAt (u : Nat) (rate : BitVec 3) (width : BitVec 5) (flit256 lopt : Bool) (s : State) : State :=
  let s0 := enterL0 u s
  let s1 := setPort u { port s0 u with rate := rate, width := width, trained := width, flit256 := flit256, lopt := lopt,
                                       l0p := false } s0
  let ls := lanesOf s u
  let s2 := lanesTo .off 0 (ls.drop width.toNat) (lanesTo .l0 rate.toNat (ls.take width.toNat) s1)
  let s3 := setL0p u { l0pOf s2 u with lastUse := s2.tele.time, widenAt := none, failAt := none, l1 := false } s2
  if width.toNat < ls.length then raiseFree 0 2 (source 1 u) s3 else s3

/-- Logical port u can train: its domain is ON, and the bay slot wired to it, if one is, has power good (17 R400,
18 R427). -/
def portReady (s : State) (u : Nat) : Bool :=
  let d := domain s (104 + u / 2)
  let n := prSlot (portRec s (u / 2)) (u % 2)
  decide (d.st = .on ∧ d.step = 0) && (decide (24 ≤ n) || (slotCh s n).pg)

/-- PORT_L0_ENTRY (R232, R235, R237, R248): a return within down_detect_us, with retry recovered where retry was the
symptom, counts as a recovery, and a later one finds the port declared down; a commanded retrain returns to UP at once; any
other training enters CONFIRM. -/
def execPortL0Entry (u : BitVec 7) (rate : BitVec 3) (width : BitVec 5) (flit256 lopt recovered : Bool) (s : State) :
    Out :=
  let n := u.toNat
  let p := port s n
  match p.symptom with
  | some (c, t) =>
    if t.toNat + prDetect (govRec s n) * usTicks < now s then fin (portDown n c s)
    else if p.inL0 = false ∧ trainOk s n rate.toNat width.toNat flit256 lopt = false then fin s
    else
      let s1 := if p.inL0 then s else linkAt n rate width flit256 lopt s
      if c = .retry ∧ recovered = false then fin s1
      else
        let s2 := portCnt n 2 1 s1
        fin (setPort n { port s2 n with symptom := none, recoveries := p.recoveries + 1 } s2)
  | none =>
    if p.inL0 ∨ trainOk s n rate.toNat width.toNat flit256 lopt = false then fin s
    else if p.retrain.isSome ∧ p.recorded ∧ p.isDown = false then
      let s1 := slotEvent n 8 (linkAt n rate width flit256 lopt s)
      fin (biClock n (setPort n { port s1 n with st := .up, since := stamp s1, retrain := none, rateCap := none } s1))
    else if p.st = .training ∧ portReady s n then
      let s1 := linkAt n rate width flit256 lopt s
      fin (setPort n { port s1 n with st := .confirm, since := stamp s1, retrain := none, rateCap := none, idDiffers := false,
                                      pendingIdent := 0, pendingLdMap := 0, confirmRaised := false } s1)
    else fin s

/-- The identity of a partner is recorded: a serial number and LD map, or a USP's session (Table 10-4). -/
def recordIdent (u : Nat) (ident ldMap : BitVec 64) (s : State) : State :=
  let p := port s u
  if p.role = 1 then setPort u { p with recorded := true, ident := p.session, ldMap := 0 } s
  else setPort u { p with recorded := true, ident := ident, ldMap := ldMap, mld := decide (fnat ldMap 0 5 ≠ 0) } s

/-- The identity of port u's partner equals the recorded one (Table 10-4). -/
def sameIdent (p : Port) (ident ldMap : BitVec 64) : Bool :=
  if p.role = 1 then decide (p.session = p.ident)
  else decide (ident = p.ident) && (decide (p.role ≠ 2) || decide (ldMap = p.ldMap))

/-- A new session of a USP's host: its held cells are purged, the proxy treats the old host as departed, and its virtual switch
returns to its reset state (R234, R237). -/
def newHost (u : Nat) (s : State) : State :=
  let x := queueXp s (u / 2)
  depart u (switchReset u (purge (fun m => decide (outPort s x m = u)) x s))

/-- The IDE streams of port u are keyed (R242, 19 Table 19-5): by its host through IDE_KM on an upstream port; by the
management core, with keys drawn from the random source, on a downstream or PBR port whose partner takes them. -/
def ideKeyed (u : Nat) (taken : Bool) (s : State) : Option State :=
  let p := port s u
  if p.role = 1 then if p.ideOpen = 3 then some (setPort u { p with ideSecure := true } s) else none
  else if taken = false ∨ s.sealu.entropyFail ∨ s.mgmt.fw ≠ .running then none
  else
    let s1 := tookFree s
    some (tookFree (setPort u { p with
      ideSecure := true, ideOpen := 3, ideKeys := [(0, some (freeVal 256 s)), (1, some (freeVal 256 s1))] } s1))

/-- PORT_CONFIRM (R233, R237, R242): once the identity is read and IDE is Secure where it is required (`secure`: a downstream
or PBR partner takes the keys), the port reaches UP, or at a DSP or PBR port with a differing partner stays in CONFIRM with what it held purged. -/
def execPortConfirm (u : BitVec 7) (ident ldMap : BitVec 64) (secure : Bool) (s : State) : Out :=
  let n := u.toNat
  let p := port s n
  if p.st ≠ .confirm ∨ p.inL0 = false ∨ p.idDiffers then fin s
  else
    match if prFlag (govRec s n) 1 then ideKeyed n secure s else some s with
    | none => fin s
    | some s0 =>
      let s1 := expireDue (queueXp s0 (n / 2)) n s0
      if p.recorded = false ∨ sameIdent p ident ldMap then fin (portUp n (recordIdent n ident ldMap s1))
      else if p.role = 1 then fin (portUp n (recordIdent n ident ldMap (newHost n s1)))
      else fin (identityDiffers n ident ldMap s1)

/-- CONFIRM_TIMEOUT (R233): 2 ms after entering L0 a DSP or PBR port still in CONFIRM raises PORT-0x0003, once. -/
def execConfirmTimeout (u : BitVec 7) (s : State) : Out :=
  let n := u.toNat
  let p := port s n
  if p.st = .confirm ∧ (p.role = 2 ∨ p.role = 3) ∧ p.confirmRaised = false then
    fin (raiseFree 0 3 (source 1 n)
      (setPort n { p with confirmRaised := true } (reach (p.l0At.toNat + 2 * msTicks) s)))
  else fin s

/-- PORT_TAG_TIMEOUT (R238): a request's tag outstanding longer than tag_timeout_ms completes in error, a CXL.io or CXL.cache
request's as Table 10-5 gives, and is freed; a BISnp's is not timed. -/
def execPortTagTimeout (u : BitVec 7) (tag : BitVec 16) (s : State) : Out :=
  let n := u.toNat
  let p := port s n
  match tabGet none p.tags tag.toNat with
  | none => fin s
  | some t =>
    if t.msg.mclass = 3 ∨ p.inL0 = false then fin s
    else
      let s1 := reach (t.since.toNat + prTagMs (govRec s n) * msTicks) s
      let s2 := setPort n { p with tags := tabSet none p.tags tag.toNat none } s1
      fin (raiseFree 0 0x20 (source 1 n) (portCnt n 5 1 (resolveSent n t.msg s2).2))

/-- RETRAIN_TIMEOUT (R248): a commanded retrain not in L0 within 100 ms declares the port down. -/
def execRetrainTimeout (u : BitVec 7) (s : State) : Out :=
  let n := u.toNat
  match (port s n).retrain with
  | some t => fin (portDown n .link (reach (t.toNat + 100 * msTicks) s))
  | none => fin s

/-- PORT_COMMAND_COMPLETE (R248): the oldest pending command of the port completes once it is UP or OFF, or after 100 ms
with TIMEOUT. -/
def execPortCommandComplete (u : BitVec 7) (s : State) : Out :=
  let n := u.toNat
  let p := port s n
  match p.cmds with
  | [] => fin s
  | c :: cs =>
    let done := decide (p.st = .up) || decide (p.st = .off)
    let s1 := if done then s else reach (c.since.toNat + 100 * msTicks) s
    fin (finishTicket c.ticket (if done then ok else rep 0x70) (setPort n { p with cmds := cs } s1))

/-- RECEIVER_DETECT (R231): a partner is found and the port trains, the first time or again after a down; its lanes equalise
from their presets (R292). -/
def execReceiverDetect (u : BitVec 7) (s : State) : Out :=
  let n := u.toNat
  if ((port s n).st = .detect ∨ (port s n).st = .down) ∧ portReady s n then fin (equalise 0 (lanesOf s n) (setPortSt n .training s)) else fin s

/-- HDM_DECODER_WRITE (R240): a host write to an HDM decoder field is ignored. -/
def execHdmDecoderWrite (_u : BitVec 7) (_decoder : BitVec 4) (_offset : BitVec 8) (_value : BitVec 32) (s : State) :
    Out := fin s

/-! ## The 0x04 Nib family (R248) -/

/-- A command that names a port by number and half. -/
def portCommand (port_ half : BitVec 8) (body : Nat → State → Reply × State) (s : State) : Reply × State :=
  if 1 < half.toNat then (badField 1, s)
  else if halfExists s port_.toNat half.toNat then body (2 * port_.toNat + half.toNat) s
  else (rep 0x0401, s)

/-- A command that pends until the port is UP or OFF. -/
def portPend (op : Nat) (r : Req) (u kind : Nat) (f : State → State) (s : State) : Reply × State :=
  pend op r (fun t s =>
    let s1 := f s
    let p := port s1 u
    setPort u { p with cmds := p.cmds ++ [{ ticket := t, kind := BitVec.ofNat 2 kind, since := s.tele.time }] } s1) s

/-- PORT_STATUS (R248). -/
def execPortStatus (r : Req) (port_ half : BitVec 8) (s : State) : Out :=
  command 0x0401 false r (wBytes 1 port_ ++ wBytes 1 half) (portCommand port_ half fun u s =>
    let p := port s u
    (ok (wBytes 8 (portStatusWord p) ++ wBytes 8 (portLinkWord p) ++ wBytes 8 p.ident ++ wBytes 8 p.ldMap
      ++ wBytes 8 (if p.idDiffers then p.pendingIdent else 0)
      ++ ((List.range 8).map fun k => wBytes 8 (tabGet 0 p.cnt k)).flatten), s)) s

/-- PORT_ACCEPT_IDENTITY (R248): the current partner is recorded and the port may reach UP, at once where it is in L0. -/
def execPortAcceptIdentity (r : Req) (port_ half : BitVec 8) (s : State) : Out :=
  command 0x0402 false r (wBytes 1 port_ ++ wBytes 1 half) (portCommand port_ half fun u s =>
    let p := port s u
    if p.st = .confirm ∧ p.idDiffers then
      (ok (wBytes 8 p.pendingIdent),
        let s1 := recordIdent u p.pendingIdent p.pendingLdMap (setPort u { p with idDiffers := false } s)
        if p.inL0 then portUp u s1 else s1)
    else (rep 0x0402, s)) s

/-- PORT_RETRAIN (R248). -/
def execPortRetrain (r : Req) (port_ half rate : BitVec 8) (s : State) : Out :=
  command 0x0403 false r (wBytes 1 port_ ++ wBytes 1 half ++ wBytes 1 rate) (portCommand port_ half fun u s =>
    if 6 < rate.toNat then (badField 2, s)
    else if prRate (govRec s u) < rate.toNat then (rep 0x0403, s)
    else portPend 0x0403 r u 0 (retrainPort u (some (rate.setWidth 3))) s) s

/-- PORT_DISABLE (R248): Link Disable, and down in every respect of R236. -/
def execPortDisable (r : Req) (port_ half : BitVec 8) (s : State) : Out :=
  command 0x0404 false r (wBytes 1 port_ ++ wBytes 1 half) (portCommand port_ half fun u s =>
    portPend 0x0404 r u 1 (fun s => portStop u (setPort u { port s u with disabled := true } s)) s) s

/-- PORT_ENABLE (R248); BUSY while a lane test runs on the port (12 R300). -/
def execPortEnable (r : Req) (port_ half : BitVec 8) (s : State) : Out :=
  command 0x0405 false r (wBytes 1 port_ ++ wBytes 1 half) (portCommand port_ half fun u s =>
    if (lanesOf s u).any fun l => (lane s l).testing then (rep 2, s)
    else portPend 0x0405 r u 2 (fun s => portRelease u (setPort u { port s u with disabled := false } s)) s) s

/-- PORT_COUNTERS_CLEAR (R248). -/
def execPortCountersClear (r : Req) (port_ half : BitVec 8) (s : State) : Out :=
  command 0x0406 false r (wBytes 1 port_ ++ wBytes 1 half) (portCommand port_ half fun u s =>
    (ok, setPort u { port s u with cnt := [] } s)) s

end Sys2Proof.Machine
end

