-- ==== Sys2Proof/Machine/DomainOps.lean ====
section
/-! DEFINITION. Shared operations of the PMU over domains: what they may do, their wakes and restores, the stages of an
entry and the order of an exit (Power Domains and Low-Power States). -/

namespace Sys2Proof.Machine

open Sys2Proof

/-! ## Limits (Table 17-3) -/

/-- Lowest state in RUN of a group: OFF, or ON where the table allows none. -/
def groupLowest (g : Nat) : Nat := if g = 4 ∨ g = 6 ∨ g = 7 ∨ g = 10 ∨ g = 12 then 0 else 3

/-- Idle timer of a group, µs; the management group has none. -/
def groupIdle (g : Nat) : Nat :=
  if g = 5 ∨ g = 8 then 100
  else if g = 9 then 10
  else if g = 0 ∨ g = 1 ∨ g = 2 ∨ g = 11 then 1000
  else if g = 12 then 0
  else 10000

/-- Lowest RUN state of a domain in force. -/
def lowestOf (s : State) (d : Nat) : Nat :=
  match (domain s d).lowest with
  | some v => v.toNat
  | none => groupLowest (groupOf d)

/-- Idle timer of a domain before the multiplier, µs. -/
def idleOf (s : State) (d : Nat) : Nat :=
  match (domain s d).idleUs with
  | some v => v.toNat
  | none => groupIdle (groupOf d)

/-- Multiplier of group g. -/
def multOf (s : State) (g : Nat) : BitVec 7 := tabGet 1 s.pmu.mult g

/-- Time at which a domain's effective idle timer ends. -/
def idleEnd (s : State) (d : Nat) : Nat :=
  (domain s d).lastUse.toNat + idleOf s d * (multOf s (groupOf d)).toNat * usTicks

/-- State a Table 17-2 value names. -/
def domStOf (n : Nat) : DomSt :=
  match n with
  | 0 => .on | 1 => .gated | 2 => .ret | _ => .off

/-- Value of a domain state (Table 17-2). -/
def domNum (d : DomSt) : Nat :=
  match d with
  | .on => 0 | .gated => 1 | .ret => 2 | .off => 3

/-! ## What a domain is doing -/

/-- The output of xp x has messages queued. -/
def queued (s : State) (x : Nat) : Bool := !(voqsTo s (queueXp s x)).isEmpty

/-- A channel of engine e is busy, or a fetched descriptor may be given to it (R162). -/
def engineBusy (s : State) (e : Nat) : Bool :=
  !(channels s e).isEmpty || decide (engineFlight s e ≠ 0)
    || s.scribe.descs.any fun d => decide (d.stage = .ready) && bit (inst s d.inst.toNat).engineMask e

/-- A counter set, a dump, the heat map or the trace is enabled. -/
def teleEnabled (s : State) : Bool :=
  s.tele.sets.any (fun p => p.2.enable) || s.tele.window.isSome || decide (s.tele.dumpK ≠ 0) || s.tele.heatOn || s.tele.traceOn

/-- An SPDM or IDE_KM exchange is in progress. -/
def sealBusy (s : State) : Bool := !s.sealu.spdm.isEmpty || decide (s.sealu.sessions ≠ 0) || !s.sealu.appends.isEmpty

/-- Slice k holds a tracker or a parked message. -/
def sliceBusy (s : State) (k : Nat) : Bool :=
  let v := slice s k
  !(v.trackers.isEmpty && v.wbs.isEmpty && v.evicts.isEmpty && v.park.isEmpty && v.waits.isEmpty)

/-- The output of xp x holds messages in staging, or cells on their way there. -/
def staged (s : State) (x : Nat) : Bool := (List.range 8).any fun c => decide (stagingUsed s (queueXp s x) c ≠ 0)

/-- Logical port u stands in the way of a staged entry: TRAINING, CONFIRM or UP, or DOWN with held cells, queued or
staged. -/
def portBusy (s : State) (u : Nat) : Bool :=
  match (port s u).st with
  | .training | .confirm | .up => true
  | .down => queued s (u / 2) || staged s (u / 2)
  | _ => false

/-- Woven pairs that word k of a weave fixes. -/
def wordPairs (w : Tab (BitVec 1024)) (k : Nat) : Nat :=
  ((List.range 64).filter fun i => bit (tabGet 0 w k) (16 * i + 15)).length

/-- Woven pairs fixed in the fullest slot of a weave, both planes together. -/
def weaveMax (w : Tab (BitVec 1024)) : Nat :=
  (List.range 1280).foldl (fun n k => max n (wordPairs w k + wordPairs w (1280 + k))) 0

/-- W of R399: that of the weave in force, or of one that is loaded and waits for its boundary. -/
def wovenMax (s : State) : Nat :=
  let due := match s.plan.weaveDue with
    | some (some w) => weaveMax w
    | _ => 0
  max (weaveMax (weaveNow s)) (max due (if s.plan.shadowState = .armed then weaveMax s.plan.shadow.weave else 0))

/-- Banks that are ON. -/
def banksOn (s : State) : List Nat := (List.range 16).filter fun b => decide ((domain s (170 + b)).st = .on)

/-- Free cells of a list of banks. -/
def freeIn (s : State) (bs : List Nat) : Nat := (bs.map fun b => 40960 - bankUsed s b).sum

/-- Banks that bandwidth asks for: ceil(W ÷ 12) + 2 (R399). -/
def banksNeeded (s : State) : Nat := (wovenMax s + 11) / 12 + 2

/-- Whether Table 17-3 lets domain d leave ON in RUN. -/
def mayIdle (s : State) (d : Nat) : Bool :=
  let off := fun (u : Nat) => decide ((port s u).st = .off)
  match groupOf d with
  | 0 => (List.range 4).all fun i => decide ((lane s (4 * d + i)).st = .off)
  | 1 => off (2 * (d - 104)) && off (2 * (d - 104) + 1)
  | 2 => decide ((weft s (d - 152)).st = .off)
  | 3 =>
    let n := d - 160
    ((List.range 12).all fun i => off (12 * n + i)) && decide ((weft s n).st = .off)
  | 5 =>
    let b := d - 170
    let rest := (banksOn s).filter fun x => decide (x ≠ b)
    decide (bankUsed s b = 0) && decide (65536 ≤ freeIn s rest) && decide (banksNeeded s ≤ rest.length)
  | 8 =>
    let k := (d - 191) / 2 * 2
    !(sliceBusy s k || sliceBusy s (k + 1))
  | 9 => !engineBusy s (d - 199)
  | 11 => !teleEnabled s
  | 13 => !sealBusy s
  | _ => false

/-! ## Leaving ON -/

/-- Every changed entry of slice k's directory cache is written back, and the cache restarts empty (R398, 06 R146). -/
def sliceSleep (k : Nat) (s : State) : State :=
  let s1 := (slice s k).dir.foldl (fun s p => match p.2 with
    | some w => dirWriteBack (dirSa w) w s
    | none => s) s
  setSlice k { slice s1 k with dir := [], dirPtr := [] } s1

/-- The retention signatures of a domain's banks; their data words are not modelled as bits, so each is a free value
(R410; log entry 48). -/
def storeSigs (d : Nat) (s : State) : State :=
  (List.range (min 16 (Config.retBanks d))).foldl (fun s b =>
    tookFree { s with pmu := { s.pmu with sigs := tabSet 0 s.pmu.sigs (d * 16 + b) (freeVal 32 s) } }) s

/-- Domain d goes to a state below ON, with what leaving it loses (R398, R410; log entry 49). -/
def sleepTo (d : Nat) (v : DomSt) (s : State) : State :=
  let s1 := if groupOf d = 8 then sliceSleep (d - 191) s else if groupOf d = 11 ∧ v = .off then teleLost s else s
  let s2 := if v = .ret then storeSigs d s1 else s1
  setDomain d { domain s2 d with st := v, step := 0, misses := 0 } s2

/-- The domains that leave and reenter ON with domain d: its slice pair (R398). -/
def together (d : Nat) : List Nat := if groupOf d = 8 then [191 + (d - 191) / 2 * 2, 191 + (d - 191) / 2 * 2 + 1] else [d]

/-! ## Wakes and restores (R400, R407) -/

/-- The one reset of a plane that was declared lost begins: its domain's restore without retention (04 R112; log entry
126). -/
def planeResetStart (d : Nat) (s : State) : State :=
  let v := domain s d
  let p := plane s (d - 168)
  if groupOf d = 4 ∧ v.st = .off ∧ v.dead = false ∧ p.st = .down ∧ p.checkFail = false then
    planeTest (d - 168) (setDomain d { v with step := 1, fromRet := false, misses := 0 } s)
  else s

/-- Work wakes a domain, its slice pair together (R398, R400). -/
def wake (d : Nat) (s : State) : State := (together d).foldl (fun s x => restore x s) s

/-- The rails of an exit stand at their RUN targets. -/
def railsUp (s : State) : Bool := railUp s 0 && railUp s 1 && railUp s 2 && railUp s 3

/-- Domain d is to come back in an exit from DOZE: ON before the entry, of a group that does not wait for demand
(Table 17-7); of the banks the two lowest; a lost stack and a dead domain stay. -/
def comesBack (s : State) (d : Nat) : Bool :=
  let g := groupOf d
  let v := domain s d
  decide (v.st ≠ .on) && !v.dead
    && (if g = 5 then decide (d < 172)
        else if g = 10 then decide ((stackOf s (d - 215)).st = .up)
        else decide (g = 0 ∨ g = 1 ∨ g = 2 ∨ g = 3 ∨ g = 4 ∨ g = 6 ∨ g = 7) && decide (tabGet .on s.pmu.before d = .on))

/-- Groups of an exit in their order: the reverse of Table 17-5. -/
def exitOrder : List (List Nat) := [[10], [0, 3], [6, 7], [4], [5], [1, 2]]

/-- Domains of the first groups of an exit that are not all back. -/
def exitFront (s : State) : List Nat :=
  match exitOrder.find? fun gs => (List.range 220).any fun d => gs.contains (groupOf d) && comesBack s d with
  | none => []
  | some gs => (List.range 220).filter fun d => gs.contains (groupOf d) && comesBack s d

/-- An exit from DOZE goes on: with the rails up, the next groups' restores begin (R407, R408); so does a rollback (R404). -/
def exitNext (s : State) : State :=
  if s.pmu.st = .doze ∧ s.pmu.exiting ∧ railsUp s then (exitFront s).foldl (fun s d => restore d s) s else rollNext s

/-! ## Staged entry (R403, Table 17-5) -/

/-- Domains of a stage. -/
def stageDomains (stage : Nat) : List Nat :=
  let gs := match stage with
    | 1 => [9] | 2 => [11] | 3 => [13] | 4 => [8] | 5 => [1, 2] | 6 => [5] | 7 => [4] | 8 => [7] | 9 => [6]
    | 10 => [3, 0] | 11 => [10] | 12 => [12] | _ => []
  (List.range 220).filter fun d => gs.contains (groupOf d)

/-- Whether domain d refuses its stage. -/
def refuses (s : State) (d : Nat) : Bool :=
  match groupOf d with
  | 9 => engineBusy s (d - 199)
  | 11 => teleEnabled s
  | 13 => sealBusy s
  | 8 => sliceBusy s (d - 191)
  | 1 => portBusy s (2 * (d - 104)) || portBusy s (2 * (d - 104) + 1)
  | 2 => decide ((weft s (d - 152)).st ≠ .off)
  | 5 => decide (bankUsed s (d - 170) ≠ 0) || s.xbar.voqs.any fun p => !p.2.res.isEmpty
  | 7 => decide (s.plan.shadowState ≠ .empty)
  | 6 => decide (s.plan.shadowState ≠ .empty) || decide (s.plan.work ≠ .idle)
  | 10 => !(memType s (8 + (d - 215))).rowCopies.isEmpty
  | 12 => ((List.range 4).any fun m => (mbx s m).busy) || !s.mgmt.mctpWait.isEmpty
      || s.mgmt.tickets.any fun t => t.result.isNone
  | _ => false

/-- Ports whose lanes quad q carries: receiver detect stays on for one in detect_mask (Table 17-3). -/
def quadDetect (s : State) (q : Nat) : Bool := decide (q < 96) && bit s.pmu.detectMask (q / 2)

/-- State a domain takes in an entry (Tables 17-3, 17-4). -/
def entryState (s : State) (d : Nat) : DomSt :=
  if s.pmu.toStandby then .off
  else
    match groupOf d with
    | 0 => if quadDetect s d then .gated else .off
    | 6 | 7 => .ret
    | 10 => .gated
    | 12 => .on
    | _ => .off

/-- The domains of a stage stop; one that lies lower already stays. -/
def stopStage (stage : Nat) (s : State) : State :=
  (stageDomains stage).foldl (fun s d =>
    if domNum (domain s d).st < domNum (entryState s d) then sleepTo d (entryState s d) s else s) s

/-- A staged entry begins (R401, R403). -/
def beginEntry (standby : Bool) (ticket : Option (BitVec 16)) (s : State) : State :=
  let before := s.pmu.doms.foldl (fun t p => tabSet .on t p.1 p.2.st) []
  { s with pmu := { s.pmu with
      entering := true, toStandby := standby, stage := 1, ticket := ticket, before := before, stage12 := none
      stage12Ticket := none, departAsked := false } }

/-- Target of rail r in the state being entered, mV; off is 0 (Table 17-8). -/
def lowMv (standby : Bool) (r : Nat) : BitVec 16 :=
  if standby then 0
  else
    match r with
    | 0 => 600 | 1 => 650 | 2 => 650 | _ => Config.fusedMv 3

/-- The entry is complete: DOZE or STANDBY (R401), multipliers of the groups that took part back at 1 (R404), the
command's result stored. -/
def enterState (s : State) : State :=
  let st := if s.pmu.toStandby then DevSt.standby else .doze
  let s1 := { s with pmu := { s.pmu with
      st := st, entering := false, stage := 0, ticket := none
      mult := if s.pmu.toStandby then [] else tabFilter (fun g _ => decide (g = 12)) s.pmu.mult
      rails := if s.pmu.toStandby then (List.range 4).foldl (fun t r =>
          tabSet Rail.init t r { tabGet Rail.init t r with enable := false }) s.pmu.rails
        else s.pmu.rails } }
  match s.pmu.ticket with
  | none => s1
  | some t => finishTicket t (ok (wBytes 8 s1.pmu.lastAbort)) s1

/-- Stage 13: the rails go down, VCORE before VSRAM; with all of them there the state is entered (R412). -/
def railStage (s : State) : State :=
  let low := lowMv s.pmu.toStandby
  let at_ := fun r => decide ((railOf s r).target = low r)
  if (List.range 4).any fun r => (railOf s r).change.isSome then s
  else if !(at_ 0 && at_ 2 && at_ 3) then
    [0, 2, 3].foldl (fun s r => if (railOf s r).target = low r then s else railStart r (low r) s) s
  else if !(at_ 1) then railStart 1 (low 1) s
  else enterState s

/-- The stage after one is complete: stage 12 is for STANDBY alone. -/
def nextStage (standby : Bool) (stage : Nat) : Nat := if stage = 11 ∧ standby = false then 13 else stage + 1

/-- Stage 11 of a STANDBY entry is complete: the command's result is OK, and stage 12 waits for its fetch or 10 ms
(R420). -/
def standbyReport (s : State) : State :=
  let s1 := { s with pmu := { s.pmu with
      ticket := none, stage12 := some (s.tele.time + BitVec.ofNat 64 (10 * msTicks)), stage12Ticket := s.pmu.ticket } }
  match s.pmu.ticket with
  | none => s1
  | some t => finishTicket t (ok (wBytes 8 s1.pmu.lastAbort)) s1

/-- The domains of a stage are asked: one that refuses aborts the entry; else they stop and the stage is complete. -/
def runStage (stage : Nat) (s : State) : State :=
  match (stageDomains stage).find? fun d => refuses s d with
  | some d => abortEntry 0 d s
  | none =>
    let s1 := stopStage stage s
    let s2 := { s1 with pmu := { s1.pmu with stage := BitVec.ofNat 4 (nextStage s1.pmu.toStandby stage) } }
    if stage = 11 ∧ s.pmu.toStandby then standbyReport s2 else s2

/-- Stage 4 of a STANDBY entry: every logical upstream port departs, and the sweeps are waited for. -/
def departStage (s : State) : State :=
  match (stageDomains 4).find? fun d => refuses s d with
  | some d => abortEntry 0 d s
  | none =>
    if s.pmu.departAsked = false then
      let s1 := { s with pmu := { s.pmu with departAsked := true } }
      ((List.range 96).filter fun u => decide ((port s u).role = 1)).foldl (fun s u => depart u s) s1
    else if s.proxy.sweeps.isEmpty then runStage 4 s
    else s

end Sys2Proof.Machine
end

