-- ==== Sys2Proof/Machine/Power.lean ====
section
/-! DEFINITION. Commands of the PMU: idle domains, restores, staged entry, exit, rails and the 0x0C family (Power
Domains and Low-Power States). -/

namespace Sys2Proof.Machine

open Sys2Proof

/-! ## Domains in RUN (R400, R402) -/

/-- The device is in RUN with no entry, and no rollback of one, under way. -/
def running (s : State) : Bool := decide (s.pmu.st = .run) && !s.pmu.entering && !s.pmu.rolling

/-- A one-stage entry refused by a demand: the domain stays ON, and R404 applies to its group. -/
def refuseIdle (d : Nat) (s : State) : State :=
  let s1 := doubleMult (groupOf d) s
  raiseFree 16 1 (source 0 0) { s1 with pmu := { s1.pmu with lastAbort := abortWord 0 0 d 0 (stamp s1) } }

/-- DOMAIN_IDLE_ENTRY (R402): the idle timer of a domain ends while Table 17-3 allows it to leave ON; a demand that comes
meanwhile is a refusal. A slice takes its pair along (R398). -/
def execDomainIdleEntry (d : BitVec 8) (demand : Bool) (s : State) : Out :=
  let n := d.toNat
  let v := domain s n
  if 219 < n ∨ running s = false ∨ v.st ≠ .on ∨ v.step ≠ 0 ∨ v.auto = false ∨ lowestOf s n = 0 ∨ mayIdle s n = false then
    fin s
  else
    let s1 := reach ((together n).foldl (fun t x => max t (idleEnd s x)) 0) s
    if demand then fin (refuseIdle n s1)
    else fin ((together n).foldl (fun s x => sleepTo x (domStOf (lowestOf s n)) s) s1)

/-- DOMAIN_WAKE (R400): work for a domain that is not ON wakes it. -/
def execDomainWake (d : BitVec 8) (s : State) : Out :=
  if 219 < d.toNat ∨ running s = false then fin s else fin (wake d.toNat s)

/-- BANK_WAKE (R399): the lowest-numbered OFF bank is woken when free cells run low, when the weave asks for more banks,
or when the ON banks' ports were taken in more than half the cycles of 1 µs (`busy`). -/
def execBankWake (busy : Bool) (s : State) : Out :=
  let on := banksOn s
  let s1 := if busy then on.foldl (fun s b => setDomain (170 + b) { domain s (170 + b) with lastUse := s.tele.time } s) s
    else s
  if running s ∧ (busy ∨ freeIn s on < 32768 ∨ on.length < banksNeeded s) then
    match (List.range 16).find? fun b => decide ((domain s (170 + b)).st = .off) with
    | some b => fin (restore (170 + b) s1)
    | none => fin s1
  else fin s

/-! ## Restore (R407, R410, R411) -/

/-- The signatures of a domain's banks are checked: those named in `bad` fail, each with PMU-0x0031 (R410, R411). -/
def checkSigs (d : Nat) (bad : BitVec 16) (s : State) : State :=
  let banks := List.range (min 16 (Config.retBanks d))
  let fails := banks.filter fun b => bit bad b
  let s1 := { s with pmu := { s.pmu with
      retPassed := s.pmu.retPassed + BitVec.ofNat 32 (banks.length - fails.length)
      retFailed := satAdd s.pmu.retFailed fails.length } }
  let s2 := fails.foldl (fun s b => raise 16 0x31 (source 0 0) (BitVec.ofNat 64 (d + b * 256)) s) s1
  if fails.isEmpty then s2 else setDomain d { domain s2 d with reload := true } s2

/-- Domain d is ON again; an engine leaves its reset, and what waited for a decode goes on (R407, 07 R176). -/
def domainOn (d : Nat) (s : State) : State :=
  let s1 := setDomain d { domain s d with st := .on, step := 0, fromRet := false, misses := 0, lastUse := s.tele.time } s
  let s2 := if groupOf d = 9 then setEngine (d - 199) { engine s1 (d - 199) with resetting := false } s1 else s1
  exitNext (if retained d then unblock s2 else s2)

/-- DOMAIN_RESTORE_STEP (R407): the ready signal of the step waited for arrives; after memory come the signature checks,
after logic the domain is ON. A plane's logic step ends with its self-check, and the reset of a lost plane begins with the first
(log entry 126). -/
def execDomainRestoreStep (d : BitVec 8) (bad : BitVec 16) (s : State) : Out :=
  let n := d.toNat
  let v := domain s n
  if 219 < n then fin s
  else
    match v.step.toNat with
    | 0 => fin (planeResetStart n s)
    | 1 => fin (setDomain n { v with step := 2 } s)
    | 2 => fin (setDomain n { v with step := 3 } s)
    | 3 =>
      let s1 := if v.fromRet then checkSigs n bad s else s
      let s2 := setDomain n { domain s1 n with step := 4 } s1
      fin (if groupOf n = 4 then setPlane (n - 168) { plane s2 (n - 168) with testFrom := s2.tele.time } s2 else s2)
    | 4 => if groupOf n = 4 then fin s else fin (domainOn n s)
    | _ => fin s

/-- RETENTION_RELOAD_DONE (R411): the owning table is reloaded, the buckets of the control domain full for the records in
force (08 R201), and the domain is released. -/
def execRetentionReloadDone (d : BitVec 8) (s : State) : Out :=
  let n := d.toNat
  let v := domain s n
  if v.reload ∧ v.st = .on then
    let s1 := setDomain n { v with reload := false } s
    let s2 := if n = 190 then
        let t := trafSync s1
        { t with traffic := { t.traffic with meters := tabMap Meter.init (fun b m => fullMeter (traf t b) m) t.traffic.meters } }
      else s1
    fin (if retained n then unblock s2 else s2)
  else fin s

/-- A dead domain is the loss of what it carries (R407, Table 17-10). A plane in TEST after a loss is not lost again: it is
DOWN (04 R109). -/
def domainDead (d : Nat) (s : State) : State :=
  let s0 := setDomain d { domain s d with st := .off, step := 0, fromRet := false, misses := 2, dead := true } s
  let s1 := raiseFree 16 0x21 (source 0 0) s0
  let n := d - 168
  match groupOf d with
  | 0 => quadUnlock d s1
  | 1 => [2 * (d - 104), 2 * (d - 104) + 1].foldl (fun s u => if (port s u).st = .off then s else portDown u .link s) s1
  | 2 => weftReset (d - 152) s1
  | 3 => if (loom s1 (d - 160)).st = .up then loomDown (d - 160) s1 else s1
  | 4 =>
    let s2 := match (plane s1 n).st with
      | .test =>
        if comingBack s1 n then planeDown n .clockLock (setPlane n { plane s1 n with st := .up } s1)
        else setPlane n { plane s1 n with st := .down } s1
      | .standby => setPlane n { plane s1 n with st := .down, rejoin := false } s1
      | _ => planeDown n .clockLock s1
    setDomain d { domain s2 d with st := .off, step := 0, dead := true } s2
  | 10 => stackLose (d - 215) 1 s1
  | _ => s1

/-- WAKE_TIMEOUT (R407): a ready signal is missing after four times its step's limit: PMU-0x0020, and the domain restarts
from OFF once; a second miss leaves it OFF and raises PMU-0x0021. What a retained domain held is then reloaded. -/
def execWakeTimeout (d : BitVec 8) (s : State) : Out :=
  let n := d.toNat
  let v := domain s n
  if 219 < n ∨ v.step = 0 then fin s
  else
    let s1 := raiseFree 16 0x20 (source 0 0) s
    if v.misses = 0 then
      fin (setDomain n { v with st := .off, step := 1, fromRet := false, misses := 1, reload := v.reload || retained n } s1)
    else fin (exitNext (domainDead n s1))

/-! ## Entry (R403 to R406, R420) -/

/-- DOZE_AUTO_ATTEMPT (R401): with doze_auto = 1 and every group idle, the device attempts DOZE. -/
def execDozeAutoAttempt (s : State) : Out :=
  if running s = false ∨ s.pmu.dozeAuto = false then fin s
  else fin (beginEntry false none (reach ((List.range 220).foldl (fun t d => max t (idleEnd s d)) 0) s))

/-- ENTRY_STAGE (R403): the stage asked completes, or a domain refuses it; stage 12 has its own command. -/
def execEntryStage (s : State) : Out :=
  if s.pmu.entering = false then fin s
  else
    match s.pmu.stage.toNat with
    | 4 => if s.pmu.toStandby then fin (departStage s) else fin (runStage 4 s)
    | 12 => fin s
    | 13 => fin (railStage s)
    | n => fin (runStage n s)

/-- STANDBY_FINAL_STAGE (R420): stage 12, from the fetch of the command's result or 10 ms after its event. -/
def execStandbyFinalStage (s : State) : Out :=
  match s.pmu.stage12 with
  | none => fin s
  | some t =>
    if s.pmu.entering ∧ s.pmu.stage = 12 then
      let s1 := reach t.toNat s
      fin (runStage 12 { s1 with pmu := { s1.pmu with stage12 := none, stage12Ticket := none } })
    else fin s

/-! ## Wake sources (R415) -/

/-- States in which a source counts (Table 17-9): DOZE, STANDBY; during entry, those of the state attempted. -/
def wakeState (s : State) (src : Nat) : Bool :=
  let standby := if s.pmu.entering then s.pmu.toStandby else decide (s.pmu.st = .standby)
  match src with
  | 0 | 3 => !standby
  | 1 => standby
  | _ => decide (src < 8)

/-- WAKE_SOURCE (R405, R415): a source of Table 17-9 arrives; GPIO and ALARM have commands of their own, and a port or an
input wakes only where its own mask has it. -/
def execWakeSource (src : BitVec 4) (index : BitVec 6) (s : State) : Out :=
  let ok := match src.toNat with
    | 2 => bit s.pmu.gpioWake index.toNat
    | 3 => bit s.pmu.detectMask index.toNat
    | _ => true
  if ok && wakeState s src.toNat then fin (wakeBy src.toNat index.toNat s) else fin s

/-- GPIO_EDGE (R415, 21): a new level on a GPIO has held for 1 µs; an enabled input wakes on the edge gpio_fall gives. -/
def execGpioEdge (pin : BitVec 4) (level : Bool) (s : State) : Out :=
  let n := pin.toNat
  let s1 := { s with boot := { s.boot with gpioIn := setFld s.boot.gpioIn n 1 (b1 level) } }
  if bit s.boot.gpioIn n = level then fin s
  else if bit s.pmu.gpioWake n && !bit s.boot.gpioOe n && decide (bit s.pmu.gpioFall n ≠ level) then
    fin (wakeBy 2 n s1)
  else fin s1

/-- ALARM (Table 17-9): fabric time reaches pmu.alarm; 0 disables. -/
def execAlarm (s : State) : Out :=
  if s.pmu.alarm = 0 ∨ s.pmu.alarm.toNat < now s then fin s else fin (wakeBy 6 0 (reach s.pmu.alarm.toNat s))

/-! ## Rails (R412 to R414) -/

/-- avs_timeout in force, ticks. -/
def avsTicks (s : State) : Nat := max 100 (min 10000 s.pmu.avsTimeout.toNat) * usTicks

/-- A rail's change has failed (R414): PMU-0x0010; an entry aborts with cause AVS, an exit waits for a retry, and gives up
after three with PMU-0x0011, every rail back at its low-state target. -/
def railFailed (r : Nat) (s : State) : State :=
  let s1 := raiseFree 16 0x10 (source 0 0) s
  match (railOf s1 r).change with
  | none => s1
  | some (_, n) =>
    if s1.pmu.entering then abortEntry 2 0xFF s1
    else if s1.pmu.exiting then
      if n < 3 then setRail r { railOf s1 r with change := some (s1.tele.time, n), failed := true } s1
      else
        let s2 := raiseFree 16 0x11 (source 0 0) s1
        let s3 := (List.range 4).foldl (fun s r => setRail r { railOf s r with
          target := lowMv (decide (s.pmu.st = .standby)) r, change := none, failed := false } s) s2
        { s3 with pmu := { s3.pmu with exiting := false, exitFailed := true } }
    else setRail r { railOf s1 r with change := none } s1

/-- A rail has reached VDone: in an exit VCORE follows VSRAM and VLANE, and the stacks follow VCORE (Table 17-7). -/
def railDone (r : Nat) (s : State) : State :=
  let s1 := setRail r { railOf s r with vdone := true, change := none } s
  if s1.pmu.exiting ∧ s1.pmu.st = .doze then
    if railUp s1 1 ∧ railUp s1 2 ∧ (railOf s1 0).change = none ∧ railUp s1 0 = false then railStart 0 (Config.fusedMv 0) s1
    else exitNext s1
  else s1

/-- AVS_POLL (R413): AVSBus Status is read; `good` is false when its frame and the frame sent again both failed. -/
def execAvsPoll (rail : BitVec 2) (vdone good : Bool) (s : State) : Out :=
  let r := rail.toNat
  let v := railOf s r
  if v.change = none ∨ v.failed then fin s
  else if !good then fin (railFailed r s)
  else if vdone then fin (railDone r s)
  else fin s

/-- AVS_TIMEOUT (R414): a change has not reached VDone within avs_timeout. -/
def execAvsTimeout (rail : BitVec 2) (s : State) : Out :=
  let v := railOf s rail.toNat
  match v.change with
  | some (t, _) => if v.failed then fin s else fin (railFailed rail.toNat (reach (t.toNat + avsTicks s) s))
  | none => fin s

/-- AVS_EXIT_RETRY (R414): a failed change of an exit is tried again after 1 ms. -/
def execAvsExitRetry (rail : BitVec 2) (s : State) : Out :=
  let r := rail.toNat
  let v := railOf s r
  match v.change with
  | some (t, n) =>
    if v.failed ∧ s.pmu.exiting then
      let s1 := reach (t.toNat + msTicks) s
      fin (setRail r { v with change := some (s1.tele.time, n + 1), failed := false } s1)
    else fin s
  | none => fin s

/-- RAIL_MONITOR (R413): in RUN voltage and current are read; the third reading in a row more than 3 % from target raises
PMU-0x0012. -/
def execRailMonitor (rail : BitVec 2) (vout iout : BitVec 16) (s : State) : Out :=
  let r := rail.toNat
  let v := railOf s r
  let far := decide (3 * v.target.toNat < 100 * (v.target.toNat - vout.toNat + (vout.toNat - v.target.toNat)))
  if s.pmu.st ≠ .run ∨ v.target = 0 then fin s
  else
    let n := if far then v.off3 + 1 else 0
    let s1 := setRail r { v with vout := vout, iout := iout, off3 := if n = 3 then 0 else n } s
    if n = 3 then fin (raiseFree 16 0x12 (source 0 0) s1) else fin s1

/-! ## The 0x0C family (R420) -/

/-- pmu.state. -/
def pmuStateWord (p : PmuState) : BitVec 64 :=
  BitVec.ofNat 64 (devNum p.st + 4 * nb p.entering + 8 * nb p.exiting + 16 * nb p.exitFailed + 32 * nb p.dozeAuto)

/-- pmu.avs[r]. -/
def railWord (v : Rail) : BitVec 64 :=
  BitVec.ofNat 64 (v.target.toNat + v.vout.toNat * 2 ^ 16 + v.iout.toNat * 2 ^ 32 + nb v.vdone * 2 ^ 48)

/-- pmu.domain[d]. -/
def domainWord (s : State) (d : Nat) : BitVec 64 :=
  let v := domain s d
  BitVec.ofNat 64 (domNum v.st + lowestOf s d % 4 * 4 + nb v.auto * 16 + idleOf s d % 2 ^ 24 * 2 ^ 8 + v.wakes.toNat * 2 ^ 32)

/-- pmu.group[g]. -/
def groupWord (s : State) (g : Nat) : BitVec 64 :=
  BitVec.ofNat 64 ((multOf s g).toNat + (tabGet 0 s.pmu.aborts g).toNat * 2 ^ 16)

/-- pmu.ret_status. -/
def retWord (s : State) : BitVec 64 := BitVec.ofNat 64 (s.pmu.retPassed.toNat + s.pmu.retFailed.toNat * 2 ^ 32)

/-- pmu.wake_mask. -/
def wakeMaskWord (p : PmuState) : BitVec 64 :=
  BitVec.ofNat 64 (p.sources.toNat + p.gpioWake.toNat * 2 ^ 8 + p.gpioFall.toNat * 2 ^ 24)

/-- pmu.wake_mask written. -/
def wakeMaskWrite (w : BitVec 64) (p : PmuState) : PmuState :=
  { p with sources := fld w 0 8, gpioWake := fld w 8 16, gpioFall := fld w 24 16 }

/-- POWER_STATUS (Table 17-12). -/
def execPowerStatus (r : Req) (s : State) : Out :=
  command 0x0C01 false r [] (fun s =>
    (ok (wBytes 8 (pmuStateWord s.pmu) ++ wBytes 8 s.pmu.lastWake ++ wBytes 6 s.pmu.lastDone ++ zeros 2
      ++ wBytes 8 s.pmu.lastAbort ++ (List.range 4).flatMap fun r => wBytes 8 (railWord (railOf s r))), s)) s

/-- POWER_STATE_SET to a state other than RUN: BUSY during an entry and for STANDBY asked in DOZE, OK where the device is
in it (log entry 50), else the entry begins. -/
def stateSet (r : Req) (standby : Bool) (s : State) : Reply × State :=
  if s.pmu.entering ∨ s.pmu.rolling then (rep 2, s)
  else if s.pmu.st = .doze then
    if standby ∨ s.pmu.exiting then (rep 2, s) else (ok (wBytes 8 s.pmu.lastAbort), s)
  else pend 0x0C02 r (fun t s => beginEntry standby (some t) s) s

/-- POWER_STATE_SET (R401, R420). To RUN: OK in RUN; in DOZE it is a COMMAND wake, and its result comes when RUN is
reached. -/
def execPowerStateSet (r : Req) (target : BitVec 8) (s : State) : Out :=
  command 0x0C02 false r (wBytes 1 target) (fun s =>
    if 2 < target.toNat then (badField 0, s)
    else if s.fault.safeStop then (rep 0x0C03, s)
    else if target = 1 then stateSet r false s
    else if target = 2 then stateSet r true s
    else if s.pmu.st = .run then (ok (wBytes 8 s.pmu.lastAbort), s)
    else if s.pmu.ticket.isSome ∨ bit s.pmu.sources 0 = false then (rep 2, s)
    else pend 0x0C02 r (fun t s => wakeBy 0 0 { s with pmu := { s.pmu with ticket := some t } }) s) s

/-- POWER_DOMAIN_READ (Table 17-12). -/
def execPowerDomainRead (r : Req) (domain_ : BitVec 16) (s : State) : Out :=
  command 0x0C03 false r (wBytes 2 domain_) (fun s =>
    if 219 < domain_.toNat then (rep 0x0C01, s)
    else (ok (wBytes 8 (domainWord s domain_.toNat) ++ leBytes 1 (multOf s (groupOf domain_.toNat)).toNat), s)) s

/-- A POWER record (R419). -/
def powerRecord (d : Nat) (lowest auto : BitVec 8) (idleUs : BitVec 32) : BitVec 128 :=
  BitVec.ofNat 128 (d + lowest.toNat * 2 ^ 16 + auto.toNat * 2 ^ 24 + idleUs.toNat * 2 ^ 32)

/-- A domain's record in the active POWER table, and its limits with it (R420). -/
def setPower (d : Nat) (lowest auto : BitVec 8) (idleUs : BitVec 32) (s : State) : State :=
  let t := s.plan.active.power
  let ix := match t.find? fun p => decide (fnat p.2 0 16 = d) && decide (fnat p.2 32 32 ≠ 0) with
    | some p => p.1
    | none => t.foldl (fun n p => max n (p.1 + 1)) 0
  powerDomain d { s with plan := { s.plan with active := { s.plan.active with
    power := tabSet 0 t ix (powerRecord d lowest auto idleUs) } } }

/-- Domains a POWER_TIMER_SET names, or none where there are none. -/
def timerDomains (domain_ : BitVec 16) (group : BitVec 8) : Option (List Nat) :=
  if domain_ = 0xFFFF then
    if 13 < group.toNat then none else some ((List.range 220).filter fun d => decide (groupOf d = group.toNat))
  else if 219 < domain_.toNat then none
  else some [domain_.toNat]

/-- POWER_TIMER_SET (R404, R419, R420): limits and idle timer of a domain or a group, whose multiplier returns to 1. -/
def execPowerTimerSet (r : Req) (domain_ : BitVec 16) (group lowest auto : BitVec 8) (idleUs : BitVec 32) (s : State) : Out :=
  command 0x0C04 false r
    (wBytes 2 domain_ ++ wBytes 1 group ++ wBytes 1 lowest ++ wBytes 1 auto ++ zeros 3 ++ wBytes 4 idleUs) (fun s =>
    match timerDomains domain_ group with
    | none => (rep 0x0C01, s)
    | some l =>
      if l.any fun d => decide (groupLowest (groupOf d) < lowest.toNat) then (badField 3, s)
      else if 1 < auto.toNat then (badField 4, s)
      else if idleUs = 0 ∨ 10000000 < idleUs.toNat then (badField 8, s)
      else
        let s1 := l.foldl (fun s d => setPower d lowest auto idleUs s) s
        (ok, { s1 with pmu := { s1.pmu with
          mult := l.foldl (fun t d => tabSet 1 t (groupOf d) 1) s1.pmu.mult } })) s

/-- POWER_WAKE_CFG (R415, R420). -/
def execPowerWakeCfg (r : Req) (wakeMask detectMask alarm : BitVec 64) (dozeAuto : BitVec 8) (avsTimeout : BitVec 16)
    (s : State) : Out :=
  command 0x0C05 false r
    (wBytes 8 wakeMask ++ wBytes 8 detectMask ++ wBytes 8 alarm ++ wBytes 1 dozeAuto ++ zeros 7 ++ wBytes 2 avsTimeout)
    (fun s =>
      if 1 < dozeAuto.toNat then (badField 24, s)
      else
        let p := wakeMaskWrite wakeMask s.pmu
        (ok, { s with pmu := { p with
          detectMask := detectMask.setWidth 48, alarm := alarm, dozeAuto := decide (dozeAuto = 1)
          avsTimeout := avsTimeout } })) s

end Sys2Proof.Machine
end

