-- ==== Sys2Proof/Machine/Prot.lean ====
section
/-! DEFINITION. Meanings of the protection units' rows (Protection Units). -/

namespace Sys2Proof.Machine

open Sys2Proof

/-- PROT_ENTRY_READ (R224). -/
def execProtEntryRead (r : Req) (index count : BitVec 16) (s : State) : Out :=
  command 0x0901 false r (wBytes 2 index ++ wBytes 2 count)
    (fun s =>
      let i := index.toNat
      let n := count.toNat
      if 16384 ≤ i then (badField 0, s)
      else if n = 0 ∨ 64 < n ∨ 16384 < i + n then (badField 2, s)
      else (ok (((List.range n).map fun j => wBytes 32 (protEntry s (i + j))).flatten), s)) s

/-- PROT_ENTRY_SET (R217, R223, R224): the entry and the epoch change together; a word that waited for its reload is
written anew. -/
def execProtEntrySet (r : Req) (index : BitVec 16) (entry : BitVec 256) (s : State) : Out :=
  command 0x0902 false r (wBytes 2 index ++ zeros 2 ++ wBytes 32 entry)
    (fun s =>
      let i := index.toNat
      if 16384 ≤ i then (badField 0, s)
      else if protOk entry = false then (badField (4 + (protBad entry).getD 0), s)
      else if planBusy s then (rep 2, s)
      else if ptLock (protEntry s i) then (rep 0x0901, s)
      else
        let s1 := newEpoch (setProt i entry s)
        (ok (wBytes 4 s1.prot.epoch), s1)) s

/-- PROT_LOCK (R223, R224): the lock bit of a run of entries is set at once. -/
def execProtLock (r : Req) (index count : BitVec 16) (s : State) : Out :=
  command 0x0903 false r (wBytes 2 index ++ wBytes 2 count)
    (fun s =>
      let i := index.toNat
      let n := count.toNat
      if 16384 ≤ i then (badField 0, s)
      else if n = 0 ∨ 16384 < i + n then (badField 2, s)
      else if planBusy s then (rep 2, s)
      else (ok, (List.range n).foldl (fun s j => setProt (i + j) (ptWithLock (protEntry s (i + j))) s) s)) s

/-- PROT_FENCE (R219): it waits until every access checked under an earlier epoch has completed. -/
def execProtFence (r : Req) (timeout : BitVec 32) (s : State) : Out :=
  command 0x0904 false r (wBytes 4 timeout)
    (fun s => pend 0x0904 r (fun t s =>
      let f : Fence := { ticket := t, epoch := s.prot.epoch, since := s.tele.time, limit := timeout }
      fencesDone { s with prot := { s.prot with fences := s.prot.fences ++ [f] } }) s) s

/-- PROT_FENCE_TIMEOUT (R219): a fence that waits for its timeout_us completes with TIMEOUT and the prior count. -/
def execProtFenceTimeout (ticket : BitVec 16) (s : State) : Out :=
  match s.prot.fences.find? fun f => decide (f.ticket = ticket) with
  | none => fin s
  | some f =>
    if f.limit = 0 then fin s
    else
      let s1 := reach (f.since.toNat + f.limit.toNat * usTicks) s
      let r := fenceReply 0x70 f.epoch (s1.prot.prior.setWidth 32)
      fin (finishTicket ticket r { s1 with prot := { s1.prot with fences := s1.prot.fences.filter fun g => !decide (g.ticket = ticket) } })

/-- The payload of PROT_VIOL_READ (Table 9-4). -/
def violBytes (v : ViolRec) : List Byte :=
  leBytes 1 (nb v.valid) ++ leBytes 1 v.kind.toNat ++ leBytes 1 v.cause.toNat ++ leBytes 1 v.src.toNat
  ++ leBytes 2 v.binding.toNat ++ leBytes 2 v.inst.toNat ++ leBytes 1 v.port.toNat ++ leBytes 1 (nb v.entryV)
  ++ leBytes 2 v.entry.toNat ++ leBytes 2 v.feid.toNat ++ leBytes 2 0 ++ leBytes 8 v.dev.toNat ++ wBytes 8 v.addr
  ++ wBytes 8 v.stampFull ++ wBytes 4 v.epoch ++ wBytes 4 v.label ++ wBytes 2 v.later

/-- PROT_VIOL_READ (R224). -/
def execProtViolRead (r : Req) (s : State) : Out :=
  command 0x0905 false r [] (fun s => (ok (violBytes s.prot.viol), s)) s

/-- The violation record is cleared (R222); a violation of this clock stays, or is captured (R221, 00 R11). -/
def violClear (s : State) : State :=
  let s1 := { s with prot := { s.prot with viol := ViolRec.init, fresh := none } }
  match s.prot.fresh with
  | some f => if violNow f s then capture (violRecSource f) f s1 else if violNow s.prot.viol s then s else s1
  | none => if violNow s.prot.viol s then s else s1

/-- PROT_VIOL_CLEAR (R224): the record is cleared, and the later count it discards is returned. -/
def execProtViolClear (r : Req) (s : State) : Out :=
  command 0x0906 false r [] (fun s => (ok (wBytes 2 s.prot.viol.later), violClear s)) s

/-- VIOL_VALID_CLEAR (R221): a write of 1 to prot.viol_status.valid clears the whole record. -/
def execViolValidClear (s : State) : Out := fin (violClear s)

/-- PROT_ENTRY_RELOADED (R222): the entry is reloaded from the active table, and what was not decoded for it is decoded
on. -/
def execProtEntryReloaded (entry : BitVec 14) (s : State) : Out :=
  let s1 := tableMend 9 entry.toNat s
  fin { s1 with prot := { s1.prot with badEntries := s1.prot.badEntries.filter fun i => !decide (i = entry.toNat) } }

end Sys2Proof.Machine
end

