-- ==== Sys2Proof/Machine/Scribe.lean ====
section
/-! DEFINITION. Meanings of the scribe engines' rows (Scribe Engines and Virtual Instances). -/

namespace Sys2Proof.Machine

open Sys2Proof

/-! ## The instance page -/

/-- DOORBELL (R170): ignored while the instance is DISABLED. -/
def execDoorbell (inst_ : BitVec 10) (q : BitVec 2) (producer : BitVec 16) (s : State) : Out :=
  if (inst s inst_.toNat).st = .disabled then fin s else fin (takeProducer inst_.toNat q.toNat producer s)

/-- QUEUE_ENABLE_WRITE: a write of a queue's cfg; a queue that starts takes the producer it holds (R170). -/
def execQueueEnableWrite (inst_ : BitVec 10) (q : BitVec 2) (value : BitVec 32) (s : State) : Out :=
  let n := inst_.toNat
  let was := (queueOf (inst s n) q.toNat).enable
  let s1 := cfgQueue n q.toNat value s
  if was = false ∧ bit value 0 ∧ (inst s n).st ≠ .disabled then
    fin (takeProducer n q.toNat (queueOf (inst s1 n) q.toNat).producer s1)
  else fin (pumpQueue n q.toNat s1)

/-- INSTANCE_RESET_WRITE (R182): a write of inst.ctl.reset; nothing in DISABLED, and RESETTING goes on. -/
def execInstanceResetWrite (inst_ : BitVec 10) (s : State) : Out :=
  match (inst s inst_.toNat).st with
  | .ready | .freezing | .frozen => fin (startReset inst_.toNat false s)
  | .disabled => fin s
  | .resetting => fin (setInst inst_.toNat { inst s inst_.toNat with resetAt := some s.tele.time } s)

/-- MBOX_T2O_SEND (R188): ignored while a message waits, and in RESETTING. -/
def execMboxT2oSend (inst_ : BitVec 10) (len : BitVec 9) (s : State) : Out :=
  let i := inst s inst_.toNat
  if i.t2oFull ∨ i.st = .resetting then fin s
  else fin (queueEvent 3 (BitVec.ofNat 128 inst_.toNat)
    (setInst inst_.toNat { i with t2oLen := BitVec.ofNat 9 (min len.toNat 256), t2oFull := true } s))

/-- MBOX_O2T_ACK (R189): a write of 1 to o2t full; where the bit was set in this clock it stays set (00 R11). -/
def execMboxO2tAck (inst_ : BitVec 10) (s : State) : Out :=
  let i := inst s inst_.toNat
  if i.st = .resetting ∨ i.o2tAt = some s.tele.time then fin s else fin (setInst inst_.toNat { i with o2tFull := false } s)

/-! ## Engines -/

/-- Whether a scribe completion is a descriptor fetch. -/
def isFetch (m : Msg) : Bool := decide (lineOfReq m.req = ringMark + 1)

/-- A completion takes its engines' attention: one that came back without crossing first, then one that crossed to the
half's xp. -/
def takeBack (fetch : Bool) (half : BitVec 1) (s : State) : Option ((Msg × Bool) × State) :=
  match s.scribe.back.find? fun p => isFetch p.1 == fetch with
  | some p => some (p, { s with scribe := { s.scribe with back := s.scribe.back.erase p } })
  | none =>
    let x := 60 + half.toNat
    (stagedFirst s x 2 fun m => isFetch m == fetch).map fun e => ((delivered e, false), unstage x e s)

/-- DESCRIPTOR_FETCH_DONE (R171, R172, R177). -/
def execDescriptorFetchDone (half : BitVec 1) (s : State) : Out := live s fun s =>
  match takeBack true half s with
  | none => fin s
  | some (p, s1) => fin (fetchBack p.1 p.2 s1)

/-- LINE_COMPLETE (R173, R176, R178). -/
def execLineComplete (half : BitVec 1) (s : State) : Out := live s fun s =>
  match takeBack false half s with
  | none => fin s
  | some (p, s1) => fin (lineBack p.1 p.2 s1)

/-- DESCRIPTOR_DISPATCH (R162, R185): the first of the ready descriptors that has an engine with a free channel. -/
def execDescriptorDispatch (s : State) : Out := live s fun s =>
  let may := s.scribe.descs.filter fun d =>
    decide (d.stage = .ready) && decide ((inst s d.inst.toNat).st = .ready) && (pickEngine s d.inst.toNat).isSome
  let first := may.foldl (fun b d => match b with
    | none => some d
    | some c => if d.order < c.order then some d else some c) (none : Option Desc)
  match first with
  | none => fin s
  | some d =>
    if s.fault.safeStop then fin s else fin (dispatch d ((pickEngine s d.inst.toNat).getD 0) s)

/-- LINE_ISSUE (R161, R163): the next channel of the rotation issues one line, 3.2 ns after the engine's last one. -/
def execLineIssue (engine_ : BitVec 4) (ue : DecodeUe) (s : State) : Out := live s fun s =>
  let e := engine_.toNat
  let s1 := scribeSync (reach (((engine s e).nextIssue + 4) / 5) s)
  if engineRuns s1 e = false then fin s
  else
    match nextChannel s1 e with
    | none => fin s
    | some d =>
      let g := engine s1 e
      fin (issueLine d ue
        (setEngine e { g with rotor := d.order, nextIssue := max g.nextIssue (5 * now s1) + 128 } s1))

/-- ENGINE_FAULT (R176): SCRB-0x0020; the engine's descriptors end and it is reset. -/
def execEngineFault (engine_ : BitVec 4) (s : State) : Out :=
  let e := engine_.toNat
  fin (raiseFree 8 0x20 (source 8 e) (engineFail e s))

/-- TOKEN_REFILL (R174): the next whole multiple of 32,000 ticks. -/
def execTokenRefill (s : State) : Out :=
  fin (scribeSync (reach ((s.scribe.refilled.toNat + 1) * refillTicks) s))

/-! ## Migration spans (R84, R186) -/

/-- MIGRATION_SPAN_OPEN (R84 step 1): at most 64 lines, and the phase bit flips; the descriptor's
turn in its queue has come (R173), so that an open span can always be completed (R167). -/
def execMigrationSpanOpen (slot_ : BitVec 4) (s : State) : Out := live s fun s =>
  let k := slot_.toNat
  let g := migSlot s k
  match migDesc s k with
  | none => fin s
  | some d =>
    if g.st = .copying ∧ g.span = 0 ∧ inTurn s d ∧ (inst s d.inst.toNat).st = .ready ∧ engineRuns s d.engine.toNat then
      fin (setMig k { g with span := BitVec.ofNat 8 (min 64 (32768 - g.watermark.toNat)), phase := !g.phase } s)
    else fin s

/-- MIGRATION_SPAN_CLOSE (R84 steps 4 and 5): the watermark advances, the stall queue goes to the new side, and at the
page's end the page entry is rewritten. -/
def execMigrationSpanClose (slot_ : BitVec 4) (s : State) : Out := live s fun s =>
  let k := slot_.toNat
  let g := migSlot s k
  match migDesc s k with
  | none => fin s
  | some d =>
    let w := g.watermark.toNat + g.span.toNat
    if g.span = 0 ∨ d.next ≠ w ∨ d.flight ≠ [] then fin s
    else
      let s1 := releaseStall true k (setMig k { g with watermark := BitVec.ofNat 16 w, span := 0 } s)
      if w < 32768 then fin s1
      else
        let pi := g.page.toNat
        let s2 := setMig k { migSlot s1 k with st := .idle, watermark := 0 }
          (setPage pi (pgMoved (pageEntry s1 pi)) s1)
        let d1 := { d with slot := none }
        fin (settleDesc d1 (putDesc d d1 s2))

/-! ## Freeze and reset -/

/-- FREEZE_COMPLETE (R167). -/
def execFreezeComplete (inst_ : BitVec 10) (s : State) : Out :=
  let n := inst_.toNat
  let i := inst s n
  if i.st = .freezing ∧ quiet s n then
    fin (finishAll i.freezeTickets (ok) (setInst n { i with st := .frozen, freezeTickets := [] } s))
  else fin s

/-- INSTANCE_RESET_COMPLETE (R182, R183); a 1 written to inst.ctl.reset in its clock stands, and resets anew (00 R11). -/
def execInstanceResetComplete (inst_ : BitVec 10) (s : State) : Out :=
  let n := inst_.toNat
  if (inst s n).st = .resetting ∧ liveLines s n = 0 then
    let s1 := endReset n (scribeSync s)
    if (inst s n).resetAt = some s.tele.time ∧ (inst s1 n).st = .ready then fin (startReset n false s1) else fin s1
  else fin s

/-! ## The 0x07 Nib family (R190) -/

/-- INSTANCE_CONFIG (R190, R171, R174). -/
def execInstanceConfig (r : Req) (inst_ flags engineMask descQuota share burst : BitVec 16) (bslots : BitVec 128)
    (s : State) : Out :=
  command 0x0701 false r
    (wBytes 2 inst_ ++ wBytes 2 flags ++ wBytes 2 engineMask ++ wBytes 2 descQuota ++ wBytes 2 share ++ wBytes 2 burst ++ wBytes 16 bslots)
    (fun s =>
      let n := inst_.toNat
      let i := inst s n
      let slot := fun k => fnat bslots (16 * k) 16
      let bad := (List.range 8).find? fun k => decide (8192 ≤ slot k ∧ slot k ≠ 0xFFFF)
      let others := s.scribe.insts.foldl (fun t p => if p.1 = n then t else t + p.2.descQuota.toNat) 0
      if 1024 ≤ n then (badField 0, s)
      else if 2 ≤ flags.toNat then (badField 2, s)
      else if 4096 < descQuota.toNat then (badField 6, s)
      else if 20000 < share.toNat then (badField 8, s)
      else if bad.isSome then (badField (12 + 2 * bad.getD 0), s)
      else if i.st ≠ .disabled then (rep 0x0701, s)
      else if (List.range 8).any (fun k => decide (slot k < 8192) && decide (ctxKind (ctx s (slot k)) ≠ 1)) then
        (rep 0x0707, s)
      else if 65536 < others + descQuota.toNat then (rep 0x30, s)
      else
        let tab := (List.range 8).foldl (fun t k => tabSet 0xFFFF t k (fld bslots (16 * k) 16)) []
        (ok, setInst n { i with migrateOk := bit flags 0, engineMask := engineMask, descQuota := descQuota
                                share := share, burst := burst, newShare := none, bslots := tab } (scribeSync s))) s

/-- INSTANCE_READ (R190). -/
def execInstanceRead (r : Req) (inst_ : BitVec 16) (s : State) : Out :=
  command 0x0702 false r (wBytes 2 inst_)
    (fun s =>
      let n := inst_.toNat
      let s1 := scribeSync s
      let i := inst s1 n
      if 1024 ≤ n then (badField 0, s)
      else
        (ok (wBytes 2 inst_ ++ leBytes 2 (nb i.migrateOk) ++ wBytes 2 i.engineMask ++ wBytes 2 i.descQuota
          ++ wBytes 2 i.share ++ wBytes 2 i.burst
          ++ ((List.range 8).map fun k => wBytes 2 (tabGet 0xFFFF i.bslots k)).flatten
          ++ leBytes 1 (instNum i.st) ++ leBytes 1 (causeNum i) ++ wBytes 2 i.tokens
          ++ ((List.range 4).map fun q =>
              let v := queueOf i q
              wBytes 2 v.producer ++ wBytes 2 v.consumer ++ leBytes 1 (qerrNum v.err) ++ [0]).flatten
          ++ wBytes 8 i.cntLines ++ wBytes 8 i.cntDescs), s1)) s

/-- INSTANCE_ENABLE (R166). -/
def execInstanceEnable (r : Req) (inst_ : BitVec 16) (s : State) : Out :=
  command 0x0703 false r (wBytes 2 inst_)
    (fun s =>
      let n := inst_.toNat
      let i := inst s n
      if 1024 ≤ n then (badField 0, s)
      else if i.st ≠ .disabled then (rep 0x0701, s)
      else (ok, fetchAll n (setInst n { i with st := .ready } s))) s

/-- INSTANCE_RESET (R182, R183, R190). -/
def execInstanceReset (r : Req) (inst_ flags : BitVec 16) (s : State) : Out :=
  command 0x0704 false r (wBytes 2 inst_ ++ wBytes 2 flags)
    (fun s =>
      let n := inst_.toNat
      if 1024 ≤ n then (badField 0, s)
      else if 2 ≤ flags.toNat then (badField 2, s)
      else
        match (inst s n).st with
        | .disabled | .resetting => (rep 0x0701, s)
        | .ready | .freezing | .frozen =>
          pend 0x0704 r (fun t s =>
            let s1 := startReset n (bit flags 0) s
            setInst n { inst s1 n with resetTickets := (inst s1 n).resetTickets ++ [t] } s1) s) s

/-- INSTANCE_FREEZE (R166, R167): an instance that is FROZEN takes the cause, and the freeze is complete. -/
def execInstanceFreeze (r : Req) (inst_ : BitVec 16) (s : State) : Out :=
  command 0x0705 false r (wBytes 2 inst_)
    (fun s =>
      let n := inst_.toNat
      if 1024 ≤ n then (badField 0, s)
      else
        match (inst s n).st with
        | .disabled | .resetting => (rep 0x0701, s)
        | .frozen => pend 0x0705 r (fun t s => finishTicket t (ok) (freezeInst n false s)) s
        | .ready | .freezing =>
          pend 0x0705 r (fun t s =>
            let s1 := freezeInst n false s
            setInst n { inst s1 n with freezeTickets := (inst s1 n).freezeTickets ++ [t] } s1) s) s

/-- INSTANCE_THAW (R166, R181): with no cause left the instance is READY and fetches on; a freeze that was pending is
not completed any more and ends with BAD_INSTANCE_STATE. -/
def execInstanceThaw (r : Req) (inst_ causes : BitVec 16) (s : State) : Out :=
  command 0x0706 false r (wBytes 2 inst_ ++ wBytes 2 causes)
    (fun s =>
      let n := inst_.toNat
      let i := inst s n
      if 1024 ≤ n then (badField 0, s)
      else if 4 ≤ causes.toNat then (badField 2, s)
      else
        match i.st with
        | .freezing | .frozen =>
          let p := i.causeProt && !bit causes 0
          let o := i.causeOwner && !bit causes 1
          let j := { i with causeProt := p, causeOwner := o }
          if p || o then (ok, setInst n j s)
          else
            (ok, fetchAll n (finishAll i.freezeTickets (rep 0x0701)
              (setInst n { j with st := .ready, freezeTickets := [] } s)))
        | _ => (rep 0x0701, s)) s

/-- Bytes of a table of 256 bytes. -/
def mailBytes (t : Tab Byte) : List Byte := tabSlice 0 t 0 256

/-- partial_lines of queue q: lines_done of the descriptor at consumer (Table 7-8). -/
def partialOf (s : State) (n q : Nat) : Nat :=
  let v := queueOf (inst s n) q
  match qDesc s n q v.consumer with
  | some d => if d.stage = .fetching then v.partialLines.toNat else linesDone d
  | none => v.partialLines.toNat

/-- Queue q in the state blob (Table 7-8). -/
def queueBlob (s : State) (n q : Nat) : List Byte :=
  let v := queueOf (inst s n) q
  leBytes 4 (nb v.enable + v.size.toNat * 2 + nb v.irqEn * 32) ++ zeros 4 ++ wBytes 8 v.ringOff ++ wBytes 8 v.compOff
    ++ wBytes 2 v.producer ++ wBytes 2 v.consumer ++ leBytes 1 (nb v.phase) ++ leBytes 1 (qerrNum v.err) ++ zeros 2
    ++ leBytes 4 (partialOf s n q) ++ zeros 28

/-- The state blob of instance n without its crc (Table 7-8). -/
def blobBody (s : State) (n : Nat) : List Byte :=
  let i := inst s n
  wBytes 4 0x4C424353#32 ++ leBytes 2 1 ++ leBytes 2 n ++ wBytes 8 s.boot.serial ++ wBytes 8 s.tele.time
    ++ leBytes 2 (causeNum i) ++ wBytes 2 i.tokens ++ zeros 4
    ++ ((List.range 8).map fun k => wBytes 4 (slotCookie s i k)).flatten
    ++ zeros 64 ++ ((List.range 4).map fun q => queueBlob s n q).flatten
    ++ leBytes 2 i.t2oLen.toNat ++ leBytes 1 (nb i.t2oFull) ++ zeros 5
    ++ leBytes 2 i.o2tLen.toNat ++ leBytes 1 (nb i.o2tFull) ++ leBytes 1 (nb i.o2tIrq) ++ zeros 4
    ++ leBytes 8 (i.cntLines.toNat + i.cntDescs.toNat * 2 ^ 40) ++ zeros 104 ++ mailBytes i.t2oData
    ++ mailBytes i.o2tData ++ zeros 3068

/-- INSTANCE_SAVE (R179, Table 7-8). -/
def execInstanceSave (r : Req) (inst_ : BitVec 16) (s : State) : Out :=
  command 0x0707 false r (wBytes 2 inst_)
    (fun s =>
      let n := inst_.toNat
      let s1 := scribeSync s
      if 1024 ≤ n then (badField 0, s)
      else if (inst s n).st ≠ .frozen then (rep 0x0701, s)
      else if s.scribe.descs.any (fun d => decide (d.inst.toNat = n) && d.slot.isSome) then (rep 0x0706, s)
      else
        let b := blobBody s1 n
        (ok (b ++ wBytes 4 (crc32 b)), s1)) s

/-- Queue q of a blob. -/
def blobQueue (blob : List Byte) (q : Nat) : SQueue :=
  let o := 0x80 + 64 * q
  let cfg := BitVec.ofNat 32 (leAt blob o 4)
  { enable := bit cfg 0, size := fld cfg 1 4, irqEn := bit cfg 5, ringOff := BitVec.ofNat 64 (leAt blob (o + 8) 8),
    compOff := BitVec.ofNat 64 (leAt blob (o + 16) 8), producer := BitVec.ofNat 16 (leAt blob (o + 24) 2),
    consumer := BitVec.ofNat 16 (leAt blob (o + 26) 2), phase := decide (leAt blob (o + 28) 1 % 2 = 1),
    err := match leAt blob (o + 29) 1 with | 1 => .overrun | 2 => .fetchFail | 3 => .compFail | _ => .none,
    fetchIdx := BitVec.ofNat 16 (leAt blob (o + 26) 2)
    recIdx := BitVec.ofNat 16 (leAt blob (o + 26) 2), partialLines := BitVec.ofNat 32 (leAt blob (o + 32) 4) }

/-- Bytes of a blob as a table. -/
def blobTab (blob : List Byte) (off : Nat) : Tab Byte := tabWrite 0 [] 0 ((blob.drop off).take 256)

/-- An instance with what a blob brings (R180). -/
def restoreInst (blob : List Byte) (i : Inst) : Inst :=
  { i with
    st := .frozen, causeProt := decide (leAt blob 0x18 2 % 2 = 1), causeOwner := true
    tokens := BitVec.ofNat 16 (min (leAt blob 0x1A 2) (max i.share.toNat i.burst.toNat))
    queues := (List.range 4).foldl (fun t q => tabSet SQueue.init t q (blobQueue blob q)) []
    t2oLen := BitVec.ofNat 9 (leAt blob 0x180 2), t2oFull := decide (leAt blob 0x182 1 % 2 = 1)
    o2tLen := BitVec.ofNat 9 (leAt blob 0x188 2), o2tFull := decide (leAt blob 0x18A 1 % 2 = 1)
    o2tIrq := decide (leAt blob 0x18B 1 % 2 = 1)
    cntLines := BitVec.ofNat 40 (leAt blob 0x190 8), cntDescs := BitVec.ofNat 24 (leAt blob 0x195 3)
    t2oData := blobTab blob 0x200, o2tData := blobTab blob 0x300 }

/-- The blob's own checks: magic, version and crc (R180). -/
def blobOk (blob : List Byte) : Bool :=
  decide (leAt blob 0 4 = 0x4C424353) && decide (leAt blob 4 2 = 1)
  && decide (leAt blob 0xFFC 4 = (crc32 (blob.take 0xFFC)).toNat)

/-- INSTANCE_RESTORE (R180). -/
def execInstanceRestore (r : Req) (inst_ : BitVec 16) (blob : List Byte) (s : State) : Out :=
  command 0x0708 false r (wBytes 2 inst_ ++ zeros 2 ++ blob)
    (fun s =>
      let n := inst_.toNat
      let i := inst s n
      let cookie := fun k => (slotCookie s i k).toNat
      if blob.length ≠ 4096 then (rep 0x11 4100, s)
      else if 1024 ≤ n then (badField 0, s)
      else if i.st ≠ .disabled then (rep 0x0701, s)
      else if blobOk blob = false then (rep 0x0702, s)
      else if (List.range 8).any (fun k => decide (leAt blob (0x20 + 4 * k) 4 ≠ cookie k)) then (rep 0x0703, s)
      else
        let s1 := scribeSync s
        (ok, setInst n (restoreInst blob (inst s1 n)) s1)) s

/-- INSTANCE_SET_SHARE (R175): at the next refill. -/
def execInstanceSetShare (r : Req) (inst_ share burst : BitVec 16) (s : State) : Out :=
  command 0x0709 false r (wBytes 2 inst_ ++ wBytes 2 share ++ wBytes 2 burst)
    (fun s =>
      let n := inst_.toNat
      if 1024 ≤ n then (badField 0, s)
      else if 20000 < share.toNat then (badField 2, s)
      else
        let s1 := scribeSync s
        (ok, setInst n { inst s1 n with newShare := some (share, burst) } s1)) s

/-- MBOX_READ (R188). -/
def execMboxRead (r : Req) (inst_ : BitVec 16) (s : State) : Out :=
  command 0x070A false r (wBytes 2 inst_)
    (fun s =>
      let n := inst_.toNat
      let i := inst s n
      if 1024 ≤ n then (badField 0, s)
      else if i.st = .resetting then (rep 0x0701, s)
      else if i.t2oFull = false then (rep 0x0705, s)
      else (ok (leBytes 2 i.t2oLen.toNat ++ (mailBytes i.t2oData).take i.t2oLen.toNat),
            setInst n { i with t2oFull := false } s)) s

/-- MBOX_SEND (R189). -/
def execMboxSend (r : Req) (inst_ len : BitVec 16) (data : List Byte) (s : State) : Out :=
  command 0x070B false r (wBytes 2 inst_ ++ wBytes 2 len ++ data)
    (fun s =>
      let n := inst_.toNat
      let i := inst s n
      if 1024 ≤ n then (badField 0, s)
      else if 256 < len.toNat then (badField 2, s)
      else if data.length ≠ len.toNat then (rep 0x11 (4 + len.toNat), s)
      else if i.st = .resetting then (rep 0x0701, s)
      else if i.o2tFull then (rep 0x0704, s)
      else
        let s1 := setInst n { i with o2tLen := BitVec.ofNat 9 len.toNat, o2tFull := true, o2tAt := some s.tele.time,
                                     o2tData := tabWrite 0 i.o2tData 0 data } s
        (ok, if i.o2tIrq then instIrq n 4 s1 else s1)) s

/-- ENGINE_STATUS (R190). -/
def execEngineStatus (r : Req) (engine_ : BitVec 8) (s : State) : Out :=
  command 0x070C false r (wBytes 1 engine_)
    (fun s =>
      let e := engine_.toNat
      if 16 ≤ e then (badField 0, s)
      else (ok (leBytes 1 (nb (engine s e).resetting) ++ leBytes 1 (channels s e).length
        ++ leBytes 2 (engineFlight s e) ++ wBytes 8 (engine s e).lines), s)) s

end Sys2Proof.Machine
end

