-- ==== Sys2Proof/Machine/Seal.lean ====
section
/-! DEFINITION. The seal unit's commands: nonces, tokens, life cycle, keys, the colophon, measurement and SPDM (Seal
Unit, Life Cycle and the Colophon). -/

namespace Sys2Proof.Machine

open Sys2Proof

/-! ## Status and nonces -/

/-- SEAL_STATUS (R466). -/
def execSealStatus (r : Req) (s : State) : Out :=
  command 0x0E01 false r []
    (fun s => (ok (wBytes 8 (sealStatus s) ++ wBytes 8 s.sealu.headSeq ++ wBytes 48 s.sealu.headDigest), s)) s

/-- SEAL_NONCE (R450): a fresh nonce replaces the earlier one and lives 600 s; HW_FAULT without randomness (R454). -/
def execSealNonce (r : Req) (env : Env) (s : State) : Out :=
  command 0x0E02 false r []
    (fun s => if s.sealu.entropyFail then (rep 0x60, s)
      else (ok (wBytes 48 env.random),
        { s with sealu := { s.sealu with
            nonce := some (env.random, s.aon + BitVec.ofNat 64 (600000 * msTicks)) } })) s

/-- NONCE_EXPIRY (R450): the held nonce expires 600 s after issue. -/
def execNonceExpiry (s : State) : Out :=
  match s.sealu.nonce with
  | none => fin s
  | some (_, e) =>
    let s1 := reachAon e.toNat s
    fin { s1 with sealu := { s1.sealu with nonce := none } }

/-! ## Life cycle (R446, R447) -/

/-- State a target number names. -/
def lcOf (n : Nat) : Option Lc :=
  match n with
  | 0 => some .blank | 1 => some .maker | 2 => some .sealed | 3 => some .owned | 4 => some .returned | 5 => some .spent
  | _ => none

/-- Whether Table 19-2 has an LC_TRANSITION row from a state to a target with a token of a kind. -/
def lcRow (l target : Lc) (kind : Nat) : Bool :=
  match l, target with
  | .maker, .sealed => decide (kind = 1)
  | .owned, .sealed => decide (kind = 3)
  | .sealed, .returned | .owned, .returned => decide (kind = 4)
  | .maker, .spent | .sealed, .spent | .returned, .spent | .owned, .spent => decide (kind = 5)
  | _, _ => false

/-- The fuses a transition burns, its life-cycle or counter bit last (Table 19-2): the state that the next cold reset
derives, one more release bit for RELEASE, the UDS row at all ones for SPEND. -/
def burnTransition (target : Lc) (kind : Nat) (s : State) : State :=
  { s with sealu := { s.sealu with
      lcFuse := target
      releases := if kind = 3 then s.sealu.releases + 1 else s.sealu.releases
      uds := if target = .spent then BitVec.allOnes 256 else s.sealu.uds
      lcReset := some (s.aon + BitVec.ofNat 64 (100 * msTicks)) } }

/-- The LIFECYCLE record of a change: from, to, token kind, signer (Table 19-8). -/
def lcAppend (s after : State) (target : Lc) (t : Token) : Append :=
  mkAppend s 10 0 (securityDigest after)
    [BitVec.ofNat 8 (lcNum s.sealu.lc), BitVec.ofNat 8 (lcNum target), t.kind, t.signer]

/-- LC_TRANSITION (R446, R447): the token, then the row of Table 19-2, then the LIFECYCLE record, then the fuses. A burn
towards SPENT that fails after its first fuses leaves the UDS row at all ones in the earlier state. -/
def execLcTransition (r : Req) (target : BitVec 8) (tok : Token) (env : Env) (s : State) : Out :=
  command 0x0E03 false r (wBytes 1 target ++ zeros 3 ++ tokenBody tok)
    (fun s => withToken [1, 3, 4, 5] tok s fun s =>
      match lcOf target.toNat with
      | none => (rep 0x0E03, s)
      | some t =>
        if !lcRow s.sealu.lc t tok.kind.toNat || planBusy s then (rep 0x0E03, s)
        else
          let after := burnTransition t tok.kind.toNat s
          match appendNow env.append
              (lcAppend s { after with sealu := { after.sealu with lc := t } } t tok) s with
          | (false, s1) => (rep 0x60, s1)
          | (true, s1) =>
            if env.fuse = 0 then (ok, burnTransition t tok.kind.toNat s1)
            else if env.fuse ≠ 1 ∧ t = .spent then
              fuseFailed { s1 with sealu := { s1.sealu with uds := BitVec.allOnes 256 } }
            else fuseFailed s1) s

/-- First owner slot not yet used (R445). -/
def freeOwnerSlot (s : State) : Option Nat :=
  (List.range 16).find? fun i => decide (tabGet none s.sealu.ownerSlots i = none)

/-- The owner slot burned, then the claim bit: the device is OWNED at once, with an empty key store (Table 19-2). -/
def burnClaim (i : Nat) (d : BitVec 384) (s : State) : State :=
  { s with sealu := { s.sealu with
      ownerSlots := tabSet none s.sealu.ownerSlots i (some d), ownerSlot := BitVec.ofNat 5 i,
      claims := s.sealu.claims + 1, lc := .owned, lcFuse := .owned, planKeys := [] } }

/-- OWNER_CLAIM (R446): the key must match the CLAIM token's arg; an owner slot burned without its claim bit is used up
and leaves the earlier state. -/
def execOwnerClaim (r : Req) (key : BitVec 776) (tok : Token) (env : Env) (s : State) : Out :=
  command 0x0E04 false r (zeros 4 ++ wBytes 97 key ++ zeros 3 ++ tokenBody tok)
    (fun s =>
      let d := Config.sha384 (wBytes 97 key)
      if tok.arg.setWidth 384 ≠ d then (badField 4, s)
      else withToken [2] tok s fun s =>
        match freeOwnerSlot s with
        | none => (rep 0x0E04, s)
        | some i =>
          match appendNow env.append (lcAppend s (burnClaim i d s) .owned tok) s with
          | (false, s1) => (rep 0x60, s1)
          | (true, s1) =>
            if env.fuse = 0 then (ok [BitVec.ofNat 8 i], burnClaim i d s1)
            else if env.fuse = 1 then fuseFailed s1
            else fuseFailed { s1 with sealu := { s1.sealu with
                ownerSlots := tabSet none s1.sealu.ownerSlots i (some d) } }) s

/-- MAKER_PROVISION (R446): in BLANK, the UDS row and then the MAKER bit are burned and the device certificate chain is
kept; the transition takes effect at the cold reset 100 ms later. BLANK keeps no colophon (Table 19-5). -/
def execMakerProvision (r : Req) (chain : List Byte) (env : Env) (s : State) : Out :=
  command 0x0E0D true r (leBytes 2 chain.length ++ zeros 2 ++ chain)
    (fun s =>
      if s.sealu.entropyFail then (rep 0x60, s)
      else if env.fuse = 1 then fuseFailed s
      else
        let s1 := { s with sealu := { s.sealu with uds := env.random.setWidth 256, udsBurned := true } }
        if env.fuse ≠ 0 then fuseFailed s1
        else (ok, { s1 with sealu := { s1.sealu with
            lcFuse := .maker, cert := chain, lcReset := some (s1.aon + BitVec.ofNat 64 (100 * msTicks)) } })) s

/-- DEVICE_CERT_INSTALL (R466): the device certificate chain, in MAKER. -/
def execDeviceCertInstall (r : Req) (chain : List Byte) (s : State) : Out :=
  command 0x0E0E true r (leBytes 2 chain.length ++ zeros 2 ++ chain)
    (fun s => (ok, { s with sealu := { s.sealu with cert := chain } })) s

/-! ## Maker level (R310, R451) -/

/-- EID and transport of a requester, as MAKER_LEVEL records them; a mailbox is transport 0 with EID 0. -/
def requesterBytes (q : ReqSrc) : List Byte :=
  match q with
  | .mailbox _ => [0, 0]
  | .mctp (.i3c _) e => [e, 1]
  | .mctp (.vdm _) e => [e, 2]
  | .mctp (.weft _) e => [e, 3]

/-- MAKER_UNLOCK (R451): maker level for its requester, after the MAKER_LEVEL record; BUSY while another requester holds
the level. -/
def execMakerUnlock (r : Req) (tok : Token) (env : Env) (s : State) : Out :=
  command 0x0E05 false r (tokenBody tok)
    (fun s =>
      if s.mgmt.maker ≠ none ∧ s.mgmt.maker ≠ some r.src then (rep 2, s)
      else withToken [6] tok s fun s =>
        match appendNow env.append (mkAppend s 12 0 0 (requesterBytes r.src)) s with
        | (false, s1) => (rep 0x60, s1)
        | (true, s1) => (ok, { s1 with mgmt := { s1.mgmt with maker := some r.src, makerSince := s1.aon } })) s

/-- MAKER_RELINQUISH (R451). -/
def execMakerRelinquish (r : Req) (s : State) : Out :=
  command 0x0E06 true r []
    (fun s => (ok, { s with mgmt := { s.mgmt with maker := none } })) s

/-! ## Plan-signing keys and debug flags (R452, R455) -/

/-- arg of a PLAN_KEY token for a slot, an operation and a key digest (Table 19-4). -/
def keyArg (slot : BitVec 8) (op : Nat) (d : BitVec 384) : BitVec 512 :=
  BitVec.ofNat 512 (slot.toNat + op * 2 ^ 8 + d.toNat * 2 ^ 16)

/-- A key change: after the KEY record (R459). -/
def keyChange (env : Env) (slot : BitVec 8) (op : Nat) (v : Option (BitVec 776)) (s : State) : Reply × State :=
  let change := fun (s : State) => { s with sealu := { s.sealu with
      planKeys := tabSet none s.sealu.planKeys slot.toNat v } }
  match appendNow env.append (mkAppend s 11 0 (securityDigest (change s)) [slot, BitVec.ofNat 8 op]) s with
  | (false, s1) => (rep 0x60, s1)
  | (true, s1) => (ok, change s1)

/-- PLAN_KEY_INSTALL (R455). -/
def execPlanKeyInstall (r : Req) (slot : BitVec 8) (key : BitVec 776) (tok : Token) (env : Env) (s : State) : Out :=
  command 0x0E07 false r
    (wBytes 1 slot ++ zeros 3 ++ wBytes 97 key ++ zeros 3 ++ tokenBody tok)
    (fun s =>
      if tok.arg ≠ keyArg slot 1 (Config.sha384 (wBytes 97 key)) then (badField 104, s)
      else withToken [7] tok s fun s =>
        if 4 ≤ slot.toNat ∨ keyPoint key = false then (rep 0x0E07, s) else keyChange env slot 1 (some key) s) s

/-- PLAN_KEY_REVOKE (R455). -/
def execPlanKeyRevoke (r : Req) (slot : BitVec 8) (tok : Token) (env : Env) (s : State) : Out :=
  command 0x0E08 false r (wBytes 1 slot ++ zeros 3 ++ tokenBody tok)
    (fun s =>
      if tok.arg ≠ keyArg slot 2 0 then (badField 4, s)
      else withToken [7] tok s fun s =>
        if 4 ≤ slot.toNat then (rep 0x0E07, s) else keyChange env slot 2 none s) s

/-- DEBUG_CONFIG (R452): flags staged for the next cold reset. -/
def execDebugConfig (r : Req) (tok : Token) (s : State) : Out :=
  command 0x0E09 false r (tokenBody tok)
    (fun s =>
      let f : BitVec 8 := tok.arg.setWidth 8
      if (f &&& ~~~ (debugMask s.sealu.lc).setWidth 8) ≠ 0 then (badField 0x40, s)
      else withToken [8] tok s fun s =>
        (ok [f], { s with sealu := { s.sealu with staged := f.setWidth 4, isStaged := true } })) s

/-! ## The colophon -/

/-- COLOPHON_READ (R466): records still in the ring. -/
def execColophonRead (r : Req) (seq : BitVec 64) (count : BitVec 16) (s : State) : Out :=
  command 0x0E0A false r (wBytes 8 seq ++ wBytes 2 count)
    (fun s =>
      if count = 0 ∨ 15 < count.toNat then (badField 8, s)
      else
        let rs := (List.range count.toNat).map fun i => ringRecord s (seq.toNat + i)
        if rs.any (·.isNone) then (rep 0x0E06, s)
        else (ok ((rs.filterMap fun x => x.map (·.bytes)).flatten), s)) s

/-- COLOPHON_QUOTE (R464): boot, seq, the head's chain digest and an alias signature over the digest of nonce, boot, seq
and digest. -/
def execColophonQuote (r : Req) (nonce : BitVec 384) (s : State) : Out :=
  command 0x0E0B false r (wBytes 48 nonce)
    (fun s =>
      let body := wBytes 4 s.sealu.boot ++ wBytes 8 s.sealu.headSeq ++ wBytes 48 s.sealu.headDigest
      let sig := Config.sign (aliasKey s) (wBytes 48 nonce ++ body)
      (ok (wBytes 4 s.sealu.boot ++ zeros 4 ++ wBytes 8 s.sealu.headSeq ++ wBytes 48 s.sealu.headDigest
        ++ wBytes 96 sig), s)) s

/-- CERT_READ (R466): a run of bytes of the device certificate chain or the alias certificate. -/
def execCertRead (r : Req) (which : BitVec 8) (offset : BitVec 32) (length : BitVec 16) (s : State) : Out :=
  command 0x0E0C false r
    (wBytes 1 which ++ zeros 3 ++ wBytes 4 offset ++ wBytes 2 length)
    (fun s =>
      let c := if which = 0 then s.sealu.cert else s.sealu.aliasCert
      if 1 < which.toNat then (badField 0, s)
      else if c.length < offset.toNat + length.toNat then (badField 4, s)
      else if length = 0 ∨ 4096 < length.toNat then (badField 8, s)
      else (ok ((c.drop offset.toNat).take length.toNat), s)) s

/-- COLOPHON_APPEND_DONE (R458, R459): the oldest append in progress is signed, programmed and read back, or fails. -/
def execColophonAppendDone (good : Bool) (s : State) : Out := fin (endAppend good s)

/-- ENTROPY_FAIL (R454): SEAL-0x0030, until a cold reset passes the health tests. -/
def execEntropyFail (s : State) : Out :=
  fin (raiseFree 14 0x30 (source 0 0) { s with sealu := { s.sealu with entropyFail := true } })

/-! ## Measurement of attached devices (R462) -/


/-- flags of a DEVICE record: NO_SPDM, ATTEST_FAILED, TIMEOUT. -/
def measFlags (m : Measured) (late : Bool) : BitVec 32 :=
  BitVec.ofNat 32 (nb (!m.spdm) * 16 + nb (m.spdm && !m.sigOk) * 32 + nb late * 64)

/-- subject of a DEVICE record: the measurement blocks, or the identity of a partner without SPDM. -/
def measSubject (m : Measured) (serial : BitVec 64) : BitVec 384 :=
  if m.spdm then m.subject else Config.sha384 (wBytes 8 serial ++ wBytes 2 m.vendor ++ wBytes 2 m.device)

/-- payload of a DEVICE record (Table 19-8). -/
def measPayload (s : State) (u : Nat) (m : Measured) : List Byte :=
  let p := port s u
  [BitVec.ofNat 8 u, BitVec.ofNat 8 (prSlot (portRec s (u / 2)) (u % 2)), p.role.setWidth 8, m.version]
  ++ wBytes 8 p.ident ++ wBytes 2 m.vendor ++ wBytes 2 m.device
  ++ [BitVec.ofNat 8 (fnat p.ldMap 0 8), m.count, 0, 0] ++ wBytes 48 m.cert

/-- DEVICE_MEASUREMENT_DONE (R462): a DEVICE record is appended when subject, certificate or flags differ from the
port's latest in this boot; a bad signature raises SEAL-0x0020. -/
def execDeviceMeasurementDone (u : BitVec 7) (m : Measured) (env : Env) (s : State) : Out :=
  match s.sealu.spdm.find? fun x => decide (x.port = u.toNat) with
  | none => fin s
  | some x =>
    let late := !m.timely || decide (x.since.toNat + 2000 * msTicks < now s)
    let flags := measFlags m late
    let serial := (port s u.toNat).ident
    let rec_ : DevRec := { subject := measSubject m serial, cert := m.cert, flags := flags, serial := serial }
    let s1 := { s with sealu := { s.sealu with spdm := s.sealu.spdm.filter fun y => !decide (y.port = u.toNat) } }
    let s2 := if m.spdm && !m.sigOk && !late then raiseFree 14 0x20 (source 1 u.toNat) s1 else s1
    let old := tabGet none s.sealu.devRecs u.toNat
    if (old.map fun d => (d.subject, d.cert, d.flags)) = some (rec_.subject, rec_.cert, rec_.flags) then fin s2
    else
      match appendNow env.append (mkAppend s2 6 flags rec_.subject (measPayload s2 u.toNat m)) s2 with
      | (false, s3) => fin s3
      | (true, s3) =>
        fin { s3 with sealu := { s3.sealu with devRecs := tabSet none s3.sealu.devRecs u.toNat (some rec_) } }

/-! ## SPDM responder (R463) -/

/-- Value of a measurement index (Table 19-10). -/
def spdmValue (s : State) (k : Nat) : List Byte :=
  match k with
  | 1 => wBytes 48 Config.romDigest
  | 2 => wBytes 48 s.sealu.fwDigest
  | 3 => wBytes 48 s.sealu.btDigest
  | 4 => wBytes 48 (securityDigest s)
  | 5 => wBytes 48 s.sealu.planChain
  | 6 => wBytes 8 s.sealu.headSeq ++ wBytes 48 s.sealu.headDigest
  | _ => []

/-- Value type of a measurement index (Table 19-10). -/
def spdmType (k : Nat) : Nat := if k = 1 then 0 else if k = 2 then 1 else if k = 3 then 2 else 3

/-- A measurement block of DMTF's format: index, specification 1, size, value type, value size and value (R463; log entry
138). -/
def spdmBlock (s : State) (k : Nat) : List Byte :=
  let v := spdmValue s k
  [BitVec.ofNat 8 k, 1] ++ leBytes 2 (v.length + 3) ++ [BitVec.ofNat 8 (spdmType k)] ++ leBytes 2 v.length ++ v

/-- Measurement blocks of an index, 0xFF for all. -/
def spdmBlocks (s : State) (k : Nat) : List Byte :=
  let one := spdmBlock s
  if k = 0xFF then ((List.range 6).map fun i => one (i + 1)).flatten
  else if 1 ≤ k ∧ k ≤ 6 then one k else []

/-- Certificate slot 0: the chain up to the device certificate, then the alias certificate. -/
def spdmChain (s : State) : List Byte := s.sealu.cert ++ s.sealu.aliasCert

/-- Header of an SPDM 1.3 message: version, code and two parameters (log entry 138). -/
def spdmHead (code p1 p2 : Byte) : List Byte := [0x13, code, p1, p2]

/-- The capabilities of R463, as GET_CAPABILITIES names them: CERT, CHAL, MEAS with signature, ENCRYPT, MAC, KEY_EX. -/
def spdmCaps : BitVec 32 := 0x2D6

/-- The algorithms of R463: ECDSA P-384, SHA-384, secp384r1, AES-256-GCM. -/
def spdmAlgs : List Byte := wBytes 4 0x80#32 ++ wBytes 4 0x02#32 ++ wBytes 2 0x10#16 ++ wBytes 2 0x02#16

/-- The requests of a measurement, in the order of R462: version, capabilities, algorithms, digests, the certificate of slot
0, and all measurements with a signature over a fresh nonce. -/
def spdmAsk (nonce : BitVec 256) : List (List Byte) :=
  [[0x10, 0x84, 0, 0], spdmHead 0xE1 0 0 ++ wBytes 4 spdmCaps, spdmHead 0xE3 0 0 ++ spdmAlgs, spdmHead 0x81 0 0,
   spdmHead 0x82 0 0 ++ wBytes 2 0#16 ++ wBytes 2 0xFFFF#16, spdmHead 0xE0 1 0xFF ++ wBytes 32 nonce]

/-- The requests of a measurement leave for the partner of logical port u, the nonce a fresh random value (R462). -/
def askPartner (u : Nat) (s : State) : State :=
  (spdmAsk (freeVal 256 s)).foldl (fun s bs => emit (.mctp (.vdm (BitVec.ofNat 7 u)) 0 5 bs) s) (tookFree s)

/-- DEVICE_MEASUREMENT (R462, R28): firmware measures the device attached longest, one at a time, as an SPDM requester. -/
def execDeviceMeasurement (u : BitVec 7) (s : State) : Out :=
  fin (if s.mgmt.fw = .running ∧ s.sealu.spdm = [] ∧ s.mgmt.attachQ.head? = some u.toNat then
      askPartner u.toNat { s with mgmt := { s.mgmt with attachQ := s.mgmt.attachQ.drop 1 },
                                  sealu := { s.sealu with spdm := [{ port := u.toNat, since := s.tele.time }] } }
    else s)

/-- IDE_KM at the responder of logical upstream port u (10 R242): a key is held for its stream, and a stream with a key is
Secure from its go on, until its stop. -/
def ideKm (u : Nat) (m : IdeKm) (s : State) : State :=
  let p := port s u
  if p.role ≠ 1 ∨ p.inL0 = false then s
  else
    match m with
    | .query => s
    | .keyProg k key => setPort u { p with ideKeys := tabSet none p.ideKeys k.toNat (some key) } s
    | .keySetGo k =>
      if (tabGet none p.ideKeys k.toNat).isSome then setPort u { p with ideOpen := setFld p.ideOpen k.toNat 1 1 } s else s
    | .keySetStop k => setPort u { p with ideOpen := setFld p.ideOpen k.toNat 1 0, ideSecure := false } s

/-- SPDM_REQUEST (R463): the answer on its transport, signed by the alias key where SPDM signs it. KEY_EXCHANGE and IDE
keying are refused with HW_FAULT while the entropy source has failed (R454). BLANK and SPENT answer nothing (Table 19-5). The
codes are SPDM's (log entry 138). -/
def execSpdmRequest (t : Transport) (eid : BitVec 8) (q : SpdmReq) (s : State) : Out :=
  if s.sealu.lc = .blank ∨ s.sealu.lc = .spent ∨ s.mgmt.fw ≠ .running then fin s
  else
    let answer := fun (bs : List Byte) (s : State) => fin (emit (.mctp t eid 5 bs) s)
    let signed := fun (bs : List Byte) (n : BitVec 256) =>
      bs ++ wBytes 96 (Config.sign (aliasKey s) (wBytes 32 n ++ bs))
    let chain := wBytes 48 (Config.sha384 (spdmChain s))
    let refused := answer (spdmHead 0x7F 0x60 0) s
    match q with
    | .version => answer [0x10, 0x04, 0, 0, 0, 1, 0, 0x13] s
    | .capabilities => answer (spdmHead 0x61 0 0 ++ wBytes 4 spdmCaps) s
    | .algorithms => answer (spdmHead 0x63 0 0 ++ spdmAlgs) s
    | .digests => answer (spdmHead 0x01 0 1 ++ chain) s
    | .certificate o l =>
      let part := ((spdmChain s).drop o.toNat).take l.toNat
      answer (spdmHead 0x02 0 0 ++ leBytes 2 part.length
        ++ leBytes 2 ((spdmChain s).length - o.toNat - part.length) ++ part) s
    | .challenge n => answer (signed (spdmHead 0x03 0 1 ++ chain) n) s
    | .measurements k n =>
      answer (signed (spdmHead 0x60 0 0 ++ leBytes 3 (spdmBlocks s k.toNat).length ++ spdmBlocks s k.toNat) n) s
    | .ideKm u m => if s.sealu.entropyFail then refused else answer (spdmHead 0x7E 0 0) (ideKm u.toNat m s)
    | .keyExchange n =>
      if s.sealu.entropyFail then refused
      else answer (signed (spdmHead 0x64 0 0 ++ chain) n)
        { s with sealu := { s.sealu with sessions := s.sealu.sessions + 1 } }
    | .endSession =>
      answer (spdmHead 0x6C 0 0) { s with sealu := { s.sealu with sessions := s.sealu.sessions - 1 } }

end Sys2Proof.Machine
end

