-- ==== Sys2Proof/Machine/Slot.lean ====
section
/-! DEFINITION. Commands of the slot channels: insertion, ramp, overload, removal, the bay bus, the button and the 0x0D
family (Selvedge Slot Power). -/

namespace Sys2Proof.Machine

open Sys2Proof

/-! ## Insertion (R423, R425) -/

/-- LONG_PIN_CHANGE (R423): PRSNT_L has held a new level for 1 ms; Presence Detect Changed, and a wake source. -/
def execLongPinChange (slot : BitVec 5) (seated : Bool) (s : State) : Out :=
  let n := slot.toNat
  let c := slotCh s n
  if 23 < n ∨ c.prsntL = seated then fin s
  else fin (wakeBy 4 n (slotSts n 3 (setSlot n { c with prsntL := seated } s)))

/-- SHORT_PIN_CLOSE (R423, R425): a closure starts the debounce. -/
def execShortPinClose (slot : BitVec 5) (s : State) : Out :=
  let n := slot.toNat
  let c := slotCh s n
  if 23 < n ∨ c.shortPin then fin s
  else
    let s1 := setSlot n { c with shortPin := true, closeAt := some s.aon, openAt := none } s
    if c.st = .empty then fin (slotTo n .debounce s1) else fin s1

/-- DEBOUNCE_END (R423, R425): closed for 20 ms, the pin is seated; DEBOUNCE goes to WAIT, in auto mode with on = 1. -/
def execDebounceEnd (slot : BitVec 5) (s : State) : Out :=
  let n := slot.toNat
  match (slotCh s n).closeAt with
  | none => fin s
  | some t =>
    let s1 := reachAon (t.toNat + 20 * msTicks) s
    let c := slotCh s1 n
    let s2 := setSlot n { c with closeAt := none, prsntS := true, insertions := c.insertions + 1 } s1
    let s3 := if ctlAuto c then setOn n true s2 else s2
    fin (wakeBy 4 n (if c.st = .debounce then slotTo n .wait s3 else s3))

/-- RAMP_START (R425): from WAIT with on = 1, no retry timer, and a healthy bay bus. -/
def execRampStart (slot : BitVec 5) (s : State) : Out :=
  let n := slot.toNat
  let c := slotCh s n
  if c.st = .wait ∧ ctlOn c ∧ c.retryActive = false ∧ s.slot.busUv = false ∧ s.slot.busOv = false
      ∧ s.slot.vselLost = false then
    fin (slotTo n .ramp (setSlot n { c with gateOn := true, gateOffAt := none, rampAt := some s.aon } s))
  else fin s

/-- VOUT at which power-good qualifies, mV (R427). -/
def pgLevel (s : State) : Nat := max 10800 (s.slot.vbus.toNat - 250)

/-- PG_QUALIFY (R427, R430): power-good is qualified in RAMP; a breaker timer that runs withholds the PG delay. -/
def execPgQualify (slot : BitVec 5) (vout : BitVec 16) (s : State) : Out :=
  let n := slot.toNat
  let c := slotCh s n
  if c.st = .ramp ∧ pgLevel s ≤ vout.toNat then
    fin (slotTo n .pgDelay (setSlot n { c with
      vout := vout, pgFrom := if c.breakerAt.isNone then some s.aon else none } s))
  else fin s

/-- PG_ASSERT (R427): qualification has held for pg_delay_us. -/
def execPgAssert (slot : BitVec 5) (s : State) : Out :=
  let n := slot.toNat
  let c := slotCh s n
  match c.pgFrom with
  | some t =>
    if c.st = .pgDelay then
      let s1 := reachAon (t.toNat + pgDelay c * usTicks) s
      fin (slotTo n .on (setSlot n { c with pg := true, pgFrom := none, rampAt := none, perstFrom := some s1.aon } s1))
    else fin s
  | none => fin s

/-- PERST_RELEASE (R427): perst_delay_ms after PG asserts, unless PERST is held. -/
def execPerstRelease (slot : BitVec 5) (s : State) : Out :=
  let n := slot.toNat
  let c := slotCh s n
  match c.perstFrom with
  | some t =>
    if c.pg ∧ c.perstHold = false then fin (setPerst n false (reachAon (t.toNat + perstDelay c * msTicks) s)) else fin s
  | none => fin s

/-- POWER_GOOD_DROP (R427): a tick without qualification; PG drops with PERST asserted, and the channel is in RAMP again. -/
def execPowerGoodDrop (slot : BitVec 5) (vout : BitVec 16) (s : State) : Out :=
  let n := slot.toNat
  let c := slotCh s n
  if c.st = .pgDelay then fin (slotTo n .ramp (setSlot n { c with vout := vout, pgFrom := none } s))
  else if c.st = .on then
    fin (slotTo n .ramp (setPerst n true (setSlot n { c with
      vout := vout, pg := false, perstFrom := none, rampAt := some s.aon } s)))
  else fin s

/-! ## Overload (R428 to R431) -/

/-- CURRENT_LIMIT (R428, R430): the current reaches ilimit, and the breaker timer starts; a PG delay stops. -/
def execCurrentLimit (slot : BitVec 5) (iout : BitVec 16) (s : State) : Out :=
  let n := slot.toNat
  let c := slotCh s n
  if c.gateOn ∧ gcIlimit c.gateCtl * 100 ≤ iout.toNat then
    fin (setSlot n { c with
      iout := iout, pgFrom := none, breakerAt := if c.breakerAt.isSome then c.breakerAt else some s.aon } s)
  else fin s

/-- BREAKER_TIMER_CLEAR (R428, R430): 16 ticks below ilimit clear the timer, and a PG delay starts afresh. -/
def execBreakerTimerClear (slot : BitVec 5) (iout : BitVec 16) (s : State) : Out :=
  let n := slot.toNat
  let c := slotCh s n
  if c.breakerAt.isSome ∧ iout.toNat < gcIlimit c.gateCtl * 100 then
    fin (setSlot n { c with
      iout := iout, breakerAt := none, pgFrom := if c.st = .pgDelay then some s.aon else c.pgFrom } s)
  else fin s

/-- BREAKER_TRIP (R428): the breaker timer reaches brk_us. -/
def execBreakerTrip (slot : BitVec 5) (s : State) : Out :=
  let n := slot.toNat
  match (slotCh s n).breakerAt with
  | none => fin s
  | some t => fin (slotTrip n .breaker (reachAon (t.toNat + gcBrk (slotCh s n).gateCtl * usTicks) s))

/-- FAST_TRIP (R429): the current reaches fast_trip. -/
def execFastTrip (slot : BitVec 5) (iout : BitVec 16) (s : State) : Out :=
  let n := slot.toNat
  let c := slotCh s n
  if c.gateOn ∧ gcFast c.gateCtl * 1000 ≤ iout.toNat then fin (slotTrip n .fast (setSlot n { c with iout := iout } s))
  else fin s

/-- RAMP_FAIL (R426): power-good is not qualified within ramp_to_ms of the ramp's start. -/
def execRampFail (slot : BitVec 5) (s : State) : Out :=
  let n := slot.toNat
  let c := slotCh s n
  match c.rampAt with
  | some t =>
    if c.st = .ramp then fin (slotTrip n .ramp (reachAon (t.toNat + gcRamp c.gateCtl * msTicks) s)) else fin s
  | none => fin s

/-- RETRY_TIMER_EXPIRY (R431). -/
def execRetryTimerExpiry (slot : BitVec 5) (s : State) : Out :=
  let n := slot.toNat
  let c := slotCh s n
  if c.retryActive then fin (setSlot n { c with retryActive := false } (reachAon c.retryEnd.toNat s)) else fin s

/-! ## Removal (R432, R433) -/

/-- A seated short pin opens (R433): gate off, on cleared, presence loss reported; with the gate on it is a surprise
removal. A latch or a damage stays. -/
def removed (n : Nat) (s : State) : State :=
  let was := (slotCh s n).gateOn
  let s1 := slotReply n true (rep 0x0D02) (setOn n false (gateOff n s))
  let c := slotCh s1 n
  let s2 := setSlot n { c with prsntS := false, surprise := if was then satAdd c.surprise 1 else c.surprise } s1
  let s3 := if was then raiseFree 17 0x20 (source 9 n) s2 else s2
  let s4 := slotDown n .presence s3
  wakeBy 4 n (if c.st = .latched ∨ c.st = .damaged then s4 else slotTo n (offState (slotCh s4 n)) s4)

/-- SHORT_PIN_OPEN (R423, R433): the pin has stayed open for 4 µs. -/
def execShortPinOpen (slot : BitVec 5) (s : State) : Out :=
  let n := slot.toNat
  let c := slotCh s n
  if 23 < n ∨ c.shortPin = false then fin s
  else
    let s1 := setSlot n { c with shortPin := false, closeAt := none, openAt := some s.aon } s
    if c.prsntS then fin (removed n s1)
    else if c.st = .debounce then fin (slotTo n .empty s1)
    else fin s1

/-- RETRY_COUNT_CLEAR (R432): the short pin has stayed open for 1 s; the retry count and a latch go. -/
def execRetryCountClear (slot : BitVec 5) (s : State) : Out :=
  let n := slot.toNat
  match (slotCh s n).openAt with
  | none => fin s
  | some t =>
    let s1 := reachAon (t.toNat + 1000 * msTicks) s
    let c := slotCh s1 n
    let s2 := setSlot n { c with retryCount := 0, openAt := none } s1
    fin (if c.st = .latched then slotTo n (offState c) s2 else s2)

/-! ## Power-off and damage (R435, R436) -/

/-- GATE_OFF_DELAY (R434, R435): 100 µs after a power-off request the gate goes off, and the port is declared down. -/
def execGateOffDelay (slot : BitVec 5) (s : State) : Out :=
  let n := slot.toNat
  match (slotCh s n).offAt with
  | none => fin s
  | some t => fin (slotTo n .decay (slotDown n .link (gateOff n (reachAon (t.toNat + 100 * usTicks) s))))

/-- DECAY_END (R435): VOUT is below 2.0 V. The reading of a DAMAGED channel is kept for SLOT_CLEAR (R436). -/
def execDecayEnd (slot : BitVec 5) (vout : BitVec 16) (s : State) : Out :=
  let n := slot.toNat
  let c := slotCh s n
  if 2000 ≤ vout.toNat then fin s
  else
    let s1 := setSlot n { c with vout := vout } s
    if c.st = .decay then fin (slotTo n (offState { c with vout := vout }) s1)
    else if c.gateOn then fin s
    else fin s1

/-- FET_DAMAGE (R436): the gate commanded off for dmg_delay_ms, VOUT stays at or above 2.0 V for 10 ms. -/
def execFetDamage (slot : BitVec 5) (vout : BitVec 16) (s : State) : Out :=
  let n := slot.toNat
  let c := slotCh s n
  if 23 < n ∨ c.gateOn ∨ c.st = .damaged ∨ vout.toNat < 2000 then fin s
  else
    let s1 := match c.gateOffAt with
      | some t => reachAon (t.toNat + (dmgDelay c + 10) * msTicks) s
      | none => s
    fin (slotReply n true (rep 0x0D07) (raiseFree 17 0x10 (source 9 n)
      (slotTo n .damaged (setPerst n true (setSlot n { c with vout := vout } s1)))))

/-! ## The bay bus (R437) -/

/-- BUS_OV (R437): every gate goes off within 1 µs, and SLOT-0x0030 is raised once; no trip counts. -/
def execBusOv (vbus : BitVec 16) (s : State) : Out :=
  if vbus.toNat < 14400 ∨ s.slot.busOv then fin s
  else
    let s1 := raiseFreeCond 17 0x30 (source 0 0) { s with slot := { s.slot with vbus := vbus, busOv := true } }
    fin ((List.range 24).foldl (fun s n =>
      if (slotCh s n).gateOn then slotTo n .decay (slotDown n .link (gateOff n s)) else s) s1)

/-- BUS_OV_RECOVER (R437): the bus has stayed below 13.8 V for 20 ms; ramps may start again. -/
def execBusOvRecover (vbus : BitVec 16) (s : State) : Out :=
  if s.slot.busOv ∧ vbus.toNat < 13800 then
    fin (condGone 17 0x30 (source 0 0) { s with slot := { s.slot with vbus := vbus, busOv := false } })
  else fin s

/-- BUS_UV (R437): SLOT-0x0031 is raised once, and no ramp starts. -/
def execBusUv (vbus : BitVec 16) (s : State) : Out :=
  if vbus.toNat < 10200 ∧ s.slot.busUv = false then
    fin (raiseFreeCond 17 0x31 (source 0 0) { s with slot := { s.slot with vbus := vbus, busUv := true } })
  else fin s

/-- BUS_UV_RECOVER (R437): the bus is at or above 10.2 V. -/
def execBusUvRecover (vbus : BitVec 16) (s : State) : Out :=
  if s.slot.busUv ∧ 10200 ≤ vbus.toNat then
    fin (condGone 17 0x31 (source 0 0) { s with slot := { s.slot with vbus := vbus, busUv := false } })
  else fin s

/-! ## Button and host (R439, R440, 10 R246) -/

/-- BUTTON_PRESSED (R439): reported and a wake source; a toggle starts, or a second press within 5 s cancels it. -/
def execButtonPressed (slot : BitVec 5) (s : State) : Out :=
  let n := slot.toNat
  if 23 < n then fin s
  else
    let s1 := raiseFree 17 0x21 (source 9 n) (slotSts n 0 s)
    let c := slotCh s1 n
    let s2 := if hostHp s n || !ctlToggle c || decide (c.st = .latched) || decide (c.st = .damaged) then s1
      else setSlot n { c with toggleAt := match c.toggleAt with
        | some t => if s.aon.toNat < t.toNat + 5000 * msTicks then none else some s.aon
        | none => some s.aon } s1
    fin (wakeBy 5 n s2)

/-- BUTTON_TOGGLE_EXPIRY (R439): at the end of the 5 s, on is inverted. -/
def execButtonToggleExpiry (slot : BitVec 5) (s : State) : Out :=
  let n := slot.toNat
  match (slotCh s n).toggleAt with
  | none => fin s
  | some t =>
    let s1 := reachAon (t.toNat + 5000 * msTicks) s
    let s2 := setSlot n { slotCh s1 n with toggleAt := none } s1
    fin (if ctlOn (slotCh s n) then powerOff n s2 else powerOn n s2)

/-- BAY_WAKE_CHANGE (R423): the WAKE level is reported in slot.status. -/
def execBayWakeChange (slot : BitVec 5) (asserted : Bool) (s : State) : Out :=
  if 23 < slot.toNat then fin s else fin (setSlot slot.toNat { slotCh s slot.toNat with wake := asserted } s)

/-- The indicator value of a PCIe indicator control field: 1 on, 2 blink, 3 off; 0 leaves it (log entry 34). -/
def hostLed (v old : Nat) : Nat :=
  match v with
  | 1 => 2 | 2 => 3 | 3 => 1 | _ => old

/-- A host's write of Slot Control takes effect: attention and power indicator, power controller (R246). -/
def hostControl (n : Nat) (v : BitVec 16) (s : State) : State :=
  let c := slotCh s n
  let w1 := setFld c.ctl 3 2 (BitVec.ofNat 2 (hostLed (fnat v 6 2) (ctlAttn c)))
  let w2 := setFld w1 5 2 (BitVec.ofNat 2 (hostLed (fnat v 8 2) (ctlPwr c)))
  ctlWrite n (setFld w2 0 1 (b1 (!bit v 10))) s

/-- The vPPBs bound to logical port u, by USP × 16 + vPPB (10 R241). -/
def vppbsOf (u : Nat) (s : State) : List Nat :=
  (s.mgmt.vppbs.filter fun p => p.2.any fun b => decide (b.port = u)).map (·.1)

/-- Whether a vPPB has host_hp effect on port u's slot: it is bound to the port, and either the port is bound to vPPBs of one
host alone or the fabric manager names it as owner (10 R246). -/
def slotOwner (u k : Nat) (s : State) : Bool :=
  let bound := vppbsOf u s
  bound.contains k && (bound.all (fun j => decide (j / 16 = k / 16))
    || (tabGet none s.mgmt.vppbs k).any fun b => b.owner)

/-- SLOT_CONTROL_WRITE (10 R246): through a vPPB bound to the port, applied where host_hp = 1 and that vPPB has host_hp
effect; Command Completed sets in any case (log entry 51). -/
def execSlotControlWrite (u : BitVec 7) (via : BitVec 11) (value : BitVec 16) (s : State) : Out :=
  let n := prSlot (portRec s (u.toNat / 2)) (u.toNat % 2)
  if 23 < n ∨ !(vppbsOf u.toNat s).contains via.toNat then fin s
  else if hostHp s n ∧ slotOwner u.toNat via.toNat s then fin (slotEvent u.toNat 4 (hostControl n value s))
  else fin (slotEvent u.toNat 4 s)

/-! ## Registers and supplies (R442, 21 R494) -/

/-- GATE_CTL_WRITE (R442). -/
def execGateCtlWrite (slot : BitVec 5) (value : BitVec 64) (s : State) : Out :=
  if 23 < slot.toNat then fin s else fin (gateWrite slot.toNat value s)

/-- SLOT_LOCK_WRITE (R442): gate_ctl is read-only from now on. -/
def execSlotLockWrite (slot : BitVec 5) (s : State) : Out :=
  if 23 < slot.toNat then fin s else fin (setSlot slot.toNat { slotCh s slot.toNat with lock := true } s)

/-- VSEL_LOST (21 R494): every gate is held off and each seated channel's port declared down. -/
def execVselLost (s : State) : Out :=
  if s.slot.vselLost then fin s
  else
    let s1 := raiseFree 17 0x32 (source 0 0) { s with slot := { s.slot with vselLost := true } }
    fin ((List.range 24).foldl (fun s n =>
      let s2 := if (slotCh s n).prsntS then slotDown n .link s else s
      if (slotCh s2 n).gateOn then slotTo n .decay (gateOff n s2) else s2) s1)

/-- VSEL_RESTORED (21 R494): the selvedge restarts as after a cold reset, and its registers are reloaded. -/
def execVselRestored (seated : BitVec 24) (s : State) : Out :=
  if s.slot.vselLost then fin (slotsReset seated s) else fin s

/-! ## The 0x0D family (R443) -/

/-- A command on a slot: NO_SUCH_SLOT above 23. -/
def slotCommand (slot : BitVec 8) (f : Nat → State → Reply × State) (s : State) : Reply × State :=
  if 23 < slot.toNat then (rep 0x0D01, s) else f slot.toNat s

/-- SLOT_STATUS (Table 18-5). -/
def execSlotStatus (r : Req) (slot : BitVec 8) (s : State) : Out :=
  command 0x0D01 false r (wBytes 1 slot) (slotCommand slot fun n s =>
    let c := slotCh s n
    (ok (wBytes 8 (slotStatusWord c) ++ wBytes 8 (slotMeasWord s c) ++ wBytes 8 c.gateCtl ++ wBytes 8 c.ctl
      ++ wBytes 8 c.pgCfg ++ wBytes 8 (slotCountsWord c)), s)) s

/-- SLOT_POWER that pends: on = 1 completes at once in ON, on = 0 in WAIT or EMPTY. -/
def slotPend (r : Req) (n : Nat) (on : Bool) (s : State) : Reply × State :=
  pend 0x0D02 r (fun t s =>
    let c := slotCh s n
    let s1 := setSlot n { c with cmds := c.cmds ++ [(t, on)] } s
    if on then (if c.st = .on then slotReply n true ok s1 else setOn n true s1)
    else powerOff n s1) s

/-- SLOT_POWER (R435, R440, R443): BUSY while another one is pending on the slot (log entry 51). -/
def execSlotPower (r : Req) (slot on_ flags : BitVec 8) (s : State) : Out :=
  command 0x0D02 false r (wBytes 1 slot ++ wBytes 1 on_ ++ wBytes 1 flags) (slotCommand slot fun n s =>
    let c := slotCh s n
    if 1 < on_.toNat then (badField 1, s)
    else if 1 < flags.toNat then (badField 2, s)
    else if on_ = 1 ∧ c.prsntS = false then (rep 0x0D02, s)
    else if on_ = 1 ∧ c.st = .latched then (rep 0x0D03, s)
    else if hostHp s n ∧ flags = 0 then (rep 0x0D05, s)
    else if on_ = 1 ∧ c.st = .damaged then (rep 0x0D07, s)
    else if !c.cmds.isEmpty then (rep 2, s)
    else slotPend r n (decide (on_ = 1)) s) s

/-- SLOT_CONFIG (R442, R443). -/
def execSlotConfig (r : Req) (slot : BitVec 8) (gateCtl ctl pgCfg : BitVec 64) (s : State) : Out :=
  command 0x0D03 false r (wBytes 1 slot ++ zeros 7 ++ wBytes 8 gateCtl ++ wBytes 8 ctl ++ wBytes 8 pgCfg)
    (slotCommand slot fun n s =>
      if gateOk gateCtl = false then (badField 8, s)
      else if (slotCh s n).lock ∧ gateMask gateCtl ≠ (slotCh s n).gateCtl then (rep 0x0D04, s)
      else
        let s1 := gateWrite n gateCtl s
        (ok, ctlWrite n ctl (setSlot n { slotCh s1 n with pgCfg := pgMask pgCfg } s1))) s

/-- SLOT_INDICATOR (R438, R440). -/
def execSlotIndicator (r : Req) (slot attn pwr flags : BitVec 8) (s : State) : Out :=
  command 0x0D04 false r (wBytes 1 slot ++ wBytes 1 attn ++ wBytes 1 pwr ++ wBytes 1 flags) (slotCommand slot fun n s =>
    if 3 < attn.toNat then (badField 1, s)
    else if 3 < pwr.toNat then (badField 2, s)
    else if 1 < flags.toNat then (badField 3, s)
    else if hostHp s n ∧ flags = 0 then (rep 0x0D05, s)
    else
      let c := slotCh s n
      (ok, setSlot n { c with ctl := setFld (setFld c.ctl 3 2 (attn.setWidth 2)) 5 2 (pwr.setWidth 2) } s)) s

/-- A latch is released for one ramp, the retry count unchanged (R432). -/
def clearLatch (n : Nat) (s : State) : State :=
  let c := slotCh s n
  if c.st = .latched then slotTo n (offState c) s else s

/-- A damage is cleared: EMPTY, or DEBOUNCE if the short pin is closed (R436). -/
def clearDamage (n : Nat) (s : State) : State :=
  let c := slotCh s n
  if c.st ≠ .damaged then s
  else if c.shortPin then slotTo n .debounce (setSlot n { c with prsntS := false, closeAt := some s.aon } s)
  else slotTo n .empty s

/-- SLOT_CLEAR (R432, R436): what[0] releases a latch, what[1] a damage, refused while VOUT is at or above 2.0 V. -/
def execSlotClear (r : Req) (slot what : BitVec 8) (s : State) : Out :=
  command 0x0D05 false r (wBytes 1 slot ++ wBytes 1 what) (slotCommand slot fun n s =>
    let c := slotCh s n
    if 3 < what.toNat then (badField 1, s)
    else if bit what 1 ∧ c.st = .damaged ∧ 2000 ≤ c.vout.toNat then (rep 0x0D07, s)
    else
      let s1 := if bit what 0 then clearLatch n s else s
      (ok, if bit what 1 then clearDamage n s1 else s1)) s

/-- PERST of a bay is held asserted, or released as R427. -/
def holdPerst (n : Nat) (hold : Bool) (s : State) : State :=
  let s1 := setSlot n { slotCh s n with perstHold := hold } s
  if hold then setPerst n true s1 else s1

/-- SLOT_PERST (R427). -/
def execSlotPerst (r : Req) (slot hold : BitVec 8) (s : State) : Out :=
  command 0x0D06 false r (wBytes 1 slot ++ wBytes 1 hold) (slotCommand slot fun n s =>
    if 1 < hold.toNat then (badField 1, s) else (ok, holdPerst n (decide (hold = 1)) s)) s

end Sys2Proof.Machine
end

