-- ==== Sys2Proof/Machine/Weft.lean ====
section
/-! DEFINITION. The Weft links' commands: flits, timers, training and the 0x05 Nib family (Weft Links). -/

namespace Sys2Proof.Machine

open Sys2Proof

/-! ## Flits -/

/-- WEFT_FLIT_SEND (R257): the next flit of the link: TRAIN while it trains, SEQ or NOP while it is UP. -/
def execWeftFlitSend (link : BitVec 3) (s : State) : Out :=
  let n := link.toNat
  match (weft s n).st with
  | .equalize => if (weft s n).held then fin (sendTrain n s) else fin s
  | .align | .param => fin (sendTrain n s)
  | .up => fin (sendUp n s)
  | .off | .detect | .relock => fin s

/-- A TRAIN flit on a link in PARAM (R274, R275). -/
def trainIn (n : Nat) (p : WeftPeer) (seen : Bool) (s : State) : State :=
  let w := weft s n
  setWeft n { w with goodTrains := w.goodTrains + 1, seenGot := if seen then w.seenGot + 1 else 0,
                     sawSeen := w.sawSeen || seen, peer := some p, stateAt := s.tele.time } s

/-- A flit position without a good TRAIN flit breaks the run of a link in PARAM (R275). -/
def trainBreak (n : Nat) (s : State) : State := setWeft n { weft s n with goodTrains := 0, seenGot := 0 } s

/-- Corrections made and codewords not corrected on a link that corrects (R256, Table 11-9). -/
def fecCount (n symbols bad : Nat) (s : State) : State :=
  let w := weft s n
  if fecNow w && (decide (w.st = .param) || decide (w.st = .up)) then weftCnt n 1 bad (weftCnt n 0 symbols s) else s

/-- What a receiver found at one flit position: a flit that fails is NAKed, a good one applied. A TRAIN flit on a link that
is UP or in RELOCK declares it down, and a good SEQ or NOP flit in PARAM ends it (R266, R275, R278). -/
def flitPosition (n : Nat) (rx : WeftRx) (s : State) : State :=
  let w := weft s n
  match w.st with
  | .off | .detect | .equalize | .align => s
  | .param =>
    match rx with
    | .line .. => s
    | .bad => trainBreak n (weftCnt n 2 1 s)
    | .train p seen => trainIn n p seen s
    | .flit f =>
      if w.sawSeen ∧ w.idDiffers = false then
        let s2 := weftParamEnd n s
        if (weft s2 n).st = .up then flitIn n f s2 else s2
      else trainBreak n s
  | .up =>
    match rx with
    | .line .. => s
    | .bad => nakWanted n (countErr (48 + n) (weftCnt n 2 1 s))
    | .train _ _ => weftDown n .partner s
    | .flit f => flitIn n f s
  | .relock =>
    match rx with
    | .train _ _ => weftDown n .partner s
    | .line .. | .bad | .flit _ => s

/-- Symbols on link n's lanes, from ALIGN on: lock, order and polarity, deskew, codewords, blocks, and the flits they
complete (R250 to R256). -/
def lineIn (n : Nat) (sym : List (List (BitVec 10))) (msgs : List Msg) (s : State) : State :=
  let w := weft s n
  match w.st with
  | .off | .detect | .equalize => s
  | .align | .param | .up | .relock =>
    let r := rxSymbols (fecNow w) sym w.recv
    let s1 := setWeft n { w with recv := r.2 } s
    let s2 := if w.recv.locked = false ∧ r.2.locked then notePolarity n r.2.order s1 else s1
    let s3 := (readFlits r.1.2 msgs).foldl (fun s x => flitPosition n x s) (fecCount n r.1.1.1 r.1.1.2 s2)
    if recvSymptom (weft s3 n).recv then weftSymptom n s3 else s3

/-- WEFT_FLIT_RECEIVE (R250 to R256, R266): symbols of the lanes pass through the receive path; or the coding layer's
finding at one flit position, with the corrections it made, stands for them. -/
def execWeftFlitReceive (link : BitVec 3) (fecSymbols : BitVec 16) (fecBad : BitVec 8) (rx : WeftRx) (s : State) : Out :=
  let n := link.toNat
  match rx with
  | .line sym msgs => fin (lineIn n sym msgs s)
  | .bad | .flit _ | .train _ _ => fin (flitPosition n rx (fecCount n fecSymbols.toNat fecBad.toNat s))

/-! ## Timers -/

/-- REPLAY_TIMEOUT (R268): replay_timeout without advance runs a round; after four such rounds it is a replay
failure. -/
def execReplayTimeout (link : BitVec 3) (s : State) : Out :=
  let n := link.toNat
  let w := weft s n
  match w.timerAt with
  | some t =>
    if w.st = .up ∧ w.replay ≠ [] then
      let s1 := reach (t.toNat + w.replayTimeout.toNat * usTicks) s
      fin (if 4 ≤ w.stuckRounds then weftDown n .replay s1 else replayRound n none s1)
    else fin s
  | none => fin s

/-- REPLAY_WAIT_LIMIT (R268): 36 µs with flits unacknowledged and no advance is a replay failure. -/
def execReplayWaitLimit (link : BitVec 3) (s : State) : Out :=
  let n := link.toNat
  let w := weft s n
  match w.stuckSince with
  | some t =>
    if (w.st = .up ∨ w.st = .relock) ∧ w.replay ≠ [] then fin (weftDown n .replay (reach (t.toNat + 36 * usTicks) s))
    else fin s
  | none => fin s

/-- SNAP_SEND (R271): every resync_us a SNAP falls due for each enabled channel. -/
def execSnapSend (link : BitVec 3) (s : State) : Out :=
  let n := link.toNat
  let w := weft s n
  if w.st = .up then
    let s1 := reach (w.snapAt.toNat + w.resyncUs.toNat * usTicks) s
    let w1 := (List.range w.vcCount.toNat).foldl (fun w v => setVc v { weftVc w v with snapDue := true } w) (weft s1 n)
    fin (setWeft n { w1 with snapAt := s1.tele.time } s1)
  else fin s

/-- TSYNC_TIME_SEND (R272): at a multiple of tsync_us the next flit is to carry TIME. -/
def execTsyncTimeSend (link : BitVec 3) (s : State) : Out :=
  let n := link.toNat
  let w := weft s n
  if w.st = .up then
    let s1 := reach (multipleFrom (w.tsyncUs.toNat * usTicks) (now s)) s
    fin (setWeft n { weft s1 n with timeDue := true } s1)
  else fin s

/-- Number of a time state (14 Table 14-1). -/
def timeStNum (t : TimeSt) : Nat :=
  match t with
  | .free => 0 | .acquire => 1 | .locked => 2 | .holdover => 3 | .grandmaster => 4

/-- The TIME_INFO this device sends (14 Table 14-2): behind a Weft source, the grandmaster and steps that source names,
one step on; else its own serial. -/
def timeInfoData (s : State) : BitVec 512 :=
  let k := s.tele.source.toNat
  let up : Option (BitVec 256) := if 16 ≤ k ∧ k < 24 then (weft s (k - 16)).timeInfo else none
  let src := if up.isSome then (weft s (k - 16)).ident else s.boot.serial
  let gm := match up with | some d => fld d 0 64 | none => s.boot.serial
  let steps := match up with | some d => min (fnat d 144 8 + 1) 15 | none => 0
  BitVec.ofNat 512 (gm.toNat + src.toNat * 2 ^ 64 + now s / 2 ^ 48 * 2 ^ 128 + steps * 2 ^ 144
    + timeStNum s.tele.st * 2 ^ 152)

/-- TIME_INFO_SEND (14 R340): TIME_INFO on every Weft link that is UP. -/
def execTimeInfoSend (s : State) : Out := fin (sendVc0 (vc0Msg .timeInfo 0 32 (timeInfoData s)) none s)

/-! ## Link events -/

/-- WEFT_SYMPTOM (R278): lock or signal lost; the link enters RELOCK and the 40 µs run. -/
def execWeftSymptom (link : BitVec 3) (s : State) : Out := fin (weftSymptom link.toNat s)

/-- WEFT_RELOCK_DONE (R278): lock is back within the 40 µs and the link returns to UP, which counts as a
RECOVERY. -/
def execWeftRelockDone (link : BitVec 3) (s : State) : Out :=
  let n := link.toNat
  match (weft s n).st, (weft s n).relockAt with
  | .relock, some t =>
    if t.toNat + 40 * usTicks < now s then fin (weftDown n .lock s)
    else
      let s1 := weftClock n (weftCnt n 7 1 (setWeftSt n .up s))
      fin (setWeft n { weft s1 n with relockAt := none } s1)
  | _, _ => fin s

/-- WEFT_DOWN_DECLARE (R278, R279): 40 µs after the symptom a link still in RELOCK is declared down. -/
def execWeftDownDeclare (link : BitVec 3) (s : State) : Out :=
  let n := link.toNat
  match (weft s n).relockAt with
  | some t => if (weft s n).st = .relock then fin (weftDown n .lock (reach (t.toNat + 40 * usTicks) s)) else fin s
  | none => fin s

/-- A training state begun afresh, with no TRAIN flit counted; PARAM keeps the lock that ALIGN found. -/
def trainFrom (n : Nat) (st : WeftSt) (s : State) : State :=
  let s1 := setWeftSt n st s
  setWeft n { weft s1 n with goodTrains := 0, seenSent := 0, seenGot := 0, sawSeen := false, peer := none,
                             recv := if st = .param then (weft s1 n).recv else WeftRecv.init
                             idDiffers := false } s1

/-- Link n's domain is ON (17 R400). -/
def weftOn (s : State) (n : Nat) : Bool := decide ((domain s (152 + n)).st = .on ∧ (domain s (152 + n)).step = 0)

/-- WEFT_TRAIN_STEP (R273): signal on all lanes, all lanes adapted, or lock and deskew: the next training state. -/
def execWeftTrainStep (link : BitVec 3) (s : State) : Out :=
  let n := link.toNat
  if weftOn s n = false then fin s
  else match (weft s n).st with
  | .detect => fin (equalise 7 (weftLanes n) (trainFrom n .equalize s))
  | .equalize => if (weftLanes n).all fun l => (lane s l).converged then fin (trainFrom n .align s) else fin s
  | .align => fin (trainFrom n .param s)
  | .off | .param | .up | .relock => fin s

/-- TRAIN_TIMEOUT (R273): the state's limit passes; the link falls back and WEFT-0x0003 is raised. -/
def execTrainTimeout (link : BitVec 3) (s : State) : Out :=
  let n := link.toNat
  let w := weft s n
  let back := fun (ms : Nat) (st : WeftSt) (again : Bool) =>
    let s1 := trainFrom n st (reach (w.stateAt.toNat + ms * msTicks) s)
    let s2 := if again then equalise 7 (weftLanes n) s1 else lanesLost (weftLanes n) s1
    fin (raiseFree 1 3 (source 2 n) s2)
  match w.st with
  | .equalize => back 20 .detect false
  | .align => back 2 .equalize true
  | .param => back 1 .detect false
  | .off | .detect | .up | .relock => fin s

/-- WEFT_PARAM_END (R275, R276): the counts of R275 are met and PARAM ends with its outcome. -/
def execWeftParamEnd (link : BitVec 3) (s : State) : Out :=
  let n := link.toNat
  if paramDone (weft s n) then fin (weftParamEnd n s) else fin s

/-- WEFT_TAG_TIMEOUT (R281): a request's tag outstanding longer than tag_timeout_ms completes as R261 resolves it and
is freed; a snoop's is not timed (10 R238). -/
def execWeftTagTimeout (link : BitVec 3) (tag : BitVec 16) (s : State) : Out :=
  let n := link.toNat
  let w := weft s n
  match tabGet none w.tags tag.toNat with
  | none => fin s
  | some t =>
    if t.msg.mclass = 3 ∨ w.st ≠ .up then fin s
    else
      let s1 := reach (t.since.toNat + w.tagTimeout.toNat * msTicks) s
      let s2 := setWeft n { w with tags := tabSet none w.tags tag.toNat none } s1
      fin (raiseFree 1 0x20 (source 2 n) (weftCnt n 11 1 (weftResolve n t.msg s2)))

/-- WEFT_COMMAND_COMPLETE (R283): the oldest pending command of the link completes once it is UP or OFF, or after 200 ms
with TIMEOUT. -/
def execWeftCommandComplete (link : BitVec 3) (s : State) : Out :=
  let n := link.toNat
  let w := weft s n
  match w.cmds with
  | [] => fin s
  | c :: cs =>
    let done := decide (w.st = .up) || decide (w.st = .off)
    let s1 := if done then s else reach (c.since.toNat + 200 * msTicks) s
    fin (finishTicket c.ticket (if done then ok else rep 0x70) (setWeft n { w with cmds := cs } s1))

/-! ## The 0x05 Nib family (R282, R283) -/

/-- A command that names a link. -/
def weftCommand (link : BitVec 8) (body : Nat → State → Reply × State) (s : State) : Reply × State :=
  if 7 < link.toNat then (rep 0x0501, s) else body link.toNat s

/-- A command that pends until the link is UP or OFF. -/
def weftPend (op : Nat) (r : Req) (n kind : Nat) (f : State → State) (s : State) : Reply × State :=
  pend op r (fun t s =>
    let s1 := f s
    let w := weft s1 n
    setWeft n { w with cmds := w.cmds ++ [{ ticket := t, kind := BitVec.ofNat 2 kind, since := s.tele.time }] } s1) s

/-- WEFT_STATUS (R282). -/
def execWeftStatus (r : Req) (link : BitVec 8) (s : State) : Out :=
  command 0x0501 false r (wBytes 1 link) (weftCommand link fun n s =>
    let w := weft s n
    (ok (wBytes 8 (weftStatusWord w) ++ wBytes 8 w.ident ++ wBytes 8 (weftPeerWord w) ++ wBytes 8 (weftSeqWord w)
      ++ ((List.range 8).map fun v => wBytes 8 (weftCreditWord (weftVc w v))).flatten
      ++ ((List.range 12).map fun k => wBytes 8 (tabGet 0 w.cnt k)).flatten), s)) s

/-- Offset of the first field of WEFT_CONFIG outside its range (R283). -/
def weftCfgBad (vcCount fec : BitVec 8) (slots : BitVec 256) (rt rs ts tg : BitVec 16) : Option Nat :=
  let sl := fun v => fnat slots (32 * v) 32
  if vcCount.toNat < 2 ∨ 8 < vcCount.toNat then some 1
  else if 1 < fec.toNat then some 2
  else match (List.range 8).find? fun v => if v < vcCount.toNat then decide (sl v < 288) else decide (sl v ≠ 0) with
    | some v => some (4 + 4 * v)
    | none =>
      if 65536 < ((List.range 8).map sl).sum then some 4
      else if rt.toNat < 1 ∨ 64 < rt.toNat then some 36
      else if rs.toNat < 8 then some 38
      else if ts.toNat < 1 ∨ 1000 < ts.toNat then some 40
      else if tg.toNat < 1 ∨ 1000 < tg.toNat then some 42
      else none

/-- The configuration of a link written; a changed one keeps no receive state for RESUME (Table 11-8; log entry 37). -/
def weftConfigure (vcCount fec : BitVec 8) (slots : BitVec 256) (rt rs ts tg : BitVec 16) (w : Weft) : Weft :=
  let tab := (List.range 8).foldl (fun t v => tabSet 0 t v (fld slots (32 * v) 32)) []
  { w with cfgVc := vcCount.setWidth 4, cfgFec := decide (fec = 1), cfgSlots := tab, replayTimeout := rt, resyncUs := rs,
           tsyncUs := ts, tagTimeout := tg,
           rxValid := w.rxValid && decide (w.cfgVc = vcCount.setWidth 4) && decide (w.cfgSlots = tab) }

/-- WEFT_CONFIG (R283): accepted only while the link is OFF. -/
def execWeftConfig (r : Req) (link vcCount fec : BitVec 8) (vcSlots : BitVec 256)
    (replayTimeout resync tsync tagTimeout : BitVec 16) (s : State) : Out :=
  command 0x0502 false r
    (wBytes 1 link ++ wBytes 1 vcCount ++ wBytes 1 fec ++ zeros 1 ++ wBytes 32 vcSlots ++ wBytes 2 replayTimeout ++ wBytes 2 resync ++ wBytes 2 tsync ++ wBytes 2 tagTimeout)
    (weftCommand link fun n s =>
      match weftCfgBad vcCount fec vcSlots replayTimeout resync tsync tagTimeout with
      | some off => (badField off, s)
      | none =>
        if (weft s n).st ≠ .off then (rep 0x0502, s)
        else (ok, setWeft n (weftConfigure vcCount fec vcSlots replayTimeout resync tsync tagTimeout (weft s n)) s)) s

/-- WEFT_ACCEPT_IDENTITY (R283): the partner of a NEW outcome is recorded and the link reaches UP. -/
def execWeftAcceptIdentity (r : Req) (link : BitVec 8) (s : State) : Out :=
  command 0x0503 false r (wBytes 1 link) (weftCommand link fun n s =>
    let w := weft s n
    match w.peer with
    | some p =>
      if w.idDiffers then (ok (wBytes 8 p.serial ++ leBytes 1 p.link.toNat), weftUp n p .new s) else (rep 0x0503, s)
    | none => (rep 0x0503, s)) s

/-- A commanded retrain: declared down with cause COMMAND, or training begun again where the link is not up. -/
def weftRetrain (n : Nat) (s : State) : State :=
  let st := (weft s n).st
  if st = .off then s
  else if st = .up ∨ st = .relock then weftDown n .command s
  else equalise 7 (weftLanes n) (trainFrom n .equalize s)

/-- WEFT_RETRAIN (R283). -/
def execWeftRetrain (r : Req) (link : BitVec 8) (s : State) : Out :=
  command 0x0504 false r (wBytes 1 link)
    (weftCommand link fun n s => weftPend 0x0504 r n 0 (weftRetrain n) s) s

/-- WEFT_DISABLE (R283): declared down, and OFF. -/
def execWeftDisable (r : Req) (link : BitVec 8) (s : State) : Out :=
  command 0x0505 false r (wBytes 1 link)
    (weftCommand link fun n s =>
      weftPend 0x0505 r n 1 (fun s => weftStop n .command (setWeft n { weft s n with disabled := true } s)) s) s

/-- WEFT_ENABLE (R283): an OFF link goes to DETECT; BUSY while a lane test runs on it (12 R300). -/
def execWeftEnable (r : Req) (link : BitVec 8) (s : State) : Out :=
  command 0x0506 false r (wBytes 1 link)
    (weftCommand link fun n s =>
      if (weftLanes n).any fun l => (lane s l).testing then (rep 2, s)
      else weftPend 0x0506 r n 2 (fun s => weftRelease n (setWeft n { weft s n with disabled := false } s)) s) s

/-- WEFT_COUNTERS_CLEAR (R282). -/
def execWeftCountersClear (r : Req) (link : BitVec 8) (s : State) : Out :=
  command 0x0507 false r (wBytes 1 link)
    (weftCommand link fun n s => (ok, setWeft n { weft s n with cnt := [] } s)) s

end Sys2Proof.Machine
end

