-- ==== Sys2Proof/Machine/Time.lean ====
section
/-! DEFINITION. Fabric time: references, sources, the servo, TSYNC (Telemetry, Counters and Fabric Time). -/

namespace Sys2Proof.Machine

open Sys2Proof

/-! ## References (R333) -/

/-- A 25 MHz input shows no edge: the other is taken where it is present, else both are lost. -/
def refLost (input : Nat) (s : State) : State :=
  let t := { s.tele with refPresent := setFld s.tele.refPresent input 1 0 }
  let s1 := { s with tele := t }
  if t.refPresent = 0 then raiseFreeCond 18 2 (source 0 0) s1
  else if t.ref.toNat = input then
    raiseFree 18 1 (source 0 0) { s1 with tele := { t with ref := BitVec.ofNat 1 (1 - input) } }
  else s1

/-- REF_SWITCHED (R333): a 25 MHz input that was present is lost. -/
def execRefSwitched (input : BitVec 1) (s : State) : Out :=
  if bit s.tele.refPresent input.toNat then fin (refLost input.toNat s) else fin s

/-- REF25_RESTORED (R333): a lost input shows edges again. The PLL stays on the input it runs from, unless that one is
lost. -/
def execRef25Restored (input : BitVec 1) (s : State) : Out :=
  if bit s.tele.refPresent input.toNat then fin s
  else
    let s1 := condGone 18 2 (source 0 0)
      { s with tele := { s.tele with refPresent := setFld s.tele.refPresent input.toNat 1 1 } }
    if bit s1.tele.refPresent s1.tele.ref.toNat then fin s1
    else fin (raiseFree 18 1 (source 0 0) { s1 with tele := { s1.tele with ref := input } })

/-! ## Sources (R334, R336) -/

/-- The state that a change to source c brings: GRANDMASTER where LOCAL is the first candidate; HOLDOVER where LOCKED is
left with no source but LOCAL; else ACQUIRE. -/
def timeStFor (c : Nat) (t : TeleState) : TimeSt :=
  if c = 1 ∧ tabGet 0 t.sources 0 = 1 then .grandmaster
  else if c ≤ 1 then
    match t.st with
    | .locked | .holdover => .holdover
    | .free => if c = 0 then .free else .acquire
    | _ => .acquire
  else .acquire

/-- Source c is taken: entry to ACQUIRE from LOCKED raises TIME_UNLOCKED, entry to HOLDOVER raises HOLDOVER (R336). -/
def takeSource (c : Nat) (s : State) : State :=
  let st := timeStFor c s.tele
  let s1 := { s with tele := { s.tele with
      source := BitVec.ofNat 8 c, st := st, good := 0, far := 0, betterSince := none } }
  if s.tele.st = .locked ∧ st = .acquire then raiseFree 18 0x10 (source 0 0) s1
  else if s.tele.st ≠ .holdover ∧ st = .holdover then raiseFree 18 0x11 (source 0 0) s1
  else s1

/-- The clocks moved on to the instant at which the source in use becomes invalid for want of a pulse or an ECHO. -/
def untilStale (s : State) : State :=
  let c := s.tele.source.toNat
  if sourceValid s c = false then s
  else if c = 2 then
    match s.tele.tsyncAt with
    | some a => reach (a.toNat + 11 * (secTicks / 10) + 1) s
    | none => s
  else if 16 ≤ c then
    match tabGet none s.tele.echoAt (c - 16) with
    | some a => reach (a.toNat + 4 * (weft s (c - 16)).tsyncUs.toNat * usTicks + 1) s
    | none => s
  else s

/-- TIME_SOURCE_CHANGE (R334): the source in use becomes invalid, or none was in use, and the highest-priority valid
candidate takes over in the same clock. -/
def execTimeSourceChange (s : State) : Out :=
  if s.tele.source = 1 then fin s
  else
    let s1 := untilStale s
    let c := bestSource s1
    if c = s1.tele.source.toNat then fin s1 else fin (takeSource c s1)

/-- TIME_SOURCE_REVERT (R334): a candidate of higher priority that has stayed valid for revert_s takes over. -/
def execTimeSourceRevert (s : State) : Out :=
  match s.tele.betterSince with
  | none => fin s
  | some a =>
    if better s ∧ a.toNat + s.tele.revertS.toNat * secTicks ≤ now s then fin (takeSource (bestSource s) s)
    else fin s

/-! ## The servo (R335 to R337) -/

/-- Fabric time stepped to t: what counts by absolute fabric time starts from there (R337: before the first activation
nothing else depends on it). -/
def stepTime (t : BitVec 64) (s : State) : State :=
  { s with
    tele := { s.tele with time := t, stepped := true, dumpFrom := t, edge := none, heatFrom := t, aged := false, betterSince := none, traceAt := none
                          tsyncAt := s.tele.tsyncAt.map fun a => a + t - s.tele.time
                          echoAt := tabMap none (fun _ a => a.map fun x => x + t - s.tele.time) s.tele.echoAt
                          tsyncFall := t }
    traffic := { s.traffic with refilled := BitVec.ofNat 64 (t.toNat / frameTicks)
                                sampled := tabMap 0 (fun _ _ => t) s.traffic.sampled }
    scribe := { s.scribe with refilled := BitVec.ofNat 64 (t.toNat / 32000) }
    xbar := { s.xbar with auditStart := t, planes := tabMap Plane.init (fun _ p => { p with nextSlot := 0 }) s.xbar.planes } }

/-- Fabric time after a step by offset o; where the step from a Weft source crosses a 2^48 boundary, bits [63:48] are
the partner's time_hi (R340). -/
def steppedTime (s : State) (o : Int) : BitVec 64 :=
  let t := s.tele.time + BitVec.ofInt 64 o
  let k := s.tele.source.toNat
  if t.toNat / 2 ^ 48 = now s / 2 ^ 48 ∨ k < 16 then t
  else
    match (weft s (k - 16)).timeInfo with
    | some d => setFld t 48 16 (fld d 128 16)
    | none => t

/-- tele.time_status.offset of a measured offset; one that its 32 bits do not hold reads as a free value. -/
def offsetWord (o : Int) (s : State) : BitVec 32 :=
  if -2147483648 ≤ o ∧ o < 2147483648 then BitVec.ofInt 32 o else freeVal 32 s

/-- The rate correction the servo chooses, in steps of 0.01 ppb: at most ±200 ppm, a free value within it; at the limit
toward the source while an offset beyond 1 ms is removed (R335, R337; log entry 53). -/
def servoRate (frozen : Bool) (o : Int) (s : State) : Int :=
  if frozen ∧ 8000000 < o.natAbs then (if 0 < o then 20000000 else -20000000)
  else Int.ofNat ((freeVal 64 s).toNat % 40000001) - 20000000

/-- LOCKED and ACQUIRE count their measurements (Table 14-1). -/
def timeCount (o : Int) (s : State) : State :=
  let t := s.tele
  match t.st with
  | .acquire =>
    let g := if o.natAbs ≤ 16 then t.good + 1 else 0
    if 64 ≤ g then { s with tele := { t with st := .locked, good := 0, far := 0 } }
    else { s with tele := { t with good := g } }
  | .locked =>
    let f := if 64 < o.natAbs then t.far + 1 else 0
    if 8 ≤ f then raiseFree 18 0x10 (source 0 0) { s with tele := { t with st := .acquire, good := 0, far := 0 } }
    else { s with tele := { t with far := f } }
  | _ => s

/-- One measurement of the source's time minus local time (R335 to R337). -/
def measure (o : Int) (s : State) : State :=
  let s0 := { tookFree s with tele := { s.tele with offset := offsetWord o s } }
  if s.tele.frozen = false ∧ s.tele.st = .acquire ∧ 8000 < o.natAbs then
    let s1 := stepTime (steppedTime s0 o) s0
    { s1 with tele := { s1.tele with good := 0 } }
  else
    let s1 := timeCount o { tookFree s0 with tele := { s0.tele with rate := servoRate s.tele.frozen o s0 } }
    if s.tele.frozen = false then s1
    else if 8000000 < o.natAbs then raiseFreeCond 18 0x12 (source 0 0) s1
    else condGone 18 0x12 (source 0 0) s1

/-- asym of Weft link n, ticks. -/
def asymOf (s : State) (n : Nat) : Int := sval (tabGet 0 s.tele.asym n)

/-- TIME_OFFSET_MEASUREMENT (R335, 11 R272): the Weft source in use gives a measurement, asym subtracted. -/
def execTimeOffsetMeasurement (s : State) : Out :=
  let k := s.tele.source.toNat
  if 16 ≤ k ∧ k < 24 then
    let w := weft s (k - 16)
    match w.forward, w.back with
    | some f, some b =>
      let s1 := setWeft (k - 16) { w with back := none } { s with tele := { s.tele with
          path := BitVec.ofInt 32 ((f + b).tdiv 2) } }
      fin (measure ((f - b).tdiv 2 - asymOf s (k - 16)) s1)
    | _, _ => fin s
  else fin s

/-! ## TSYNC pins (R339, R340) -/

/-- The nearest multiple of p minus t; of two as near, which one is a free value. -/
def nearestOffset (p t : Nat) (s : State) : Int :=
  let r := t % p
  if 2 * r < p ∨ (2 * r = p ∧ freeVal 1 s = 0) then -(Int.ofNat r) else Int.ofNat (p - r)

/-- TSYNC_IN_PULSE (R340): a pulse high for `high` ticks. -/
def execTsyncInPulse (high : BitVec 32) (s : State) : Out :=
  let h := high.toNat
  let period := if 640000 ≤ h ∧ h ≤ 960000 then secTicks else if 1920000 ≤ h ∧ h ≤ 2880000 then 2 ^ 33 else 0
  if period = 0 then
    let s1 := { s with tele := { s.tele with badPulses := s.tele.badPulses + 1 } }
    fin (if s.tele.badPulses = 0 then raiseFree 18 0x13 (source 0 0) s1 else s1)
  else
    let s1 := noteBetter (fun s => { s with tele := { s.tele with tsyncAt := some s.tele.time } }) s
    if s.tele.source = 2 then fin (measure (nearestOffset period (now s) s1) (tookFree s1)) else fin s1

/-- The first second edge at or after t that no marker omits (R339). -/
def secondEdge (t : Nat) : Nat :=
  let e := multipleFrom secTicks t
  let r := e % 2 ^ 33
  if r < 8000000 ∨ 2 ^ 33 - 8000000 ≤ r then e + secTicks else e

/-- TSYNC_OUT_PULSE (R339): TSYNC_OUT rises at the next second or marker, for 100 µs or 300 µs. -/
def execTsyncOutPulse (s : State) : Out :=
  if s.tele.tsyncOut = 0 then fin s
  else
    let t := max (now s) s.tele.tsyncFall.toNat
    let sec := secondEdge t
    let mark := multipleFrom (2 ^ 33) t
    let s1 := reach (min sec mark) s
    let isMark := decide (mark ≤ sec)
    fin (emit (.pin 0 (if isMark then 1 else 0) true) { s1 with tele := { s1.tele with
      tsyncFall := s1.tele.time + BitVec.ofNat 64 ((if isMark then 300 else 100) * usTicks) } })

/-! ## Commands (R354) -/

/-- TIME_STATUS. -/
def execTimeStatus (r : Req) (s : State) : Out :=
  command 0x0A01 false r [] (fun s =>
    let d := timeInfoData s
    (ok (wBytes 8 s.tele.time ++ leBytes 1 (timeStNum s.tele.st) ++ wBytes 1 s.tele.source ++ wBytes 1 s.tele.ref
      ++ leBytes 1 (fnat d 144 8) ++ wBytes 4 s.tele.offset ++ wBytes 4 s.tele.path
      ++ wBytes 4 (BitVec.ofInt 32 (s.tele.rate.tdiv 100)) ++ leBytes 8 (fnat d 0 64)), s)) s

/-- A value names a candidate source, or none. -/
def sourceOk (c : Nat) : Bool := decide (c ≤ 2) || decide (16 ≤ c ∧ c < 24)

/-- Payload offset of TIME_CONFIG's first bad field. -/
def timeConfigBad (sources : BitVec 32) (tsyncOut ref : BitVec 8) (revertS : BitVec 16) : Option Nat :=
  match (List.range 4).find? fun i => !sourceOk (fnat sources (8 * i) 8) with
  | some i => some i
  | none =>
    if 1 < tsyncOut.toNat then some 4
    else if 1 < ref.toNat then some 5
    else if revertS = 0 ∨ 3600 < revertS.toNat then some 6
    else none

/-- Candidates changed: the highest-priority valid one is in use at once; an unchanged source keeps its state, but for
GRANDMASTER, which LOCAL as the first candidate makes. -/
def reSource (old : Tab (BitVec 8)) (s : State) : State :=
  let c := bestSource s
  if old = s.tele.sources then s
  else if c ≠ s.tele.source.toNat ∨ s.tele.st = .grandmaster ∨ timeStFor c s.tele = .grandmaster then takeSource c s
  else s

/-- TIME_CONFIG (R333 to R335). -/
def execTimeConfig (r : Req) (sources : BitVec 32) (tsyncOut ref : BitVec 8) (revertS : BitVec 16) (asym : BitVec 128)
    (s : State) : Out :=
  command 0x0A02 false r (wBytes 4 sources ++ wBytes 1 tsyncOut ++ wBytes 1 ref ++ wBytes 2 revertS ++ wBytes 16 asym)
    (fun s =>
    match timeConfigBad sources tsyncOut ref revertS with
    | some k => (badField k, s)
    | none =>
      let t := { s.tele with
        sources := tabWrite 0 [] 0 ((List.range 4).map fun i => fld sources (8 * i) 8)
        tsyncOut := tsyncOut, ref := ref.setWidth 1, revertS := revertS
        asym := tabWrite 0 [] 0 ((List.range 8).map fun i => fld asym (16 * i) 16) }
      let s1 := reSource s.tele.sources { s with tele := { t with betterSince := none } }
      let other := 1 - t.ref.toNat
      (ok, if bit t.refPresent t.ref.toNat = false ∧ bit t.refPresent other then
          raiseFree 18 1 (source 0 0) { s1 with tele := { s1.tele with ref := BitVec.ofNat 1 other } }
        else s1)) s

/-- TIME_SET (R337): a step before the first activation. -/
def execTimeSet (r : Req) (time : BitVec 64) (s : State) : Out :=
  command 0x0A03 false r (wBytes 8 time) (fun s =>
    if s.tele.frozen then (rep 0x0A01, s) else (ok, stepTime time s)) s

end Sys2Proof.Machine
end

