-- ==== Sys2Proof/Machine/Tele.lean ====
section
/-! DEFINITION. Counter sets, dumps, the heat map and the trace ring (Telemetry, Counters and Fabric Time). -/

namespace Sys2Proof.Machine

open Sys2Proof

/-- A configuration of telemetry wakes its domain (17 R400). -/
def teleWake (s : State) : State := wake 217 s

/-- Counter set b with its counters of cycles brought up to the present. -/
def csNow (s : State) (b : Nat) : CSet := cycleSync s.aon b (cset s b)

/-! ## Counter sets (R342 to R345) -/

/-- Set b cleared: cycles and all eight counters 0. -/
def csClear (c : CSet) : CSet := { c with cycles := 0, cnt := [] }

/-- COUNTER_CLEAR (R342): a write of tele.cs.ctl.clear. -/
def execCounterClear (set : BitVec 7) (s : State) : Out :=
  if 88 < set.toNat then fin s else fin (storeCset set.toNat (csClear (csNow s set.toNat)) s)

/-- The counters of a set as 8-byte values: cycles and cnt[0] to cnt[7]. -/
def csBytes (c : CSet) : List Byte := wBytes 8 c.cycles ++ (List.range 8).flatMap fun k => wBytes 8 (tabGet 0 c.cnt k)

/-- The sets a window's result carries: those with win = 1. -/
def windowBytes (s : State) (w : CWindow) : List Byte :=
  wBytes 8 w.start ++ wBytes 8 w.length ++ ((List.range 89).filter fun b => (cset s b).win).flatMap fun b =>
    leBytes 1 b ++ zeros 7 ++ csBytes (csNow s b)

/-- COUNTER_WINDOW_END (R345): at start + length the values of the window's sets are latched and the command completes. -/
def execCounterWindowEnd (s : State) : Out :=
  match s.tele.window with
  | none => fin s
  | some w =>
    let s1 := reach (w.start.toNat + w.length.toNat) s
    fin (finishTicket w.ticket (ok (windowBytes s1 w)) { s1 with tele := { s1.tele with window := none } })

/-- Whether Table 14-5 allows an event code for a set. -/
def eventAllowed (set code : Nat) : Bool :=
  if code = 6 ∨ code = 7 then decide (set ≤ 55) || decide (58 ≤ set ∧ set ≤ 81)
  else if code = 8 then decide (58 ≤ set ∧ set ≤ 65) || decide (set = 82) || decide (set = 86 ∨ set = 87)
  else decide (code ≤ 9)

/-- Written bits of evsel, flt_src, flt_addr and flt_class: reserved bits are ignored (R10). -/
def evselMask : BitVec 64 := 0xFFFFFFFF000001FF
/-- Written bits of tele.cs.flt_src. -/
def fltSrcMask : BitVec 64 := 0x3FF
/-- Written bits of tele.cs.flt_addr. -/
def fltAddrMask : BitVec 64 := 0x000FFFFFFFFFF03F
/-- Written bits of tele.cs.flt_class. -/
def fltClassMask : BitVec 64 := 0xFFFF

/-- A write of tele.cs.ctl: enable, win, freeze_on_ovf and clear. -/
def csCtlWrite (w : BitVec 64) (c : CSet) : CSet :=
  let c1 := { c with enable := bit w 0, win := bit w 1, freeze := bit w 2 }
  if bit w 3 then csClear c1 else c1

/-- CS_CONFIG (R354). -/
def execCsConfig (r : Req) (set : BitVec 8) (ctl : BitVec 64) (evsel : BitVec 512) (fltSrc fltAddr fltClass : BitVec 64)
    (s : State) : Out :=
  command 0x0A04 false r (wBytes 1 set ++ zeros 7 ++ wBytes 8 ctl ++ wBytes 64 evsel ++ wBytes 8 fltSrc
    ++ wBytes 8 fltAddr ++ wBytes 8 fltClass) (fun s =>
    let b := set.toNat
    let ev := fun k => fld evsel (64 * k) 64
    if 88 < b then (rep 0x0A02, s)
    else
      match (List.range 8).find? fun k => !eventAllowed b (fnat (ev k) 0 4) with
      | some k => (badField (16 + 8 * k), s)
      | none =>
        let c := csCtlWrite ctl (csNow s b)
        (ok, teleWake (storeCset b { c with
          evsel := tabWrite 0 [] 0 ((List.range 8).map fun k => ev k &&& evselMask)
          fltSrc := fltSrc &&& fltSrcMask, fltAddr := fltAddr &&& fltAddrMask
          fltClass := fltClass &&& fltClassMask } s))) s

/-- A counter set word that reads uncorrectable is set to 0: cnt[k], or cycles where k is 8 (15 Table 15-3). -/
def csUe (e : Ecc) (b k : Nat) (s : State) : State :=
  let s1 := memRead 5 e s
  if eccBad e then
    let c := csNow s1 b
    storeCset b (if k = 8 then { c with cycles := 0 } else { c with cnt := tabSet 0 c.cnt k 0 }) s1
  else s1

/-- CS_READ (R354). -/
def execCsRead (r : Req) (set : BitVec 8) (ecc : Ecc) (which : BitVec 4) (s : State) : Out :=
  command 0x0A05 false r (wBytes 1 set) (fun s =>
    let b := set.toNat
    if 88 < b then (rep 0x0A02, s)
    else
      let s1 := csUe ecc b (min which.toNat 8) (teleWake s)
      let c := csNow s1 b
      (ok (csBytes c ++ wBytes 1 c.ovf ++ zeros 7 ++ wBytes 8 c.sample), s1)) s

/-- TELE_WINDOW_ARM (R345). -/
def execTeleWindowArm (r : Req) (start length : BitVec 64) (s : State) : Out :=
  command 0x0A06 false r (wBytes 8 start ++ wBytes 8 length) (fun s =>
    if start.toNat ≤ now s then (badField 0, s)
    else if length.toNat < 8192 then (badField 8, s)
    else if s.tele.window.isSome then (rep 2, s)
    else pend 0x0A06 r (fun t s => teleWake { s with tele := { s.tele with
      window := some { ticket := t, start := start, length := length } } }) s) s

/-! ## Dumps (R346 to R348) -/

/-- The dump record of binding b (Table 14-6). -/
def dumpRecord (s : State) (cnts : Tab BindCnt) (b : Nat) : List Byte :=
  let c := tabGet BindCnt.init cnts b
  let x := ctx s b
  leBytes 2 b ++ leBytes 1 (ctxState x) ++ leBytes 1 (ctxClass x) ++ wBytes 4 (ctxCookie x) ++ wBytes 8 c.reqs
    ++ wBytes 8 c.rdBytes ++ wBytes 8 c.wrBytes ++ wBytes 8 c.err ++ wBytes 8 c.latSum ++ wBytes 4 c.latMax
    ++ leBytes 4 (brun s b).outstanding.toNat ++ leBytes 4 (heldOf s b) ++ zeros 4

/-- The counters as they stood at the dump boundary (R347): those kept by `dumpEdge`, or the present ones. -/
def edgeCounts (s : State) : Tab BindCnt × Tab CSet :=
  match s.tele.edge with
  | some e => e
  | none => (s.tele.bind, tabMap CSet.init (cycleSync s.aon) s.tele.sets)

/-- The dump of boundary t (Table 14-7): header, 8,192 binding records, the counter sets where flags[0] asks. -/
def dumpBytes (s : State) (t : BitVec 64) (seq : BitVec 32) : List Byte :=
  let e := edgeCounts s
  let recs := (List.range 8192).flatMap fun b => dumpRecord s e.1 b
  let sets := if bit s.tele.dumpFlags 0 then (List.range 89).flatMap fun b => csBytes (tabGet CSet.init e.2 b) else []
  leBytes 4 0x504D5544 ++ leBytes 2 1 ++ leBytes 2 s.tele.dumpFlags.toNat ++ wBytes 4 seq ++ wBytes 4 s.tele.lostSince
    ++ wBytes 8 t ++ wBytes 8 s.tele.dumpAt ++ wBytes 8 s.boot.serial ++ wBytes 4 s.plan.generation
    ++ wBytes 4 (crc32 recs) ++ zeros 16 ++ recs ++ sets

/-- A boundary is skipped: counted, and the first skip raises DUMP_SKIPPED (R347). -/
def dumpSkip (s : State) : State :=
  let t := s.tele
  let s1 := { s with tele := { t with dumpLost := satAdd t.dumpLost 1, lostSince := t.lostSince + 1 } }
  if t.dumpLost = 0 then raiseFree 18 0x20 (source 0 0) s1 else s1

/-- Every binding's counters are latched at boundary t for the next staging slot, and each lat_max starts again, unless
an event at or past the boundary has made it start already (R346, R347). -/
def dumpTake (t : BitVec 64) (s : State) : State :=
  { s with tele := { s.tele with
      dumpWriting := some { seq := s.tele.dumpSeq, bytes := dumpBytes s t s.tele.dumpSeq }
      bind := if s.tele.edge.isSome then s.tele.bind else tabMap BindCnt.init (fun _ c => { c with latMax := 0 }) s.tele.bind
      edge := none, dumpAt := t, lostSince := 0 } }

/-- DUMP_LATCH (R347): at the next dump boundary every binding's counters are latched for the next staging slot; events
stamped there belong to the next dump. -/
def execDumpLatch (s : State) : Out :=
  if s.tele.dumpK = 0 then fin s
  else
    let t := BitVec.ofNat 64 (dumpBoundary s)
    let s0 := reach (dumpBoundary s) s
    let seq := s0.tele.dumpSeq + 1
    let s1 := { s0 with tele := { s0.tele with dumpSeq := seq, dumpFrom := t + 1 } }
    if (s1.tele.dumpWriting.isSome ∧ s1.tele.edge = none) ∨ stagingLost s1 seq.toNat then
      fin (dumpSkip { s1 with tele := { s1.tele with edge := none } })
    else fin (dumpTake t s1)

/-- A dump staged while the previous host write runs is not written to the host; any other waits for its host write
(R348). -/
def hostStaged (q : BitVec 32) (s : State) : State :=
  if bit s.tele.dumpFlags 1 = false then s
  else if s.tele.hostWriting.isSome then { s with tele := { s.tele with hostSkipped := satAdd s.tele.hostSkipped 1 } }
  else { s with tele := { s.tele with hostDue := s.tele.hostDue ++ [q] } }

/-- DUMP_WRITE_DONE (R347): the latched dump is in its staging slot. -/
def execDumpWriteDone (s : State) : Out :=
  match s.tele.dumpWriting with
  | none => fin s
  | some d =>
    fin (hostStaged d.seq { s with tele := { s.tele with
      dumpWriting := none
      dumps := d :: (s.tele.dumps.filter fun x => decide (x.seq.toNat % 1024 ≠ d.seq.toNat % 1024)) } })

/-- Memory type of the staging slot of a dump. -/
def stagingType (seq : BitVec 32) : Nat := 8 + seq.toNat % 2

/-- Bytes written to a host's memory from an address on: posted writes of 64 bytes each, from xp 63 to the output of logical
port u (R348, 01 Table 1-3; log entry 121). -/
def busWrites (u : Nat) : Nat → BitVec 64 → List Byte → State → State
  | 0, _, _, s => s
  | n + 1, a, bs, s =>
    let m : Msg := { vc0Msg .ioPosted 0 (bs.take 64).length (BitVec.ofNat 512 (leNat (bs.take 64))) with
      mclass := opClass .ioPosted, feid := BitVec.ofNat 16 u, inXp := 63, dev := a, born := s.tele.time }
    busWrites u n (a + 64) (bs.drop 64) (enqueue (queueXp s (u / 2)) m s)

/-- DUMP_HOST_WRITE (R348): the next staged dump is written to its host slot, a MiB each, or skipped while the previous
host write runs, or where its staging slot reads uncorrectable (15 Table 15-3; log entry 54). -/
def execDumpHostWrite (ecc : Ecc) (s : State) : Out :=
  match s.tele.hostDue with
  | [] => fin s
  | q :: l =>
    let s1 := { s with tele := { s.tele with hostDue := l } }
    let skip := fun (s : State) => { s with tele := { s.tele with hostSkipped := satAdd s.tele.hostSkipped 1 } }
    if s.tele.hostWriting.isSome then fin (skip s1)
    else
      match s.tele.dumps.find? fun d => decide (d.seq = q) with
      | none => fin (skip s1)
      | some d =>
        let s2 := memRead (stagingType q) ecc s1
        if eccBad ecc then fin (skip s2)
        else
          let slot := q.toNat % s.tele.dumpSlots.toNat
          fin (busWrites s.tele.dumpPort.toNat ((d.bytes.length + 63) / 64)
            (s.tele.dumpBase + BitVec.ofNat 64 (slot * 2 ^ 20)) d.bytes { s2 with tele := { s2.tele with hostWriting := some q } })

/-- DUMP_HOST_WRITE_DONE (R348). -/
def execDumpHostWriteDone (s : State) : Out := fin { s with tele := { s.tele with hostWriting := none } }

/-- Payload offset of DUMP_CONFIG's first bad field: a host write needs an owner port with Bus Master Enable. -/
def dumpConfigBad (s : State) (periodK flags port : BitVec 8) (slots : BitVec 16) (hostBase : BitVec 64) (busMaster : Bool) :
    Option Nat :=
  if periodK ≠ 0 ∧ (periodK.toNat < 6 ∨ 20 < periodK.toNat) then some 0
  else if 3 < flags.toNat then some 1
  else if bit flags 1 ∧ !(decide (port.toNat < 96) && bit s.boot.board.ownerMask port.toNat && busMaster) then some 2
  else if slots = 0 ∨ 1024 < slots.toNat then some 4
  else if fnat hostBase 0 12 ≠ 0 then some 8
  else none

/-- DUMP_CONFIG (R354): a new period from its first boundary after acceptance. -/
def execDumpConfig (r : Req) (periodK flags port : BitVec 8) (slots : BitVec 16) (hostBase : BitVec 64) (busMaster : Bool)
    (s : State) : Out :=
  command 0x0A07 false r (wBytes 1 periodK ++ wBytes 1 flags ++ wBytes 1 port ++ zeros 1 ++ wBytes 2 slots ++ zeros 2
    ++ wBytes 8 hostBase) (fun s =>
    match dumpConfigBad s periodK flags port slots hostBase busMaster with
    | some k => (badField k, s)
    | none =>
      (ok, teleWake { s with tele := { s.tele with
        dumpK := periodK, dumpFlags := flags, dumpPort := port, dumpSlots := slots, dumpBase := hostBase
        dumpFrom := s.tele.time + 1, edge := none } })) s

/-- DUMP_READ (R354): bytes of a staged dump; a range beyond the dump's end is a bad offset (log entry 54). -/
def execDumpRead (r : Req) (seq offset length : BitVec 32) (ecc : Ecc) (s : State) : Out :=
  command 0x0A08 false r (wBytes 4 seq ++ wBytes 4 offset ++ wBytes 4 length) (fun s =>
    if length = 0 ∨ 8000 < length.toNat then (badField 8, s)
    else
      match s.tele.dumps.find? fun d => decide (d.seq = seq) with
      | none => (rep 0x0A03, s)
      | some d =>
        if stagingLost s seq.toNat then (rep 0x0A03, s)
        else if d.bytes.length < offset.toNat + length.toNat then (badField 4, s)
        else
          let s1 := memRead (stagingType seq) ecc s
          (if eccBad ecc then rep 0x60 else ok ((d.bytes.drop offset.toNat).take length.toNat), s1)) s

/-! ## Heat map (R349 to R351) -/

/-- Heat counters of the variant. -/
def heatCount (s : State) : Nat := if s.boot.hb then 2 ^ 31 else 2 ^ 32

/-- The sweep of the aging boundary a is taken: the next one is a later boundary's (R351). -/
def sweepTaken (a : BitVec 64) (s : State) : State := { s with tele := { s.tele with heatFrom := a + 1, aged := false } }

/-- HEAT_AGE_SWEEP (R351): at a multiple of the aging period a sweep starts and halves every counter, unless one still
runs. Increments pending at its start are in their counters by then (log entry 52). -/
def execHeatAgeSweep (s : State) : Out :=
  if s.tele.agePeriod = 0 then fin s
  else
    let s0 := reach (ageInstant s) s
    let s1 := sweepTaken (BitVec.ofNat 64 (ageInstant s)) s0
    if s0.tele.aged then fin s1 else if s0.tele.sweeping then fin s1 else fin (heatAge s1)

/-- HEAT_SWEEP_DONE (R351). -/
def execHeatSweepDone (s : State) : Out := fin { s with tele := { s.tele with sweeping := false } }

/-- HEAT_CONFIG (R354). -/
def execHeatConfig (r : Req) (enable : BitVec 8) (agePeriod : BitVec 32) (s : State) : Out :=
  command 0x0A09 false r (wBytes 1 enable ++ zeros 3 ++ wBytes 4 agePeriod) (fun s =>
    if 1 < enable.toNat then (badField 0, s)
    else if agePeriod ≠ 0 ∧ (agePeriod.toNat < 1000 ∨ 3600000 < agePeriod.toNat) then (badField 4, s)
    else (ok, teleWake { s with tele := { s.tele with
      heatOn := decide (enable = 1), agePeriod := agePeriod, heatFrom := s.tele.time, aged := false } })) s

/-- A heat counter with its pending increments; one in a lost stack reads 0. -/
def heatValue (s : State) (k : Nat) : BitVec 16 :=
  if heatLost s k then 0 else satAdd (tabGet 0 s.tele.heat k) (tabGet 0 s.tele.heatInc k).toNat

/-- The word that holds counter k reads uncorrectable: its 32 counters are set to 0 (15 Table 15-3). -/
def heatUe (e : Ecc) (k : Nat) (s : State) : State :=
  let s1 := memRead (8 + k / 2048 % 2) e s
  if eccBad e then { s1 with tele := { s1.tele with heat := tabFilter (fun i _ => decide (i / 32 ≠ k / 32)) s1.tele.heat } }
  else s1

/-- HEAT_READ (R350, R354). -/
def execHeatRead (r : Req) (index : BitVec 32) (count : BitVec 16) (ecc : Ecc) (which : BitVec 32) (s : State) : Out :=
  command 0x0A0A false r (wBytes 4 index ++ wBytes 2 count) (fun s =>
    let i := index.toNat
    if heatCount s < i + count.toNat then (badField 0, s)
    else if count = 0 ∨ 2048 < count.toNat then (badField 4, s)
    else
      let s1 := if i ≤ which.toNat ∧ which.toNat < i + count.toNat then heatUe ecc which.toNat s else s
      (ok ((List.range count.toNat).flatMap fun k => wBytes 2 (heatValue s1 (i + k))), s1)) s

/-- HEAT_CLEAR (R354). -/
def execHeatClear (r : Req) (index count : BitVec 32) (s : State) : Out :=
  command 0x0A0B false r (wBytes 4 index ++ wBytes 4 count) (fun s =>
    if heatCount s < index.toNat + count.toNat then (badField 0, s)
    else pend 0x0A0B r (fun t s => { s with tele := { s.tele with
      heatClears := s.tele.heatClears ++ [(t, index, count)] } }) s) s

/-- HEAT_CLEAR_DONE (R354): the oldest pending clear is finished. -/
def execHeatClearDone (s : State) : Out :=
  match s.tele.heatClears with
  | [] => fin s
  | (t, i, n) :: l =>
    let keep := fun (k : Nat) (_ : BitVec 16) => decide (k < i.toNat ∨ i.toNat + n.toNat ≤ k)
    fin (finishTicket t ok { s with tele := { s.tele with
      heatClears := l, heat := tabFilter keep s.tele.heat, heatInc := tabFilter keep s.tele.heatInc } })

/-! ## Trace ring (R352, R353) -/

/-- Payload offset of TRACE_CONFIG's first bad field; after a stack loss the ring holds 1 GiB at most (15 R373). Disabling
checks enable alone (log entry 54). -/
def traceConfigBad (s : State) (enable sizeLog2 mode points : BitVec 8) : Option Nat :=
  let lost := tabGet false s.xbar.stackLost 0 || tabGet false s.xbar.stackLost 1
  if 1 < enable.toNat then some 0
  else if enable = 0 then none
  else if sizeLog2.toNat < 20 ∨ (if lost then 30 else 31) < sizeLog2.toNat then some 1
  else if 1 < mode.toNat then some 2
  else if 3 < points.toNat then some 3
  else none

/-- TRACE_CONFIG (R352): enabling restarts the ring at record 0. -/
def execTraceConfig (r : Req) (enable sizeLog2 mode points classMask : BitVec 8) (xpMask start length : BitVec 64)
    (stopFault postRecords : BitVec 32) (s : State) : Out :=
  command 0x0A0C false r (wBytes 1 enable ++ wBytes 1 sizeLog2 ++ wBytes 1 mode ++ wBytes 1 points ++ wBytes 1 classMask
    ++ zeros 3 ++ wBytes 8 xpMask ++ wBytes 8 start ++ wBytes 8 length ++ wBytes 4 stopFault ++ wBytes 4 postRecords)
    (fun s =>
    match traceConfigBad s enable sizeLog2 mode points with
    | some k => (badField k, s)
    | none =>
      if enable = 0 then (ok, { s with tele := { s.tele with traceOn := false } })
      else
        (ok, teleWake { s with tele := { s.tele with
          traceOn := true, traceSize := sizeLog2, traceMode := mode, tracePoints := points, traceClasses := classMask
          traceXps := xpMask, traceStart := start, traceLength := length, traceStop := stopFault
          tracePost := postRecords, traceLeft := none, traceWritten := 0, traceStopped := false, traceRaised := false
          traceGap := 0, traceAt := none, ring := [] } })) s

/-- Records of the ring that a TRACE_READ names are all written and not overwritten. -/
def traceHas (t : TeleState) (index count : Nat) : Bool :=
  decide (index + count ≤ t.traceWritten.toNat) && decide (t.traceWritten.toNat ≤ index + ringSlots t)

/-- Memory type that holds a record of the ring: 4 KiB units over both stacks, or the surviving one (15 Table 15-4, R373). -/
def ringType (s : State) (index : Nat) : Nat :=
  if tabGet false s.xbar.stackLost 0 then 9
  else if tabGet false s.xbar.stackLost 1 then 8
  else 8 + index % ringSlots s.tele / 64 % 2

/-- TRACE_READ (R354). -/
def execTraceRead (r : Req) (index : BitVec 64) (count : BitVec 16) (ecc : Ecc) (s : State) : Out :=
  command 0x0A0D false r (wBytes 8 index ++ wBytes 2 count) (fun s =>
    if count = 0 ∨ 126 < count.toNat then (badField 8, s)
    else if traceHas s.tele index.toNat count.toNat = false then (rep 0x0A04, s)
    else
      let s1 := memRead (ringType s index.toNat) ecc s
      let recs := (List.range count.toNat).flatMap fun k =>
        wBytes 64 (tabGet 0 s.tele.ring ((index.toNat + k) % ringSlots s.tele))
      (if eccBad ecc then rep 0x60 else ok recs, s1)) s

end Sys2Proof.Machine
end

