-- ==== Sys2Proof/Machine/Xbar.lean ====
section
/-! DEFINITION. The crossbar's commands: slots, cells, promotion, plane loss and loom links (Warp Crossbar, Weave Slots
and the Shuttle Matcher). -/

namespace Sys2Proof.Machine

open Sys2Proof

/-! ## Slots and cells -/

/-- SLOT_MATCH (R95, R96, R98, R100): the plane's next slot, no earlier than its fabric time. A plane that is not UP matches
nothing. The slots of one number begin together on both planes: plane 1's runs after plane 0's, so that the lower seq of a
pair goes on plane 0 (log entry 117). -/
def execSlotMatch (pl : BitVec 1) (s : State) : Out := live s fun s =>
  let n := pl.toNat
  if (plane s n).st ≠ .up then fin s
  else
    let a := max (plane s n).nextSlot (slotAt (now s))
    let s1 := reach (slotTick a) s
    let s2 := if n = 1 ∧ (plane s1 0).st = .up ∧ (plane s1 0).nextSlot ≤ a then runSlot 0 a s1 else s1
    fin (runSlot n a s2)

/-- CELL_ARRIVAL (R97, R106, R107): a cell whose header fails is dropped unacknowledged; a good one is acknowledged and
enters the resequencer, poisoned or bad where its payload is uncorrectable; one that came before is discarded there. The
detail of CELL_UE holds src_xp in [5:0], dst_xp in [11:6], the binding in [24:12] and the case in [25] (log entry 118). -/
def execCellArrival (src dst : BitVec 6) (seq : BitVec 12) (header payload : Ecc) (inHeader : Bool) (s : State) : Out := live s fun s =>
  let i := src.toNat
  let x := dst.toNat
  let p := pair s (pairIx i x)
  match p.window.find? fun u => decide (u.seq = seq) && u.flying with
  | none => fin s
  | some u =>
    let n := u.plane.toNat
    let land := fun (a : Bool) =>
      { p with window := p.window.map fun v => if v.seq = seq then { v with flying := false, acked := v.acked || a } else v }
    if (plane s n).st ≠ .up then fin (setPair (pairIx i x) (land false) s)
    else
      let s0 := memRead 1 header s
      if eccBad header then fin (headerError n x (setPair (pairIx i x) (land false) s0))
      else
        let s1 := memRead 1 payload (setPair (pairIx i x) (land true) s0)
        let s2 := if 0 < u.resends ∧ u.acked = false then recoveredCell u.lostOn.toNat i x s1 else s1
        let s3 := if eccBad payload then
            raise 4 0x21 (srcOfXp x) (BitVec.ofNat 64 (i + x * 64 + u.msg.binding.toNat * 2 ^ 12 + nb inHeader * 2 ^ 25)) s2
          else s2
        let s4 := if u.idx + 1 = u.total ∧ u.acked = false then countOut (56 + n) u.msg s3 else s3
        fin (reseqIn i x seq (ecellOf u (eccBad payload && !inHeader) (eccBad payload && inHeader)) s4)

/-- CELL_ACK_RECEIVE (R97, R117): the acknowledged cell's buffer is freed and its charge ends. -/
def execCellAckReceive (src dst : BitVec 6) (seq : BitVec 12) (s : State) : Out :=
  let i := src.toNat
  let x := dst.toNat
  match (pair s (pairIx i x)).window.find? fun u => decide (u.seq = seq) && u.acked with
  | none => fin s
  | some u => fin (freeCell i x u s)

/-- CELL_RESEND_TIMEOUT (R97): 32 cell times after it was sent, a cell whose acknowledgement has not reached its input is to be
resent; after three resends it is lost, skipped by the resequencer, and XBAR-0x0011 raised with the plane that last carried
it. -/
def execCellResendTimeout (src dst : BitVec 6) (seq : BitVec 12) (s : State) : Out :=
  let i := src.toNat
  let x := dst.toNat
  match (pair s (pairIx i x)).window.find? fun u => decide (u.seq = seq) && !u.due with
  | none => fin s
  | some u =>
    let n := u.plane.toNat
    let s1 := reach (u.sentAt.toNat + 205) s
    if 3 ≤ u.resends then
      let s2 := reseqIn i x seq (ecellOf u false true) (freeCell i x u s1)
      fin (raiseFree 3 0x11 (source 5 n) s2)
    else
      let p := pair s1 (pairIx i x)
      let w := p.window.map fun v => if v.seq = seq then { v with flying := false, due := true } else v
      let q := plane s1 n
      fin (setPlane n { q with resendCount := satAdd q.resendCount 1 } (setPair (pairIx i x) { p with window := w } s1))

/-! ## Promotion (R102, R103) -/

/-- Starvation limit of an xp, in ticks. -/
def starveTicks (s : State) (x : Nat) : Nat := txStarve (traf s (8192 + x)) * usTicks

/-- A starvation timer that reaches its limit promotes its queue for 4 cells. -/
def promote (limit : Nat) (g : Starve) (s : State) : Option (Starve × State) :=
  match g.since with
  | none => none
  | some t =>
    if g.urgent ≠ 0 then none
    else
      let s1 := reach (t.toNat + limit) s
      some ({ g with urgent := 4, order := s1.xbar.promoteOrder, promoted := s1.tele.time },
        { s1 with xbar := { s1.xbar with promoteOrder := s1.xbar.promoteOrder + 1 } })

/-- URGENT_PROMOTION (R102): a VOQ group at input xp for output `peer`, or the service-class queue of output xp. -/
def execUrgentPromotion (atOutput : Bool) (xp peer : BitVec 6) (sclass : BitVec 3) (s : State) : Out :=
  let x := xp.toNat
  let sc := sclass.toNat
  if atOutput then
    match promote (starveTicks s x) (tabGet Starve.init (output s x).starve sc) s with
    | none => fin s
    | some (g, s1) =>
      let o := output s1 x
      fin (setOutput x { o with starve := tabSet Starve.init o.starve sc g } s1)
  else
    let k := groupIx x peer.toNat sc
    match promote (starveTicks s x) (tabGet Starve.init s.xbar.starve k) s with
    | none => fin s
    | some (g, s1) => fin { s1 with xbar := { s1.xbar with starve := tabSet Starve.init s1.xbar.starve k g } }

/-! ## Planes (R109 to R112) -/

/-- Cause a number names (xbar.plane_status). -/
def planeCause (c : BitVec 2) : PlaneCause :=
  match c.toNat with
  | 0 => .clockLock | 1 => .headerErrors | 2 => .resends | _ => .selfCheck

/-- PLANE_SYMPTOM (R109): the first symptom of an UP plane starts the path to its declaration. -/
def execPlaneSymptom (pl : BitVec 1) (cause : BitVec 2) (s : State) : Out := fin (planeSymptom pl.toNat (planeCause cause) s)

/-- PLANE_SELF_CHECK (R109, R112): a path fault is a symptom of an UP plane; it returns a STANDBY plane to DOWN. -/
def execPlaneSelfCheck (pl : BitVec 1) (passed : Bool) (s : State) : Out :=
  let p := plane s pl.toNat
  if passed then fin s
  else if p.st = .up then fin (planeSymptom pl.toNat .selfCheck s)
  else if p.st = .standby then fin (setPlane pl.toNat { p with st := .down, checkFail := true, rejoin := false } s)
  else fin s

/-- PLANE_DOWN (R109 to R111): a plane with a symptom is declared lost with that cause. -/
def execPlaneDown (pl : BitVec 1) (s : State) : Out :=
  match (plane s pl.toNat).symptom with
  | none => fin s
  | some (c, _) => fin (planeDown pl.toNat c s)

/-- The self-check of plane n ends in an exit from DOZE: the plane carries traffic again, or is lost (17 R408). -/
def exitCheck (n : Nat) (passed : Bool) (s : State) : State :=
  let s1 := setPlane n { plane s n with st := .up } s
  if passed then s1
  else
    let s2 := planeDown n .selfCheck s1
    setDomain (168 + n) (domain s (168 + n)) (setPlane n { plane s2 n with checkFail := true } s2)

/-- The self-check of a plane ends: STANDBY, or DOWN with check_fail; one that comes back from DOZE or a rollback is UP at once,
and one that was STANDBY or DOWN before stays so where it passes (R112, 17 R404, R408). -/
def planeChecked (n : Nat) (passed : Bool) (s : State) : State :=
  let p := plane s n
  match p.st with
  | .test =>
    if comingBack s n then exitCheck n passed s
    else setPlane n { p with st := if passed then .standby else .down, checkFail := !passed } s
  | _ => if passed then s else setPlane n { p with st := .down, checkFail := true, rejoin := false } s

/-- PLANE_CHECK_END (R112): the self-check of a plane ends a whole frame after the boundary at which it began; its domain is
then ON. -/
def execPlaneCheckEnd (pl : BitVec 1) (passed : Bool) (s : State) : Out :=
  let n := pl.toNat
  let p := plane s n
  if p.st = .up ∨ (domain s (168 + n)).step ≠ 4 then fin s
  else
    let s1 := reach (nextFrame (p.testFrom.toNat - 1) + frameTicks) s
    let d := domain s1 (168 + n)
    let s2 := setDomain (168 + n) { d with st := .on, step := 0 } s1
    fin (exitNext (planeChecked n passed s2))

/-- PLANE_REJOIN_WRITE (R112): ignored unless the plane is STANDBY. -/
def execPlaneRejoinWrite (pl : BitVec 1) (s : State) : Out :=
  let p := plane s pl.toNat
  if p.st = .standby then fin (setPlane pl.toNat { p with rejoin := true } s) else fin s

/-- PLANE_REJOINED (R112): at the next frame boundary the plane carries traffic again; its PLANE_LOSS has gone and
XBAR-0x0002 is raised. -/
def execPlaneRejoined (pl : BitVec 1) (s : State) : Out :=
  let n := pl.toNat
  if (plane s n).st = .standby ∧ (plane s n).rejoin then
    let s1 := reach (nextFrame (now s)) s
    let s2 := setPlane n { plane s1 n with st := .up, rejoin := false, checkFail := false, symptom := none } s1
    fin (raiseFree 3 2 (source 5 n) (triggerGone 3 n (condGone 3 1 (source 5 n) s2)))
  else fin s

/-! ## Loom links (R113) -/

/-- LOOM_LINK_SYMPTOM (R113): the first symptom of an UP link starts its 30 µs timer. -/
def execLoomLinkSymptom (lm : BitVec 3) (s : State) : Out :=
  let l := loom s lm.toNat
  if l.st = .up ∧ l.symptomAt = none then fin (setLoom lm.toNat { l with symptomAt := some s.tele.time } s) else fin s

/-- LOOM_LINK_RECOVERY (R113): a link that recovers within 30 µs counts a recovery and loses nothing. -/
def execLoomLinkRecovery (lm : BitVec 3) (s : State) : Out :=
  let l := loom s lm.toNat
  match l.symptomAt with
  | none => fin s
  | some t =>
    if now s < t.toNat + 30 * usTicks then
      fin (setLoom lm.toNat { l with symptomAt := none, recoveries := l.recoveries + 1 } s)
    else fin s

/-- LOOM_LINK_DOWN (R113): 30 µs after its first symptom the link is declared failed: its outputs are HELD, hold timers
start, XBAR-0x0020 is raised and LOOM_LINK indexed. -/
def execLoomLinkDown (lm : BitVec 3) (s : State) : Out :=
  let n := lm.toNat
  match (loom s n).symptomAt with
  | none => fin s
  | some t =>
    fin (loomDown n (reach (t.toNat + 30 * usTicks) s))

/-- LOOM_LINK_RETRY (R113): a failed link retries its retrain every 1 ms. -/
def execLoomLinkRetry (lm : BitVec 3) (s : State) : Out :=
  let l := loom s lm.toNat
  if l.st = .up then fin s
  else
    let s1 := reach (l.lastTry.toNat + msTicks) s
    fin (setLoom lm.toNat { l with st := .retraining, lastTry := s1.tele.time } s1)

/-- LOOM_LINK_UP (R113): a failed link retrains; hold limits that have passed expire first (R125), outputs whose external link
stayed up enter RESUMING, requests that waited at its ports are decoded, and XBAR-0x0021 is raised. -/
def execLoomLinkUp (lm : BitVec 3) (s : State) : Out :=
  let n := lm.toNat
  let l := loom s n
  if l.st = .up then fin s
  else
    let s1 := setLoom n { l with st := .up } s
    let s2 := (loomXps n).foldl (fun s x => if x < 48 then expireDue x (2 * x + 1) (expireDue x (2 * x) s) else s) s1
    let s3 := (loomXps n).foldl
      (fun s x => if linkLive s x && decide ((output s x).st = .held) then resumeOutput x s else s) s2
    let s4 := (loomXps n).foldl (fun s x => if x < 48 then stopHolds x s else s) s3
    fin (unblock (raiseFree 3 0x21 (source 12 n) (triggerGone 2 n (condGone 3 0x20 (source 12 n) s4))))

end Sys2Proof.Machine
end

