-- ==== Sys2Proof/Machine/Regs.lean ====
section
/-! DEFINITION. The Device Control Window: every register's word and every register's write (13 R312, R326 Table 13-8, and
the Registers sections of the chapters; 00 R9 to R11). -/

namespace Sys2Proof.Machine

open Sys2Proof

/-! ## Words not written elsewhere -/

/-- Number of firmware's state. -/
def fwNum (f : FwSt) : Nat :=
  match f with
  | .reset => 0 | .loading => 1 | .running => 2 | .restarting => 3 | .halted => 4

/-- ident.device. -/
def identWord (s : State) : BitVec 64 :=
  BitVec.ofNat 64 (0x4860 + s.boot.stepping.toNat * 2 ^ 16 + nb s.boot.hb * 2 ^ 20 + s.boot.grade.toNat * 2 ^ 22)

/-- mgmt.fw_status. -/
def fwStatusWord (s : State) : BitVec 64 :=
  BitVec.ofNat 64 (fwNum s.mgmt.fw + s.mgmt.restarts.toNat * 2 ^ 16 + s.mgmt.heartbeat.toNat * 2 ^ 32)

/-- seq of the oldest unacknowledged record; head where there is none. -/
def oldestSeq (s : State) : BitVec 32 :=
  match s.mgmt.events with
  | e :: _ => e.seq
  | [] => s.mgmt.head

/-- mgmt.event_status. -/
def eventStatusWord (s : State) : BitVec 64 :=
  BitVec.ofNat 64 (s.mgmt.head.toNat + (oldestSeq s).toNat * 2 ^ 32)

/-- boot.status (20, Registers). -/
def bootStatusWord (s : State) : BitVec 64 :=
  let b := s.boot
  BitVec.ofNat 64 (b.stage.toNat + nb b.image * 16 + nb b.fallback * 32 + nb b.recovery * 64 + nb b.planHold * 128
    + b.i3cAddr.toNat * 2 ^ 8 + b.cause.toNat * 2 ^ 11 + b.runningAt.toNat * 2 ^ 16)

/-- pkg.thermal (21, Registers). -/
def thermalWord (s : State) : BitVec 64 :=
  let b := s.boot
  BitVec.ofNat 64 (b.thermal.toNat + b.warn.toNat * 2 ^ 40 + nb b.warnActive * 2 ^ 48 + nb b.thermTrip * 2 ^ 49)

/-- gpio.ctl: a driven pin's level at the ball is the driven one. -/
def gpioWord (s : State) : BitVec 64 :=
  let b := s.boot
  let level := (b.gpioOut &&& b.gpioOe) ||| (b.gpioIn &&& ~~~ b.gpioOe)
  BitVec.ofNat 64 (b.gpioOe.toNat + b.gpioOut.toNat * 2 ^ 16 + level.toNat * 2 ^ 32)

/-- mbx[m].ctl. -/
def mbxCtlWord (b : Mailbox) : BitVec 64 := BitVec.ofNat 64 (nb b.go + 2 * nb b.irqEn)
/-- mbx[m].status. -/
def mbxStatusWord (b : Mailbox) : BitVec 64 :=
  BitVec.ofNat 64 (nb b.done + 2 * nb b.busy + b.overrun.toNat * 2 ^ 16 + b.answered.toNat * 2 ^ 32)

/-- flt.summary (16, Registers). -/
def fltSummaryWord (s : State) : BitVec 64 :=
  let v := s.fault.recs.filter fun p => p.2.valid
  let iso := (v.filter fun p => p.2.isolated).length
  let worst := v.foldl (fun n p => max n (faultClass p.1)) 0
  BitVec.ofNat 64 (v.length + nb s.fault.safeStop * 2 ^ 13 + min iso 4095 * 2 ^ 14 + worst * 2 ^ 26)

/-- flt.safe_stop. -/
def fltSafeStopWord (s : State) : BitVec 64 :=
  BitVec.ofNat 64 (s.fault.ssCode.toNat + s.fault.ssBlock.toNat * 2 ^ 8 + s.fault.ssStamp.toNat * 2 ^ 16)

/-- Number of a stack's state. -/
def stackStNum (v : StackSt) : Nat :=
  match v with
  | .up => 0 | .lost => 1 | .outOfService => 2

/-- hbm.stack_status. -/
def stackWord (v : Stack) : BitVec 64 :=
  BitVec.ofNat 64 (stackStNum v.st + v.cause.toNat * 4 + v.rows.toNat * 2 ^ 16 + v.words.toNat * 2 ^ 32
    + v.retrains.toNat * 2 ^ 48)

/-- Register o of memory type m: mem.type_status, spare_status, scrub_ctl, scrub_status. -/
def memWord (m : MemType) (o : Nat) : BitVec 64 :=
  match o with
  | 0 => BitVec.ofNat 64 (m.corrected.toNat + m.hard.toNat * 2 ^ 32 + m.ue.toNat * 2 ^ 48)
  | 1 => BitVec.ofNat 64 (m.used.toNat + m.exhausted.toNat * 2 ^ 16 + m.exhaustedHits.toNat * 2 ^ 32
      + m.evictions.toNat * 2 ^ 48)
  | 2 => BitVec.ofNat 64 (m.period.toNat + nb m.scrubOn * 2 ^ 32)
  | _ => BitVec.ofNat 64 (m.passes.toNat + m.skipped.toNat * 2 ^ 32 + m.progress.toNat * 2 ^ 48)

/-- tele.time_status. -/
def timeStatusWord (s : State) : BitVec 64 :=
  let t := s.tele
  BitVec.ofNat 64 (timeStNum t.st + t.ref.toNat * 8 + t.refPresent.toNat * 16 + nb t.stepped * 64 + nb t.frozen * 128
    + t.source.toNat * 2 ^ 8 + t.offset.toNat * 2 ^ 16)

/-- Register at byte offset o of counter set b's 256 bytes. -/
def csWord (s : State) (b o : Nat) : BitVec 64 :=
  let c := csNow s b
  if o = 0 then BitVec.ofNat 64 (nb c.enable + 2 * nb c.win + 4 * nb c.freeze)
  else if o = 8 then c.cycles
  else if o < 0x50 then tabGet 0 c.evsel (o / 8 - 2)
  else if o = 0x50 then c.fltSrc
  else if o = 0x58 then c.fltAddr
  else if o = 0x60 then c.fltClass
  else if 0x80 ≤ o ∧ o < 0xC0 then (tabGet 0 c.cnt (o / 8 - 16)).setWidth 64
  else if o = 0xC0 then c.ovf.setWidth 64
  else if o = 0xC8 then c.sample
  else 0

/-- tele.dump_status. -/
def dumpStatusWord (s : State) : BitVec 64 :=
  BitVec.ofNat 64 (s.tele.dumpSeq.toNat + s.tele.dumpLost.toNat * 2 ^ 32 + s.tele.hostSkipped.toNat * 2 ^ 48)
/-- tele.heat_status. -/
def heatStatusWord (s : State) : BitVec 64 :=
  BitVec.ofNat 64 (nb s.tele.heatOn + 2 * nb s.tele.sweeping + s.tele.heatDropped.toNat * 2 ^ 32)
/-- tele.trace_status. -/
def traceStatusWord (s : State) : BitVec 64 :=
  BitVec.ofNat 64 (s.tele.traceWritten.toNat + nb s.tele.traceStopped * 2 ^ 40 + s.tele.traceDropped.toNat * 2 ^ 41)

/-- prot.viol_status. -/
def violStatusWord (v : ViolRec) : BitVec 64 :=
  BitVec.ofNat 64 (nb v.valid + v.kind.toNat * 2 + v.cause.toNat * 8 + v.src.toNat * 32 + nb v.entryV * 128
    + v.binding.toNat * 2 ^ 8 + v.inst.toNat * 2 ^ 21 + v.port.toNat * 2 ^ 31 + v.entry.toNat * 2 ^ 38)
/-- prot.viol_epoch. -/
def violEpochWord (v : ViolRec) : BitVec 64 :=
  BitVec.ofNat 64 (v.epoch.toNat + v.label.toNat % 65536 * 2 ^ 32 + v.later.toNat * 2 ^ 48)

/-- buf.pool_status. -/
def poolWord (s : State) : BitVec 64 :=
  let used := ((List.range 16).map fun b => bankUsed s b).sum
  BitVec.ofNat 64 (bufferCells - used + freeShared s * 2 ^ 20 + sumMin s * 2 ^ 40)
/-- buf.audit_status. -/
def auditWord (s : State) : BitVec 64 :=
  let x := s.xbar
  BitVec.ofNat 64 (x.passes.toNat + x.lastLeaked.toNat * 2 ^ 32 + nb (decide (x.auditPhase ≠ .idle)) * 2 ^ 52
    + x.repairPasses.toNat * 2 ^ 53)
/-- rsvr.status[k]. -/
def rsvrWord (s : State) (k : Nat) : BitVec 64 :=
  let lost := tabGet false s.xbar.stackLost k
  BitVec.ofNat 64 (nb lost + (if lost then 0 else chunksFree s (decide (k = 1))) * 2 ^ 8
    + (if lost then 0 else if s.boot.hb then 786432 else 2097152) * 2 ^ 32)
/-- Number of an output's state. -/
def outNum (o : OutSt) : Nat :=
  match o with
  | .up => 0 | .held => 1 | .resuming => 2
/-- buf.q_status of key k. -/
def qStatusWord (s : State) (k : Nat) : BitVec 64 :=
  let q := bufKey s k
  let spilling := s.xbar.voqs.any fun p =>
    decide (keyIx (voqOut p.1) (voqMc p.1) = k) && !p.2.res.isEmpty
  BitVec.ofNat 64 (q.n.toNat + nb spilling * 2 ^ 20 + nb q.quotaFull * 2 ^ 21 + q.discarded.toNat * 2 ^ 22
    + q.resCells.toNat * 2 ^ 32)

/-- prxy.status. -/
def prxyStatusWord (s : State) : BitVec 64 :=
  let p := s.proxy
  BitVec.ofNat 64 (nb p.degraded + 2 * nb p.lostStack + 4 * nb (!p.sweeps.isEmpty) + p.sweeps.head?.getD 0 * 2 ^ 8
    + p.degradedSince.toNat * 2 ^ 16)
/-- prxy.ctl. -/
def prxyCtlWord (s : State) : BitVec 64 := BitVec.ofNat 64 (s.proxy.biTimeout.toNat + nb s.proxy.lossPoison * 2 ^ 20)
/-- prxy.slice_status. -/
def sliceWord (s : State) (k : Nat) : BitVec 64 :=
  let v := slice s k
  BitVec.ofNat 64 ((v.trackers.length + v.waits.length) % 2 ^ 15 + v.wbs.length % 2 ^ 11 * 2 ^ 16 + v.evicts.length % 2 ^ 10 * 2 ^ 32
    + v.park.length % 2 ^ 22 * 2 ^ 42)

/-- Number of a plane's state. -/
def planeStNum (p : PlaneSt) : Nat :=
  match p with
  | .up => 0 | .down => 1 | .test => 2 | .standby => 3
/-- Number of a plane's cause. -/
def planeCauseNum (c : PlaneCause) : Nat :=
  match c with
  | .clockLock => 0 | .headerErrors => 1 | .resends => 2 | .selfCheck => 3
/-- xbar.plane_status. -/
def planeWord (p : Plane) : BitVec 64 :=
  BitVec.ofNat 64 (planeStNum p.st + planeCauseNum p.cause * 4 + nb p.checkFail * 16 + p.lossCount.toNat * 2 ^ 16
    + p.resendCount.toNat * 2 ^ 32)
/-- xbar.loom_status. -/
def loomWord (l : LoomLink) : BitVec 64 :=
  BitVec.ofNat 64 ((match l.st with | .up => 0 | .failed => 1 | .retraining => 2) + l.failures.toNat * 2 ^ 16
    + l.recoveries.toNat * 2 ^ 32)

/-! ## Instance pages (07) -/

/-- Number of a queue's error. -/
def qErrNum (e : QErr) : Nat :=
  match e with
  | .none => 0 | .overrun => 1 | .fetchFail => 2 | .compFail => 3

/-- Register at byte offset o of queue q's 64 bytes. -/
def queueWord (v : SQueue) (o : Nat) : BitVec 64 :=
  if o = 0 then BitVec.ofNat 64 (nb v.enable + v.size.toNat * 2 + nb v.irqEn * 32)
  else if o = 8 then v.ringOff
  else if o = 16 then v.compOff
  else if o = 32 then
    BitVec.ofNat 64 (v.producer.toNat + v.consumer.toNat * 2 ^ 16 + nb v.phase * 2 ^ 32 + qErrNum v.err * 2 ^ 33)
  else 0

/-- Eight bytes of a data area from index o. -/
def areaWord (t : Tab Byte) (o : Nat) : BitVec 64 := BitVec.ofNat 64 (leNat (tabSlice 0 t o 8))

/-- Word at byte offset o of instance n's page, seen through the DCW. -/
def instWord (s : State) (n o : Nat) : BitVec 64 :=
  let i := inst s n
  let errs := ((List.range 4).map fun q => nb (decide ((queueOf i q).err ≠ .none)) * 2 ^ q).sum
  if o = 0 then BitVec.ofNat 64 (n + instNum i.st * 2 ^ 10 + causeNum i * 2 ^ 13 + errs * 2 ^ 16)
  else if o = 8 then BitVec.ofNat 64 (nb (decide (i.st = .resetting)))
  else if o = 0x10 then BitVec.ofNat 64 (i.share.toNat + i.burst.toNat * 2 ^ 16 + i.tokens.toNat * 2 ^ 32)
  else if 0x100 ≤ o ∧ o < 0x200 then queueWord (queueOf i ((o - 0x100) / 64)) (o % 64)
  else if o = 0x200 then BitVec.ofNat 64 (i.t2oLen.toNat + nb i.t2oFull * 2 ^ 17)
  else if o = 0x208 then BitVec.ofNat 64 (i.o2tLen.toNat + nb i.o2tFull * 2 ^ 16 + nb i.o2tIrq * 2 ^ 17)
  else if 0x400 ≤ o ∧ o < 0x500 then areaWord i.t2oData (o - 0x400)
  else if 0x500 ≤ o ∧ o < 0x600 then areaWord i.o2tData (o - 0x500)
  else if o = 0x800 then BitVec.ofNat 64 (i.cntLines.toNat + i.cntDescs.toNat * 2 ^ 40)
  else 0

/-! ## Reading -/

/-- Identity and global control, and the owner mailboxes. -/
def globalWord (s : State) (a : Nat) : BitVec 64 :=
  if a = 0 then identWord s
  else if a = 8 then s.boot.serial
  else if a = 0x10 then fwStatusWord s
  else if a = 0x18 then eventStatusWord s
  else if a = 0x20 then BitVec.ofNat 64 (nb s.mgmt.irqEn)
  else if a = 0x100 then sealStatus s
  else if a = 0x108 then s.sealu.headSeq
  else if 0x110 ≤ a ∧ a < 0x140 then fld s.sealu.headDigest ((a - 0x110) * 8) 64
  else if a = 0x200 then bootStatusWord s
  else if a = 0x300 then thermalWord s
  else if a = 0x400 then gpioWord s
  else if 0x1000 ≤ a ∧ a < 0x81000 then
    let b := mbx s ((a - 0x1000) / 0x20000)
    let o := (a - 0x1000) % 0x20000
    if o = 0 then mbxCtlWord b
    else if o = 8 then mbxStatusWord b
    else if 0x1000 ≤ o ∧ o < 0x9000 then areaWord b.req (o - 0x1000)
    else if 0x10000 ≤ o then areaWord b.resp (o - 0x10000)
    else 0
  else 0

/-- Fault collector and memory integrity. -/
def faultWord (s : State) (a : Nat) : BitVec 64 :=
  if a = 0 then fltSummaryWord s
  else if a = 8 then fltSafeStopWord s
  else if 0x1000 ≤ a ∧ a < 0x1000 + 5120 * 0x20 then
    let key := (a - 0x1000) / 0x20
    let r := faultRec s.fault key
    if key % 256 = 0 then 0
    else
      match a % 0x20 / 8 with
      | 0 => recStatus key r
      | 1 => r.first.setWidth 64
      | 2 => r.detail
      | _ => recLast r
  else if 0x40000 ≤ a ∧ a < 0x40000 + 5120 * 8 then
    let key := (a - 0x40000) / 8
    if key % 256 = 0 then 0 else cfgWord (faultCfg s.fault key)
  else if 0x80000 ≤ a ∧ a < 0x80000 + 10 * 0x20 then memWord (memType s ((a - 0x80000) / 0x20)) (a % 0x20 / 8)
  else if a = 0x81000 then stackWord (stackOf s 0)
  else if a = 0x81040 then stackWord (stackOf s 1)
  else if 0x82000 ≤ a ∧ a < 0x82000 + 10 * 0x10 then
    let m := memType s ((a - 0x82000) / 0x10)
    if a % 0x10 = 0 then m.lastHard else m.lastHardStamp.setWidth 64
  else 0

/-- Telemetry and time. -/
def teleWord (s : State) (a : Nat) : BitVec 64 :=
  if a = 0 then s.tele.time
  else if a = 8 then timeStatusWord s
  else if 0x1000 ≤ a ∧ a < 0x1000 + 89 * 0x100 then csWord s ((a - 0x1000) / 0x100) (a % 0x100)
  else if a = 0x8000 then dumpStatusWord s
  else if a = 0x8008 then heatStatusWord s
  else if a = 0x8010 then traceStatusWord s
  else 0

/-- Slots. -/
def slotWord (s : State) (a : Nat) : BitVec 64 :=
  if a < 24 * 0x100 then
    let c := slotCh s (a / 0x100)
    match a % 0x100 with
    | 0 => slotStatusWord c
    | 8 => slotMeasWord s c
    | 0x10 => c.gateCtl
    | 0x18 => c.ctl
    | 0x20 => c.pgCfg
    | 0x28 => slotCountsWord c
    | 0x30 => BitVec.ofNat 64 (nb c.lock)
    | _ => 0
  else 0

/-- Lane test and margin. -/
def laneWord (s : State) (a : Nat) : BitVec 64 :=
  if a < 416 * 0x40 then
    let v := lane s (a / 0x40)
    match a % 0x40 with
    | 0 => laneStatusWord v
    | 8 => laneAdaptWord v
    | 0x10 => testCtlWord v
    | 0x18 => testStatusWord v
    | 0x20 => v.bits
    | 0x28 => v.errs
    | _ => 0
  else if 0x8000 ≤ a ∧ a < 0x8000 + 104 * 8 then quadWord s ((a - 0x8000) / 8)
  else if a = 0x9000 then refStatusWord s
  else 0

/-- PMU. -/
def pmuWord (s : State) (a : Nat) : BitVec 64 :=
  let p := s.pmu
  if a = 0 then pmuStateWord p
  else if a = 0x10 then wakeMaskWord p
  else if a = 0x18 then p.detectMask.setWidth 64
  else if a = 0x20 then p.alarm
  else if a = 0x100 then p.lastWake
  else if a = 0x108 then p.lastDone.setWidth 64
  else if a = 0x110 then p.lastAbort
  else if 0x200 ≤ a ∧ a < 0x200 + 14 * 8 then groupWord s ((a - 0x200) / 8)
  else if 0x1000 ≤ a ∧ a < 0x1000 + 220 * 8 then domainWord s ((a - 0x1000) / 8)
  else if 0x2000 ≤ a ∧ a < 0x2040 ∧ a % 16 = 0 then railWord (railOf s ((a - 0x2000) / 16))
  else if a = 0x2100 then p.avsTimeout.setWidth 64
  else if a = 0x3000 then retWord s
  else 0

/-- Protection status. -/
def protWord (s : State) (a : Nat) : BitVec 64 :=
  let v := s.prot.viol
  if a = 0 then s.prot.epoch.setWidth 64
  else if a = 8 then BitVec.ofNat 64 (s.prot.current.toNat + s.prot.prior.toNat * 2 ^ 24)
  else if a = 0x100 then violStatusWord v
  else if a = 0x108 then v.dev.setWidth 64
  else if a = 0x110 then v.addr
  else if a = 0x118 then BitVec.ofNat 64 (v.feid.toNat + v.stamp.toNat * 2 ^ 16)
  else if a = 0x120 then violEpochWord v
  else if 0x1000 ≤ a ∧ a < 0x1000 + 8192 * 8 then (tabGet 0 s.prot.bindViol ((a - 0x1000) / 8)).setWidth 64
  else 0

/-- Buffer and reservoir status. -/
def bufWord (s : State) (a : Nat) : BitVec 64 :=
  if a = 0 then poolWord s
  else if a = 0x100 then auditWord s
  else if a = 0x108 then BitVec.ofNat 64 (nb s.xbar.auditRun)
  else if a = 0x200 ∨ a = 0x210 then rsvrWord s ((a - 0x200) / 16)
  else if 0x1000 ≤ a ∧ a < 0x1200 then
    let o := output s ((a - 0x1000) / 8)
    BitVec.ofNat 64 (outNum o.st + o.since.toNat * 2 ^ 16)
  else if 0x2000 ≤ a ∧ a < 0x3000 then qStatusWord s ((a - 0x2000) / 8)
  else if 0x3000 ≤ a ∧ a < 0x3200 then
    let o := output s ((a - 0x3000) / 8)
    BitVec.ofNat 64 (o.ageCells.toNat + o.ageMsgs.toNat * 2 ^ 32)
  else 0

/-- Traffic control. -/
def trafWord (s : State) (a : Nat) : BitVec 64 :=
  if a < 0x2000 then
    let v := tabGet Sampler.init s.traffic.samplers (a / 16)
    if a % 16 = 0 then v.qDepth else v.qDelay
  else if a < 0x2200 then tabGet 0 s.traffic.win ((a - 0x2000) / 8)
  else 0

/-- Coherence proxy. -/
def prxyWord (s : State) (a : Nat) : BitVec 64 :=
  if a = 0 then prxyStatusWord s
  else if a = 8 then prxyCtlWord s
  else if a = 0x10 then fld s.proxy.departed 0 64
  else if a = 0x18 then (fld s.proxy.departed 64 32).setWidth 64
  else if 0x100 ≤ a ∧ a < 0x400 then tabGet 0 s.proxy.hpaOffset ((a - 0x100) / 8)
  else if 0x1000 ≤ a ∧ a < 0x1200 ∧ a % 0x40 = 0 then sliceWord s ((a - 0x1000) / 0x40)
  else if 0x2000 ≤ a ∧ a < 0x2200 then tabGet 0 (slice s ((a - 0x2000) / 0x40)).cnt (a % 0x40 / 8)
  else 0

/-- xbar.starve_cfg: limit and quantum. -/
def starveWord (s : State) (x : Nat) : BitVec 64 := BitVec.ofNat 64 (txStarve (traf s (8192 + x)) + 4 * 2 ^ 16)

/-- Crossbar. The offsets of xbar.starve_cfg[32] to [39] are those of xbar.loom_status[0] to [7] too: which of the two a read
there returns is a free choice (log entry 55). -/
def xbarWord (s : State) (a : Nat) : BitVec 64 :=
  if a = 0 ∨ a = 0x100 then planeWord (plane s (a / 0x100))
  else if a = 0x10 ∨ a = 0x110 then BitVec.ofNat 64 (nb (plane s (a / 0x100)).rejoin)
  else if 0x300 ≤ a ∧ a < 0x340 ∧ freeVal 1 s = 1 then loomWord (loom s ((a - 0x300) / 8))
  else if 0x200 ≤ a ∧ a < 0x400 then starveWord s ((a - 0x200) / 8)
  else if 0x1000 ≤ a ∧ a < 0x1080 then tabGet 0 (plane s ((a - 0x1000) / 0x40)).slotCnt (a % 0x40 / 8)
  else if 0x2000 ≤ a ∧ a < 0x2200 then
    let o := output s ((a - 0x2000) / 8)
    BitVec.ofNat 64 (o.promoteIn.toNat + o.promoteOut.toNat * 2 ^ 32)
  else 0

/-- Ports: a half that does not exist reads 0. -/
def portWord (s : State) (a : Nat) : BitVec 64 :=
  if a < 48 * 0x100 ∧ a % 0x100 < 0x40 then
    let p := a / 0x100
    let h := a % 0x100 / 0x20
    if h = 1 ∧ halfExists s p 1 = false then 0
    else
      let v := port s (2 * p + h)
      match a % 0x20 with
      | 0 => portStatusWord v
      | 8 => portLinkWord v
      | 16 => v.ident
      | _ => v.ldMap
  else if 0x8000 ≤ a ∧ a < 0x8000 + 96 * 0x40 then tabGet 0 (port s ((a - 0x8000) / 0x40)).cnt (a % 0x40 / 8)
  else 0

/-- Weft links. -/
def weftWord (s : State) (a : Nat) : BitVec 64 :=
  if a < 0x800 then
    let w := weft s (a / 0x100)
    let o := a % 0x100
    if o = 0 then weftStatusWord w
    else if o = 8 then w.ident
    else if o = 16 then weftPeerWord w
    else if o = 24 then weftSeqWord w
    else if 0x40 ≤ o ∧ o < 0x80 then weftCreditWord (weftVc w ((o - 0x40) / 8))
    else 0
  else if 0x8000 ≤ a ∧ a < 0x8400 ∧ a % 0x80 < 0x60 then tabGet 0 (weft s ((a - 0x8000) / 0x80)).cnt (a % 0x80 / 8)
  else 0

/-- The 8-byte word at an 8-byte aligned offset of the DCW (Table 13-8); an offset without a register reads 0 (R312). -/
def regRead (s : State) (off : Nat) : BitVec 64 :=
  let m := off / 0x100000
  if off < 0x81000 then globalWord s off
  else if m = 1 then faultWord s (off % 0x100000)
  else if m = 2 then teleWord s (off % 0x100000)
  else if m = 3 then slotWord s (off % 0x100000)
  else if m = 4 then laneWord s (off % 0x100000)
  else if m = 5 then pmuWord s (off % 0x100000)
  else if m = 6 then protWord s (off % 0x100000)
  else if m = 7 then
    let a := off % 0x100000
    if a < 0x20000 then bufWord s a
    else if a < 0x40000 then trafWord s (a - 0x20000)
    else if a < 0x80000 then prxyWord s (a - 0x40000)
    else xbarWord s (a - 0x80000)
  else if m = 8 then portWord s (off % 0x100000)
  else if m = 9 then weftWord s (off % 0x100000)
  else if 0x1000000 ≤ off ∧ off < 0x1400000 then instWord s ((off - 0x1000000) / 0x1000) (off % 0x1000)
  else 0

/-- What a register's read brings up to the present first: a lane test's counts and adaptation, the instances' tokens. -/
def regSync (off : Nat) (s : State) : State :=
  if off / 0x100000 = 4 ∧ off % 0x100000 < 416 * 0x40 then
    adaptSync (off % 0x100000 / 0x40) (testSync (off % 0x100000 / 0x40) s)
  else if 0x1000000 ≤ off then scribeSync s
  else s

/-- A read of one register: its word, and the state after. -/
def regTake (off : Nat) (s : State) : BitVec 64 × State :=
  let s1 := regSync off s
  (regRead s1 off, tookFree s1)

/-! ## Writing (00 R9, R10) -/

/-- The state that a command of its own leaves. -/
def stateOf (o : Out) (s : State) : State :=
  match o with
  | .next t => t
  | _ => s

/-- New bytes over old ones, where the access writes. -/
def overlay (old v mask : BitVec 64) : BitVec 64 := (old &&& ~~~ mask) ||| (v &&& mask)

/-- A data area with the written bytes of an 8-byte word replaced. -/
def areaWrite (t : Tab Byte) (o : Nat) (v mask : BitVec 64) : Tab Byte :=
  (List.range 8).foldl (fun t k => if bit mask (8 * k) then tabSet 0 t (o + k) (fld v (8 * k) 8) else t) t

/-- A write to an owner mailbox's region (R313): go accepts a command; the request buffer takes no bytes while busy. -/
def mbxWrite (m o : Nat) (v mask : BitVec 64) (s : State) : State :=
  let b := mbx s m
  if o = 0 then
    let s1 := setMbx m { b with irqEn := bit (overlay (mbxCtlWord b) v mask) 1 } s
    if bit (v &&& mask) 0 then mailboxGo m s1 else s1
  else if o = 8 then if bit (v &&& mask) 0 then doneClear m s else s
  else if 0x1000 ≤ o ∧ o < 0x9000 ∧ b.busy = false then
    setMbx m { b with req := areaWrite b.req (o - 0x1000) v mask } s
  else s

/-- A write of a global register. -/
def globalWrite (a : Nat) (v mask : BitVec 64) (s : State) : State :=
  let w := overlay (globalWord s a) v mask
  if a = 0x20 then { s with mgmt := { s.mgmt with irqEn := bit w 0 } }
  else if a = 0x300 then { s with boot := { s.boot with warn := fld w 40 8 } }
  else if a = 0x400 then { s with boot := { s.boot with gpioOe := fld w 0 16, gpioOut := fld w 16 16 } }
  else if 0x1000 ≤ a ∧ a < 0x81000 then mbxWrite ((a - 0x1000) / 0x20000) ((a - 0x1000) % 0x20000) v mask s
  else s

/-- A write in the fault collector or memory integrity. -/
def faultWrite (a : Nat) (v mask : BitVec 64) (s : State) : State :=
  if 0x1000 ≤ a ∧ a < 0x1000 + 5120 * 0x20 then
    let key := (a - 0x1000) / 0x20
    if a % 0x20 = 0 ∧ bit (v &&& mask) 1 then
      stateOf (execFaultAckWrite (BitVec.ofNat 5 (key / 256)) (BitVec.ofNat 8 key) s) s
    else s
  else if 0x40000 ≤ a ∧ a < 0x40000 + 5120 * 8 ∧ (a - 0x40000) / 8 % 256 ≠ 0 then
    let key := (a - 0x40000) / 8
    let c := faultCfg s.fault key
    { s with fault := setFaultCfg s.fault key (cfgWrite key (overlay (cfgWord c) v mask) c) }
  else if 0x80000 ≤ a ∧ a < 0x80000 + 10 * 0x20 ∧ a % 0x20 = 16 then
    let m := memType s ((a - 0x80000) / 0x20)
    let w := overlay (memWord m 2) v mask
    setMemType ((a - 0x80000) / 0x20) { m with period := fld w 0 32, scrubOn := bit w 32 } s
  else s

/-- A write to a counter set's register at byte offset o (R342 to R344). -/
def csWrite (b o : Nat) (v mask : BitVec 64) (s : State) : State :=
  let c := csNow s b
  let w := overlay (csWord s b o) v mask
  let c1 :=
    if o = 0 then csCtlWrite w c
    else if 0x10 ≤ o ∧ o < 0x50 then { c with evsel := tabSet 0 c.evsel (o / 8 - 2) (w &&& evselMask) }
    else if o = 0x50 then { c with fltSrc := w &&& fltSrcMask }
    else if o = 0x58 then { c with fltAddr := w &&& fltAddrMask }
    else if o = 0x60 then { c with fltClass := w &&& fltClassMask }
    else if 0x80 ≤ o ∧ o < 0xC0 then { c with cnt := tabSet 0 c.cnt (o / 8 - 16) (w.setWidth 48) }
    else if o = 0xC0 then 
      let kept := if c.ovfAt = s.tele.time then c.ovfNew else 0
      { c with ovf := c.ovf &&& (~~~ ((v &&& mask).setWidth 8) ||| kept) }
    else c
  teleWake (storeCset b c1 s)

/-- A write in telemetry and time. -/
def teleWrite (a : Nat) (v mask : BitVec 64) (s : State) : State :=
  if 0x1000 ≤ a ∧ a < 0x1000 + 89 * 0x100 then csWrite ((a - 0x1000) / 0x100) (a % 0x100) v mask s else s

/-- A write to a slot channel's register (18). -/
def slotWrite (a : Nat) (v mask : BitVec 64) (s : State) : State :=
  if a < 24 * 0x100 then
    let n := a / 0x100
    let w := overlay (slotWord s a) v mask
    match a % 0x100 with
    | 0x10 => gateWrite n w s
    | 0x18 => ctlWrite n w s
    | 0x20 => setSlot n { slotCh s n with pgCfg := pgMask w } s
    | 0x30 => if bit (v &&& mask) 0 then setSlot n { slotCh s n with lock := true } s else s
    | _ => s
  else s

/-- A write to a PMU register (17). -/
def pmuWrite (a : Nat) (v mask : BitVec 64) (s : State) : State :=
  let w := overlay (pmuWord s a) v mask
  let p := s.pmu
  if a = 0 then { s with pmu := { p with dozeAuto := bit w 5 } }
  else if a = 0x10 then { s with pmu := wakeMaskWrite w p }
  else if a = 0x18 then { s with pmu := { p with detectMask := w.setWidth 48 } }
  else if a = 0x20 then { s with pmu := { p with alarm := w } }
  else if a = 0x2100 then { s with pmu := { p with avsTimeout := w.setWidth 16 } }
  else s

/-- A write in the proxy's registers (06). -/
def prxyWrite (a : Nat) (v mask : BitVec 64) (s : State) : State :=
  let w := overlay (prxyWord s a) v mask
  if a = 8 then { s with proxy := { s.proxy with biTimeout := fld w 0 20, lossPoison := bit w 20 } }
  else if 0x100 ≤ a ∧ a < 0x400 then
    let t := tabSet 0 s.proxy.hpaOffset ((a - 0x100) / 8) (w &&& 0xFFFFFFFFFFFFFFC0)
    { s with proxy := { s.proxy with hpaOffset := t } }
  else s

/-- A write to queue q's register at byte offset o of instance n (R170). -/
def queueWrite (n q o : Nat) (v mask : BitVec 64) (s : State) : State :=
  let c := queueOf (inst s n) q
  let w := overlay (queueWord c o) v mask
  if o = 0 then stateOf (execQueueEnableWrite (BitVec.ofNat 10 n) (BitVec.ofNat 2 q) (w.setWidth 32) s) s
  else if o = 8 then if c.enable then s else setQueue n q { c with ringOff := w &&& 0xFFFFFFFFFFFFF000 } s
  else if o = 16 then if c.enable then s else setQueue n q { c with compOff := w &&& 0xFFFFFFFFFFFFF000 } s
  else if o = 24 ∧ mask.setWidth 16 ≠ 0#16 then
    stateOf (execDoorbell (BitVec.ofNat 10 n) (BitVec.ofNat 2 q) (v.setWidth 16) s) s
  else s

/-- A write to instance n's page at byte offset o (07). -/
def instWrite (n o : Nat) (v mask : BitVec 64) (s : State) : State :=
  let i := inst s n
  let w := overlay (instWord s n o) v mask
  let on_ := v &&& mask
  if o = 8 then if bit on_ 0 then stateOf (execInstanceResetWrite (BitVec.ofNat 10 n) s) s else s
  else if 0x100 ≤ o ∧ o < 0x200 then queueWrite n ((o - 0x100) / 64) (o % 64) v mask s
  else if o = 0x200 then
    if i.st = .resetting then s
    else if bit on_ 16 ∧ i.t2oFull = false then stateOf (execMboxT2oSend (BitVec.ofNat 10 n) (fld w 0 9) s) s
    else setInst n { i with t2oLen := fld w 0 9 } s
  else if o = 0x208 then
    let s1 := if bit on_ 16 then stateOf (execMboxO2tAck (BitVec.ofNat 10 n) s) s else s
    setInst n { inst s1 n with o2tIrq := bit w 17 } s1
  else if 0x400 ≤ o ∧ o < 0x500 then if i.t2oFull then s else setInst n { i with t2oData := areaWrite i.t2oData (o - 0x400) v mask } s
  else s

/-- A write of the bytes of `mask` of the 8-byte word at an 8-byte aligned offset, by the access types of the register
there; nothing where there is none (R9, R312). -/
def regWrite (off : Nat) (v mask : BitVec 64) (s : State) : State :=
  let m := off / 0x100000
  let a := off % 0x100000
  if off < 0x81000 then globalWrite off v mask s
  else if m = 1 then faultWrite a v mask s
  else if m = 2 then teleWrite a v mask s
  else if m = 3 then slotWrite a v mask s
  else if m = 4 then
    if a < 416 * 0x40 ∧ a % 0x40 = 16 ∧ bit (v &&& mask) 5 then
      stateOf (execTestInject (BitVec.ofNat 9 (a / 0x40)) s) s
    else s
  else if m = 5 then pmuWrite a v mask s
  else if m = 6 then if a = 0x100 ∧ bit (v &&& mask) 0 then violClear s else s
  else if m = 7 then
    if a = 0x108 ∧ bit (v &&& mask) 0 then stateOf (execAuditRun s) s
    else if 0x40000 ≤ a ∧ a < 0x80000 then prxyWrite (a - 0x40000) v mask s
    else if (a = 0x80010 ∨ a = 0x80110) ∧ bit (v &&& mask) 0 then
      stateOf (execPlaneRejoinWrite (BitVec.ofNat 1 ((a - 0x80000) / 0x100)) s) s
    else s
  else if 0x1000000 ≤ off ∧ off < 0x1400000 then instWrite ((off - 0x1000000) / 0x1000) (off % 0x1000) v mask s
  else s

/-- All bytes of a word. -/
def allMask : BitVec 64 := 0xFFFFFFFFFFFFFFFF

/-- Offset o lies in a mailbox's request or response buffer or in an instance page's data areas (R312). -/
def bufferArea (o : Nat) : Bool :=
  let a := (o - 0x1000) % 0x20000
  (0x1000 ≤ o && o < 0x81000 && ((0x1000 ≤ a && a < 0x9000) || 0x10000 ≤ a)) ||
  (0x1000000 ≤ o && o < 0x1400000 && 0x400 ≤ o % 0x1000 && o % 0x1000 < 0x600)

/-- A naturally aligned write of n bytes into a buffer: part of one 8-byte word, or whole words in rising order (R312). -/
def bufferWrite (o n : Nat) (value : BitVec 512) (s : State) : State :=
  if n < 8 then
    regWrite (o - o % 8) (value.setWidth 64 <<< (8 * (o % 8))) (((1 <<< (8 * n)) - 1) <<< (8 * (o % 8))) s
  else (List.range (n / 8)).foldl (fun t k => regWrite (o + 8 * k) (fld value (64 * k) 64) allMask t) s

/-- REGISTER_WRITE (R9, R312): an aligned write of 4 or 8 bytes, or in a buffer of 1, 2, 16, 32 or 64; any other one
completes with Unsupported Request and writes nothing. -/
def execRegisterWrite (offset : BitVec 26) (size : BitVec 7) (value : BitVec 512) (s : State) : Out :=
  let o := offset.toNat
  let n := size.toNat
  if n = 8 then if o % 8 = 0 then fin (regWrite o (value.setWidth 64) allMask s) else fin s
  else if n = 4 then
    if o % 8 = 0 then fin (regWrite o (value.setWidth 64) 0xFFFFFFFF s)
    else if o % 8 = 4 then fin (regWrite (o - 4) (value.setWidth 64 <<< 32) 0xFFFFFFFF00000000 s)
    else fin s
  else if bufferArea o ∧ (n = 1 ∨ n = 2 ∨ n = 16 ∨ n = 32 ∨ n = 64) ∧ o % n = 0 then fin (bufferWrite o n value s)
  else fin s

end Sys2Proof.Machine
end

