-- ==== Sys2Proof/Machine/Mgmt.lean ====
section
/-! DEFINITION. The management complex: mailboxes, MCTP, firmware's own events, and the 0x01 Nib family (Management Core
and Nib Mailboxes). -/

namespace Sys2Proof.Machine

open Sys2Proof

/-! ## Owner mailboxes (R311 to R313) -/

/-- MAILBOX_GO (R313, R311). -/
def execMailboxGo (m : BitVec 2) (s : State) : Out := fin (mailboxGo m.toNat s)

/-- The 16 bytes of a response header (Table 13-4). -/
def respHeader (op tag : BitVec 16) (q : Reply) : List Byte :=
  wBytes 2 op ++ [1, 1] ++ wBytes 2 tag ++ wBytes 2 q.status ++ leBytes 4 q.payload.length ++ wBytes 4 q.detail

/-- MSI-X vector 1 + m of the management function on every owner port, where the mailbox asks for it (R313, R324). -/
def mailboxIrq (m : Nat) (s : State) : State :=
  if (mbx s m).irqEn then
    emitAll (((List.range 96).filter fun u => bit s.boot.board.ownerMask u).map
      fun u => Emit.msix (BitVec.ofNat 7 u) (BitVec.ofNat 4 (1 + m))) s
  else s

/-- A management reset that has been asked for begins once no response waits to leave a mailbox (R330, R484). -/
def mgmtResetDue (s : State) : State :=
  if s.boot.resetDue = some 2 ∧ ((List.range 4).all fun m => (mbx s m).answer.isNone) = true then
    fwRestart 1 false { s with boot := { s.boot with resetDue := none } }
  else s

/-- MAILBOX_RESPONSE (R313): the response is written over the buffer's first bytes, busy and go clear, done sets; a
management reset that waited for it begins. -/
def execMailboxResponse (m : BitVec 2) (s : State) : Out :=
  let b := mbx s m.toNat
  match b.answer with
  | none => fin s
  | some (op, tag, q) =>
    fin (mgmtResetDue (mailboxIrq m.toNat (setMbx m.toNat { b with
      resp := tabWrite 0 b.resp 0 (respHeader op tag q ++ q.payload)
      busy := false, go := false, done := true, doneAt := some s.tele.time, answered := b.answered + 1, answer := none } s)))

/-- MAILBOX_DONE_CLEAR (R313). -/
def execMailboxDoneClear (m : BitVec 2) (s : State) : Out :=
  fin (doneClear m.toNat s)

/-- HW_RESPONDER_ANSWER (R504): a request that comes while firmware is not RUNNING. The responder does not act in
safe-stop, in STANDBY or while the boot ROM waits for an image. -/
def execHwResponderAnswer (r : Req) (opcode : BitVec 16) (s : State) : Out :=
  if s.mgmt.fw = .running ∨ s.fault.safeStop ∨ s.pmu.st = .standby ∨ s.boot.stage = 7 ∨ s.boot.held then fin s
  else
    match accept r opcode.toNat [] s with
    | .stop s1 => fin s1
    | .go s1 => fin (respond r opcode.toNat [] (hwReply s1) s1)

/-! ## MCTP (R314, R315) -/

/-- A packet or a message is dropped and counted (R314, R315). -/
def mctpDrop (s : State) : State := raiseFree 13 0x10 (source 13 0) s

/-- A transport can carry packets: I3C always, a port or a Weft link while it is UP. -/
def transportUp (s : State) (t : Transport) : Bool :=
  match t with
  | .i3c _ => true
  | .vdm u => decide ((port s u.toNat).st = .up)
  | .weft n => decide ((weft s n.toNat).st = .up)

/-- Transport instance that a bridge table entry names. -/
def bridgeOut (b : Bridge) : Transport :=
  match b.kind.toNat with
  | 1 => .i3c (b.index.setWidth 1)
  | 2 => .vdm (b.index.setWidth 7)
  | _ => .weft (b.index.setWidth 3)

/-- The lowest-numbered bridge entry whose range contains an EID (R315). -/
def bridgeFor (s : State) (e : BitVec 8) : Option Bridge :=
  (s.mgmt.bridge.filterMap (·.2)).find? fun b => decide (b.first.toNat ≤ e.toNat ∧ e.toNat ≤ b.last.toNat)

/-- A packet for another endpoint is forwarded by the bridge table, or dropped (R315). -/
def bridgePacket (p : Packet) (s : State) : State :=
  match bridgeFor s p.dst with
  | some b => if transportUp s (bridgeOut b) then emit (.packet (bridgeOut b) p) s else mctpDrop s
  | none => mctpDrop s

/-- A Nib request over MCTP: one larger than the transport allows is not accepted, and one beyond 64 waiting is answered
BUSY at once (R311, R320). -/
def nibMessage (t : Transport) (p : Packet) (bs : List Byte) (s : State) : State :=
  let h := bs.take 16
  let body := bs.drop 16
  if bs.length < 16 ∨ 8192 < bs.length then s
  else if 64 ≤ s.mgmt.mctpWait.length then
    emit (.nib t p.src p.tag (BitVec.ofNat 16 (hdrOp h)) (hdrTag h) 2 0 []) s
  else
    arrive { src := .mctp t p.src, tag := hdrTag h } h body
      { s with mgmt := { s.mgmt with
          mctpWait := s.mgmt.mctpWait ++ [{ src := t, eid := p.src, mtag := p.tag, opcode := BitVec.ofNat 16 (hdrOp h),
                                            tag := hdrTag h, payload := body }] } }

/-- A whole MCTP message by its type (Table 13-3). Control, SPDM and FM API messages act by rows of their own; Nib
requests carry the device's vendor ID, big-endian, and 0x4E. While firmware is not RUNNING only control and Nib messages
are answered, others being dropped and counted (R504). -/
def mctpMessage (t : Transport) (p : Packet) (bs : List Byte) (s : State) : State :=
  match bs with
  | [] => mctpDrop s
  | ty :: body =>
    if ty = 0 then s
    else if ty = 0x7E then
      if body.take 3 = [Config.vendorId.extractLsb' 8 8, Config.vendorId.setWidth 8, 0x4E] ∧ p.owner then
        nibMessage t p (body.drop 3) s
      else mctpDrop s
    else if (ty = 5 ∨ ty = 6 ∨ ty = 7) ∧ s.mgmt.fw = .running then s
    else mctpDrop s

/-- A message in reassembly is that of a packet: transport, source, tag and tag owner. -/
def sameMessage (t : Transport) (p : Packet) (k : Reassembly) : Bool :=
  decide (k.src = t) && decide (k.eid = p.src) && decide (k.mtag = p.tag) && decide (k.tagOwner = p.owner)

/-- A message leaves reassembly. -/
def dropReasm (t : Transport) (p : Packet) (s : State) : State :=
  { s with mgmt := { s.mgmt with reasm := s.mgmt.reasm.filter fun k => !sameMessage t p k } }

/-- A message in reassembly, up to a packet. -/
def putReasm (t : Transport) (p : Packet) (bs : List Byte) (s : State) : State :=
  let s1 := dropReasm t p s
  { s1 with mgmt := { s1.mgmt with
      reasm := s1.mgmt.reasm ++ [{ src := t, eid := p.src, mtag := p.tag, tagOwner := p.owner, seq := p.seq, bytes := bs }] } }

/-- A packet for this endpoint is reassembled (R314): a ninth message's packets are dropped, and one out of sequence or
without a first packet ends its message. -/
def reassemble (t : Transport) (p : Packet) (s : State) : State :=
  if 64 < p.bytes.length then mctpDrop s
  else if p.som then
    let s1 := dropReasm t p s
    if p.eom then mctpMessage t p p.bytes s1
    else if 8 ≤ s1.mgmt.reasm.length then mctpDrop s1
    else putReasm t p p.bytes s1
  else
    match s.mgmt.reasm.find? (sameMessage t p) with
    | none => mctpDrop s
    | some k =>
      if p.seq ≠ k.seq + 1 then mctpDrop (dropReasm t p s)
      else if p.eom then mctpMessage t p (k.bytes ++ p.bytes) (dropReasm t p s)
      else putReasm t p (k.bytes ++ p.bytes) s

/-- Nothing hears a transport: in cold reset, in STANDBY, in safe-stop without firmware; the boot ROM, while it waits for a
recovery image, is an endpoint on I3C port 0 only (20 R476). -/
def deaf (t : Transport) (s : State) : Bool :=
  s.boot.held || decide (s.pmu.st = .standby) || (s.fault.safeStop && decide (s.mgmt.fw ≠ .running))
  || (decide (s.boot.stage = 7) && !decide (t = .i3c 0 ∧ s.sealu.lc ≠ .spent))

/-- MCTP_PACKET_RECEIVE (R314, R315): forwarded where it names neither the device nor every endpoint, else reassembled. -/
def execMctpPacketReceive (t : Transport) (p : Packet) (s : State) : Out :=
  if deaf t s ∨ transportUp s t = false then fin s
  else if p.dst = s.mgmt.eid ∨ p.dst = 0xFF ∨ s.boot.stage = 7 then fin (reassemble t p s)
  else fin (bridgePacket p s)

/-- MCTP_CONTROL (R314): answered on any transport; Set Endpoint ID takes effect from a trusted one and is refused from
another. A message whose response the spec does not state is answered with free bytes. -/
def execMctpControl (t : Transport) (eid : BitVec 8) (msg : McControl) (s : State) : Out :=
  if deaf t s ∨ transportUp s t = false then fin s
  else
    match msg with
    | .setEid e =>
      if trusted s t then
        fin (emit (.mctp t eid 0 [1, 0, 0, e, 0]) { s with mgmt := { s.mgmt with eid := e } })
      else fin (emit (.mctp t eid 0 [1, 0, 0x10, s.mgmt.eid, 0]) s)
    | .getEid => fin (emit (.mctp t eid 0 [2, 0, s.mgmt.eid]) s)
    | .other c => fin (emit (.mctp t eid 0 (c :: wBytes 8 (freeVal 64 s))) (tookFree s))

/-! ## Firmware's own events -/

/-- PENDING_RESULT (R321). -/
def execPendingResult (ticket status : BitVec 16) (detail : BitVec 32) (payload : List Byte) (s : State) : Out :=
  fin (finishTicket ticket { status := status, detail := detail, payload := payload } s)

/-- EVENT_NOTICE_SEND (R323): MSI-X vector 0 and a notice to each subscriber, for the records queued since the last. -/
def execEventNoticeSend (s : State) : Out :=
  if s.mgmt.fw = .running ∧ s.mgmt.noticeDue then
    fin (emitAll (s.mgmt.subs.map fun e => Emit.eventNotice e s.mgmt.head)
      (mgmtIrq 0 { s with mgmt := { s.mgmt with noticeDue := false } }))
  else fin s

/-- The window after a watchdog restart is open (R307, R5). -/
def inHangWindow (s : State) : Bool :=
  match s.mgmt.hangWindow with
  | some e => decide (s.aon.toNat < e.toNat)
  | none => false

/-- FW_HANG (R307): the watchdog, which runs only while firmware is RUNNING, expires. A second expiry within the window
leaves the core HALTED. -/
def execFwHang (s : State) : Out :=
  if s.mgmt.fw ≠ .running then fin s
  else
    let s1 := raiseFree 13 0x01 (source 13 0) s
    if inHangWindow s then fin (raiseFree 13 0x02 (source 13 0) (fwHalt s1))
    else fin (fwRestart 0 true s1)

/-- The life-cycle state keeps a colophon (19 Table 19-5). -/
def colophonOn (s : State) : Bool := decide (s.sealu.lc ≠ .blank ∧ s.sealu.lc ≠ .spent)

/-- FW_RESTART_DONE (R307, 19 R461): firmware is RUNNING again, FW_RESTARTED is queued, FW_RESTART appended, and a restart that the watchdog brought
opens the window of 10 s. -/
def execFwRestartDone (s : State) : Out :=
  if s.mgmt.fw ≠ .restarting then fin s
  else
    let m := s.mgmt
    let w := if m.hangRestart then some (s.aon + BitVec.ofNat 64 (10 * secTicks)) else m.hangWindow
    let s1 := queueEvent 6 (BitVec.ofNat 128 (m.restarts.toNat + m.restartCause.toNat * 2 ^ 16))
      { s with mgmt := { m with fw := .running, hangRestart := false, hangWindow := w } }
    fin (if colophonOn s then beginAppend (mkAppend s 9 0 s.sealu.fwDigest [m.restartCause]) s1 else s1)

/-- MAKER_LEVEL_EXPIRY (R310): 30 minutes without a maker-only command. -/
def execMakerLevelExpiry (s : State) : Out :=
  if s.mgmt.maker.isSome then
    let s1 := reachAon (s.mgmt.makerSince.toNat + 1800 * secTicks) s
    fin { s1 with mgmt := { s1.mgmt with maker := none } }
  else fin s

/-! ## Identity and status (R329, R330) -/

/-- Capacity in GiB of stack k: 24 or 12, 0 for a lost stack (R329). -/
def hbmGib (s : State) (k : Nat) : Nat :=
  if (stackOf s k).st ≠ .up then 0 else if s.boot.hb then 12 else 24

/-- DEVICE_IDENTIFY (R329, R330, 20 R476). -/
def execDeviceIdentify (r : Req) (s : State) : Out :=
  command 0x0101 false r []
    (fun s =>
      let rom := decide (s.boot.stage = 7)
      (ok (wBytes 2 Config.vendorId ++ leBytes 2 0x4860 ++ leBytes 2 0x4860
        ++ [s.boot.stepping.setWidth 8, BitVec.ofNat 8 (nb s.boot.hb), s.boot.grade.setWidth 8,
            BitVec.ofNat 8 (lcNum s.sealu.lc), 0, 0]
        ++ wBytes 8 s.boot.serial ++ leBytes 2 (hbmGib s 0) ++ leBytes 2 (hbmGib s 1)
        ++ leBytes 4 (sfNominal s) ++ leBytes 4 (sfAvailable s) ++ leBytes 4 (resNominal s) ++ leBytes 4 (resAvailable s)
        ++ (if rom then zeros 20
            else wBytes 4 s.boot.fwVersion ++ wBytes 4 s.boot.fwBuild ++ wBytes 8 s.plan.planId
              ++ wBytes 4 s.plan.generation)
        ++ [s.mgmt.eid, 0, 0, 0]), s)) s

/-- degraded of DEVICE_STATUS: a plane that is not UP, a lost stack, the proxy's degraded mode. -/
def degraded (s : State) : Nat :=
  nb (decide ((plane s 0).st ≠ .up) || decide ((plane s 1).st ≠ .up))
  + 2 * nb (decide ((stackOf s 0).st ≠ .up) || decide ((stackOf s 1).st ≠ .up)) + 4 * nb s.proxy.degraded

/-- DEVICE_STATUS (R330): uptime counts on the always-on clock. -/
def execDeviceStatus (r : Req) (s : State) : Out :=
  command 0x0102 false r []
    (fun s =>
      (ok ([BitVec.ofNat 8 (fwNum s.mgmt.fw), BitVec.ofNat 8 (degraded s)] ++ leBytes 2 s.mgmt.tickets.length
        ++ leBytes 8 ((s.aon - s.mgmt.upSince).toNat / msTicks) ++ wBytes 8 s.tele.time
        ++ wBytes 4 s.mgmt.head ++ wBytes 4 (oldestSeq s)), s)) s

/-! ## Tickets and events (R321, R330) -/

/-- A ticket is freed; a STANDBY entry that waits for it goes on (17 R402). -/
def freeTicketNum (t : BitVec 16) (s : State) : State :=
  { s with mgmt := { s.mgmt with tickets := s.mgmt.tickets.filter fun k => !decide (k.num = t) }
           pmu := if s.pmu.stage12Ticket = some t then { s.pmu with stage12 := some s.tele.time, stage12Ticket := none }
                  else s.pmu }

/-- RESULT_FETCH (R321): the stored result, once, to any owner requester. -/
def execResultFetch (r : Req) (ticket : BitVec 16) (s : State) : Out :=
  command 0x0103 false r (wBytes 2 ticket ++ zeros 2)
    (fun s =>
      match s.mgmt.tickets.find? fun k => decide (k.num = ticket) with
      | none => (rep 0x0101, s)
      | some k =>
        match k.result with
        | none => (rep 1 ticket.toNat, s)
        | some q => ({ q with payload := wBytes 2 k.opcode ++ wBytes 2 k.tag ++ q.payload }, freeTicketNum ticket s)) s

/-- The 32 bytes of an event record (Table 13-6). -/
def eventBytes (e : Event) : List Byte :=
  wBytes 4 e.seq ++ wBytes 2 e.type ++ zeros 2 ++ wBytes 8 (e.stamp.setWidth 64) ++ wBytes 16 e.data

/-- Sequence number a stands before b, the two less than half of their range apart. -/
def seqBefore (a b : BitVec 32) : Bool := (a - b).msb

/-- EVENT_READ (R330): records from from_seq upward. -/
def execEventRead (r : Req) (fromSeq : BitVec 32) (max_ : BitVec 16) (s : State) : Out :=
  command 0x0104 false r (wBytes 4 fromSeq ++ wBytes 2 max_ ++ zeros 2)
    (fun s =>
      if max_ = 0 ∨ 64 < max_.toNat then (badField 4, s)
      else if seqBefore fromSeq (oldestSeq s) then (rep 0x0102, s)
      else
        let es := (s.mgmt.events.filter fun e => !seqBefore e.seq fromSeq).take max_.toNat
        (ok (leBytes 2 es.length ++ zeros 2 ++ (es.map eventBytes).flatten), s)) s

/-- EVENT_ACK (R330): records up to seq are freed. -/
def execEventAck (r : Req) (seq : BitVec 32) (s : State) : Out :=
  command 0x0105 false r (wBytes 4 seq)
    (fun s =>
      if seqBefore seq s.mgmt.head = false then (badField 0, s)
      else
        let s1 := { s with mgmt := { s.mgmt with events := s.mgmt.events.filter fun e => seqBefore seq e.seq } }
        (ok (wBytes 4 (oldestSeq s1)), s1)) s

/-- EVENT_SUBSCRIBE (R330): at most 8 EIDs. -/
def execEventSubscribe (r : Req) (eid enable : BitVec 8) (s : State) : Out :=
  command 0x0106 false r ([eid, enable] ++ zeros 2)
    (fun s =>
      let others := s.mgmt.subs.filter (· ≠ eid)
      let known := s.mgmt.subs.contains eid
      let answer := fun (l : List (BitVec 8)) =>
        (ok [BitVec.ofNat 8 l.length], { s with mgmt := { s.mgmt with subs := l } })
      if 1 < enable.toNat then (badField 1, s)
      else if enable = 0 then answer others
      else if known then answer s.mgmt.subs
      else if 8 ≤ s.mgmt.subs.length then (rep 0x30, s)
      else answer (s.mgmt.subs ++ [eid])) s

/-! ## Registers over Nib (R330) -/

/-- Bytes of the DCW (R326). -/
def dcwSize : Nat := 0x4000000

/-- A run of n words at an offset is misaligned, touches the owner mailboxes or lies outside the DCW (R330). -/
def dcwBad (offset n : Nat) : Bool :=
  decide (offset % 8 ≠ 0) || decide (dcwSize < offset + 8 * n) || decide (offset < 0x81000 ∧ 0x1000 < offset + 8 * n)

/-- n words read from an offset on. -/
def dcwTake : Nat → Nat → State → List Byte × State
  | 0, _, s => ([], s)
  | n + 1, off, s =>
    let a := regTake off s
    let b := dcwTake n (off + 8) a.2
    (wBytes 8 a.1 ++ b.1, b.2)

/-- A list of words written from an offset on. -/
def dcwPut : List (BitVec 64) → Nat → State → State
  | [], _, s => s
  | v :: vs, off, s => dcwPut vs (off + 8) (regWrite off v allMask s)

/-- DCW_READ (R330). -/
def execDcwRead (r : Req) (offset : BitVec 32) (count : BitVec 16) (s : State) : Out :=
  command 0x0107 false r (wBytes 4 offset ++ wBytes 2 count ++ zeros 2)
    (fun s =>
      if dcwBad offset.toNat 1 then (rep 0x0103, s)
      else if count = 0 ∨ 512 < count.toNat then (badField 4, s)
      else if dcwBad offset.toNat count.toNat then (rep 0x0103, s)
      else
        let a := dcwTake count.toNat offset.toNat s
        (ok a.1, a.2)) s

/-- DCW_WRITE (R330). -/
def execDcwWrite (r : Req) (offset : BitVec 32) (values : List (BitVec 64)) (s : State) : Out :=
  command 0x0108 false r (wBytes 4 offset ++ leBytes 2 values.length ++ zeros 2 ++ (values.map fun v => wBytes 8 v).flatten)
    (fun s =>
      if dcwBad offset.toNat 1 then (rep 0x0103, s)
      else if values.length = 0 ∨ 512 < values.length then (badField 4, s)
      else if dcwBad offset.toNat values.length then (rep 0x0103, s)
      else (ok, dcwPut values offset.toNat s)) s

/-! ## Functions, bridge and reset -/

/-- The instance is not DISABLED. -/
def instBusy (s : State) (n : BitVec 10) : Bool := decide ((inst s n.toNat).st ≠ .disabled)

/-- FUNCTION_EXPOSE (R325): both the named instance and one mapped at the VF now must be DISABLED. -/
def execFunctionExpose (r : Req) (port_ vf : BitVec 8) (inst_ : BitVec 16) (s : State) : Out :=
  command 0x0109 false r ([port_, vf] ++ wBytes 2 inst_)
    (fun s =>
      let k := port_.toNat * 64 + vf.toNat
      let cur := tabGet none s.mgmt.vfs k
      let map := fun (v : Option (BitVec 10)) =>
        (ok, { s with mgmt := { s.mgmt with vfs := tabSet none s.mgmt.vfs k v } })
      if 96 ≤ port_.toNat then (badField 0, s)
      else if 64 ≤ vf.toNat then (badField 1, s)
      else if 1024 ≤ inst_.toNat ∧ inst_ ≠ 0xFFFF then (badField 2, s)
      else if cur.any (instBusy s) then (rep 0x0104, s)
      else if inst_ = 0xFFFF then map none
      else
        let n : BitVec 10 := inst_.setWidth 10
        if instBusy s n then (rep 0x0104, s)
        else if s.mgmt.vfs.any fun e => decide (e.1 ≠ k) && decide (e.2 = some n) then (rep 0x0105, s)
        else map (some n)) s

/-- Instances of a transport kind: 2 I3C ports, 96 logical ports, 8 Weft links. -/
def transportCount (kind : Nat) : Nat :=
  match kind with
  | 0 => 256 | 1 => 2 | 2 => 96 | _ => 8

/-- MCTP_BRIDGE_SET (R315). -/
def execMctpBridgeSet (r : Req) (entry first last transport index : BitVec 8) (s : State) : Out :=
  command 0x010A false r ([entry, first, last, transport, index] ++ zeros 3)
    (fun s =>
      if 64 ≤ entry.toNat then (badField 0, s)
      else if 3 < transport.toNat then (badField 3, s)
      else if transportCount transport.toNat ≤ index.toNat then (badField 4, s)
      else
        let v := if transport = 0 then none
                 else some { first := first, last := last, kind := transport, index := index : Bridge }
        (ok, { s with mgmt := { s.mgmt with bridge := tabSet none s.mgmt.bridge entry.toNat v } })) s

/-- A reset that DEVICE_RESET asks for, one asked for before standing, except that a cold one overrides (R483). -/
def resetAsked (type : BitVec 8) (s : State) : State :=
  if s.boot.resetDue.isNone ∨ type = 0 then { s with boot := { s.boot with resetDue := some type } } else s

/-- DEVICE_RESET (R482, R484): types 0 and 1 begin at COLD_RESET and WARM_RESET, type 2 after the response. -/
def execDeviceReset (r : Req) (type : BitVec 8) (s : State) : Out :=
  fin (mgmtResetDue (nib 0x010B false r ([type] ++ zeros 3)
    (fun s => if 2 < type.toNat then (badField 0, s) else (ok, resetAsked type s)) s))

end Sys2Proof.Machine
end

