-- ==== Sys2Proof/Machine/BootOps.lean ====
section
/-! DEFINITION. The boot sequence: what each reset clears and keeps, the images and the board table, the boot's own
records, and firmware's start (Boot and Reset). -/

namespace Sys2Proof.Machine

open Sys2Proof

/-! ## What a reset clears (R482) -/

/-- What the flash and the fuses hold of the seal unit. -/
def sealKept (v : SealState) : SealState :=
  { SealState.init with
    lc := v.lc, lcFuse := v.lcFuse, claims := v.claims, releases := v.releases, ownerSlots := v.ownerSlots
    ownerSlot := v.ownerSlot, makerRevoked := v.makerRevoked, uds := v.uds, udsBurned := v.udsBurned
    planKeys := v.planKeys, staged := v.staged, isStaged := v.isStaged, ring := v.ring, cert := v.cert }

/-- The seal unit over a warm reset: the flags in force and a failed entropy source stay (Table 20-6, 19 R454). -/
def sealWarm (v : SealState) : SealState := { sealKept v with dbg := v.dbg, entropyFail := v.entropyFail, lcReset := v.lcReset }

/-- What a part has of its own: identity, flash, the losses recorded in it, and the levels at its pins. -/
def bootKept (b : BootState) : BootState :=
  { BootState.init with
    flash := { b.flash with writing := [] }, stepping := b.stepping, hb := b.hb, grade := b.grade, serial := b.serial
    recordedLoss := b.recordedLoss, gpioIn := b.gpioIn }

/-- Boot and package over a warm reset: straps, thermal state and GPIO stay. -/
def bootWarm (b : BootState) : BootState :=
  { bootKept b with
    recovery := b.recovery, planHold := b.planHold, i3cAddr := b.i3cAddr, cause := b.cause, thermal := b.thermal
    warn := b.warn, warnActive := b.warnActive, thermTrip := b.thermTrip, gpioOe := b.gpioOe, gpioOut := b.gpioOut }

/-- The pins that a cold reset moves: PERST of every bay asserted, THERMTRIP_L released, TSYNC_OUT low (21 R495). -/
def resetPins (s : State) : List Emit :=
  ((s.slot.slots.filter fun p => !p.2.perst).map fun p => Emit.pin 2 (BitVec.ofNat 8 p.1) false)
  ++ (if s.boot.thermTrip then [Emit.pin 1 0 true] else []) ++ [Emit.pin 0 0 false]

/-- Everything that is not in flash or fuses is cleared (Table 20-6, Cold). The levels at the inputs are the board's. -/
def coldClear (s : State) : State :=
  { State.reset with
    tele := { TeleState.init with ref := s.tele.ref, refPresent := s.tele.refPresent }
    fault := { FaultState.init with log := s.fault.log }
    lane := { LaneState.init with present := s.lane.present }
    slot := { SlotState.init with vbus := s.slot.vbus }
    wefts := (List.range 8).foldl (fun t n => tabSet Weft.init t n { Weft.init with session := (weft s n).session }) []
    sealu := sealKept s.sealu, boot := bootKept s.boot
    emits := s.emits ++ resetPins s, free := s.free, pending := s.pending }

/-- Time and telemetry over a warm reset: the time stays, the engines and HBM areas are cleared. -/
def teleWarm (t : TeleState) : TeleState :=
  { TeleState.init with
    time := t.time, rate := t.rate, st := t.st, ref := t.ref, refPresent := t.refPresent, stepped := t.stepped
    frozen := t.frozen, source := t.source, offset := t.offset, path := t.path, sources := t.sources
    revertS := t.revertS, asym := t.asym, good := t.good, far := t.far, tsyncAt := t.tsyncAt, tsyncFall := t.tsyncFall
    betterSince := t.betterSince, badPulses := t.badPulses }

/-- A record whose lasting condition a warm reset does not end: those of the seal unit, the PMU, the selvedge, time, and a
lost reference input. -/
def condStays (key : Nat) : Bool := [14, 16, 17, 18].contains (key / 256) || decide (key = 0x230)

/-- A fault record over a warm reset: kept, its lasting conditions gone with what they stood for. -/
def recWarm (key : Nat) (r : FaultRec) : FaultRec :=
  if r.conds = [] ∨ condStays key then r else { r with conds := [], cleared := true }

/-- Fault records stay; safe-stop is left (R483). -/
def faultWarm (f : FaultState) : FaultState :=
  { f with recs := tabMap FaultRec.init recWarm f.recs, safeStop := false, todo := [] }

/-- A memory type over a warm reset: counts, trackers and SRAM remaps stay; contents are gone, and HBM remaps come back
from the log (R364). -/
def memWarm (t : Nat) (m : MemType) : MemType :=
  { m with
    rowCopies := [], writebacks := [], injected := [], bad := []
    spares := if isHbm t then [] else m.spares, rows := [], used := if isHbm t then 0 else m.used }

/-- The PMU over a warm reset or STANDBY: its registers stay, every domain and rail starts anew. -/
def pmuWarm (p : PmuState) : PmuState :=
  { p with
    st := .run, entering := false, exiting := false, exitFailed := false, toStandby := false, stage := 0, ticket := none
    stage12 := none, stage12Ticket := none, before := [], departAsked := false, rails := [], sigs := []
    doms := tabMap Domain.init (fun _ d => { Domain.init with wakes := d.wakes }) p.doms }

/-- A port that a record still isolates stays so (16 Table 16-3). -/
def portsWarm (s : State) : Tab Port :=
  tabMap Port.init (fun _ p => { Port.init with isolated := p.isolated }) s.ports

/-- A link keeps its session value and stays isolated. -/
def weftsWarm (s : State) : Tab Weft :=
  tabMap Weft.init (fun _ w => { Weft.init with session := w.session, isolated := w.isolated }) s.wefts

/-- Every switched domain and the HBM are cleared; pd.aon and the selvedge stay (Table 20-6, Warm; 17 R409). The rule epoch, the
violation record and the locked protection entries go only with a cold reset (09 R217, R222, R223; log entry 128). -/
def warmClear (s : State) : State :=
  { State.reset with
    plan := { PlanState.init with active := { Tables.init with
      protection := s.plan.active.protection.filter fun e => ptLock e.2 } }
    prot := { ProtState.init with epoch := s.prot.epoch, viol := s.prot.viol }
    tele := teleWarm s.tele, aon := s.aon, ports := portsWarm s, wefts := weftsWarm s
    lane := { LaneState.init with present := s.lane.present }
    mgmt := { MgmtState.init with restarts := s.mgmt.restarts, upSince := s.mgmt.upSince }
    mem := { MemState.init with types := tabMap MemType.init memWarm s.mem.types }
    fault := faultWarm s.fault, pmu := pmuWarm s.pmu, slot := s.slot, sealu := sealWarm s.sealu, boot := bootWarm s.boot
    emits := s.emits, free := s.free, pending := s.pending }

/-! ## Firmware images (R474, R475) -/

/-- Bytes of an image, its header included. -/
def imageLen (i : List Byte) : Nat := leAt i 0x08 4

/-- The bytes that an image's signature covers: all of it, with r and s taken as 0 (R474). -/
def imageSigned (i : List Byte) : List Byte := i.take 0x40 ++ zeros 0x60 ++ (i.take (imageLen i)).drop 0xA0

/-- An image is accepted: its header is valid, its min_rom satisfied, and its signature verifies under a maker key that
is not revoked (R474, R475, 19 R450). -/
def imageOk (s : State) (i : List Byte) : Bool :=
  decide (leAt i 0 4 = 0x4642494E) && decide (leAt i 4 2 = 1) && decide (256 ≤ imageLen i ∧ imageLen i ≤ 2 ^ 22 + 256)
  && decide (imageLen i ≤ i.length) && decide (leAt i 0x18 4 ≤ Config.romVersion.toNat)
  && decide (leAt i 0x1C 1 < 4)
  && signedBy s (leAt i 0x1C 1) (imageSigned i) (BitVec.ofNat 384 (beAt i 0x40 48)) (BitVec.ofNat 384 (beAt i 0x70 48))

/-- Image k of the flash. -/
def fwImage (s : State) (k : Nat) : List Byte := tabGet [] s.boot.flash.fw k
/-- The image that the flash header names; image A where the header does not verify (R471). -/
def activeFw (s : State) : Nat := if s.boot.flash.headerOk then s.boot.flash.activeFw.toNat else 0
/-- The board table that the flash header names. -/
def activeBt (s : State) : Nat := if s.boot.flash.headerOk then s.boot.flash.activeBt.toNat else 0

/-- The image the boot ROM chooses: the active one, else the other one (R475). -/
def pickImage (recovery : Bool) (s : State) : Option Nat :=
  if recovery then none
  else if imageOk s (fwImage s (activeFw s)) then some (activeFw s)
  else if imageOk s (fwImage s (1 - activeFw s)) then some (1 - activeFw s)
  else none

/-- The 64 bytes of a flash header that verifies (R471, Table 20-10). -/
def flashHeader (f : Flash) : List Byte :=
  let b := wBytes 4 (0x48534C46#32) ++ leBytes 2 1 ++ wBytes 1 f.activeFw ++ wBytes 1 f.activeBt ++ wBytes 4 f.ringSlots
    ++ wBytes 4 f.flashMib ++ zeros 44
  b ++ wBytes 4 (crc32 b)

/-- Where each image of a chain starts in its half: on the 4 KiB boundaries after the directory (R480). -/
def imageStarts (ls : List Nat) : List Nat :=
  (ls.foldl (fun (p : List Nat × Nat) n => (p.1 ++ [p.2], p.2 + (n + 4095) / 4096 * 4096)) ([], 4096)).1

/-- The 4 KiB directory of a half of the plan area (R480, Table 20-14). -/
def planDirectory (h : PlanHalf) : List Byte :=
  let entry := fun (p : Nat × List Byte × BitVec 384) => leBytes 4 p.1 ++ leBytes 4 p.2.1.length ++ wBytes 48 p.2.2
  let es := (((imageStarts (h.images.map fun i => i.1.length)).zip h.images).map entry).flatten
  let b := wBytes 4 (0x4E484350#32) ++ leBytes 2 1 ++ leBytes 1 h.images.length ++ zeros 1 ++ wBytes 8 h.planId
    ++ wBytes 4 h.generation ++ zeros 12 ++ es ++ zeros (16 * 56 - es.length) ++ zeros 3164
  b ++ wBytes 4 (crc32 b)

/-! ## The board table (R477) -/

/-- A board table with its crc field taken as 0. -/
def btZeroed (t : List Byte) : List Byte := t.take 0x1C ++ zeros 4 ++ (t.drop 0x20).take (leAt t 8 4 - 0x20)

/-- The directory: type, offset and length of each section. -/
def btDir (t : List Byte) : List (Nat × Nat × Nat) :=
  (List.range (leAt t 6 2)).map fun i =>
    let d := leAt t 0x0C 4 + 16 * i
    (leAt t d 2, leAt t (d + 4) 4, leAt t (d + 8) 4)

/-- A board table is valid: header and crc, no section type twice, every section within length (R477). -/
def btValid (t : List Byte) : Bool :=
  let n := leAt t 8 4
  decide (leAt t 0 4 = 0x4C425442) && decide (leAt t 4 2 = 1) && decide (1 ≤ leAt t 6 2 ∧ leAt t 6 2 ≤ 16)
  && decide (32 ≤ n ∧ n ≤ 2 ^ 20 ∧ n ≤ t.length) && decide (leAt t 0x0C 4 % 16 = 0)
  && decide (leAt t 0x0C 4 + 16 * leAt t 6 2 ≤ n)
  && decide (BitVec.ofNat 32 (leAt t 0x1C 4) = crc32 (btZeroed t))
  && decide ((btDir t).map (·.1)).Nodup && (btDir t).all fun e => decide (e.2.1 + e.2.2 ≤ n)

/-- A section's bytes; none where the table has no such section. -/
def btSection (t : List Byte) (type : Nat) : Option (List Byte) :=
  ((btDir t).find? fun e => decide (e.1 = type)).map fun e => (t.drop e.2.1).take e.2.2

/-- Record i of n bytes of a section, zero-padded. -/
def secRec (sec : Option (List Byte)) (n i : Nat) : Nat := leAt (sec.getD []) (n * i) n

/-- A lane preset section is valid: magic, version, record count and crc (12 R288, R289). -/
def presetSecOk (p : List Byte) : Bool :=
  let n := leAt p 6 2
  decide (leAt p 0 4 = 0x4552504C) && decide (leAt p 4 2 = 1) && decide (n ≤ 3328)
  && decide (BitVec.ofNat 32 (leAt p 0x1C 4) = crc32 (p.take 0x1C ++ zeros 4 ++ (p.drop 0x20).take (16 * n)))

/-- The presets of a valid section, and how many of its records are invalid or repeat an earlier one (12 R289). -/
def presetRecs (p : List Byte) : Tab (Option (BitVec 128)) × Nat :=
  (List.range (leAt p 6 2)).foldl (fun (a : Tab (Option (BitVec 128)) × Nat) i =>
    let r := BitVec.ofNat 128 (leAt p (32 + 16 * i) 16)
    let k := psLane r * 8 + psRate r
    let again := (List.range i).any fun j => decide (leAt p (32 + 16 * j) 3 = leAt p (32 + 16 * i) 3)
    if (presetBad r).isSome || again then (a.1, a.2 + 1) else (tabSet none a.1 k (some r), a.2))
    ([], 0)

/-- l0p_idle_us of a preset section: 1 to 1,000, 0 takes 2. -/
def presetIdle (p : List Byte) : BitVec 16 :=
  let v := leAt p 0x0A 2
  if v = 0 then 2 else BitVec.ofNat 16 (min v 1000)

/-- The lane fields of a board table (12 Table 12-1). -/
def btLanes (t : List Byte) (b : BoardTable) : BoardTable :=
  match btSection t 2 with
  | none => b
  | some p =>
    if presetSecOk p then
      { b with presets := (presetRecs p).1, refSel := BitVec.ofNat 8 (leAt p 8 1), l0pIdle := presetIdle p }
    else b

/-- The WEFT section: bit n of the enables, and each link's configuration after its enable byte. -/
def btWefts (t : List Byte) (b : BoardTable) : BoardTable :=
  match btSection t 3 with
  | none => b
  | some p =>
    { b with
      weftEnable := BitVec.ofNat 8 (((List.range 8).map fun n => (secRec (some p) 44 n % 256 % 2) * 2 ^ n).sum)
      weftCfg := (List.range 8).foldl (fun x n =>
        tabSet none x n (some (BitVec.ofNat 344 (secRec (some p) 44 n / 256)))) [] }

/-- The SLOT section (18 R441). -/
def btSlots (t : List Byte) (b : BoardTable) : BoardTable :=
  match btSection t 4 with
  | none => b
  | some p =>
    { b with slot := (List.range 24).foldl (fun x n => tabSet none x n (some (BitVec.ofNat 200 (secRec (some p) 25 n)))) [] }

/-- The MGMT section; boot_time_wait_ms above 60,000 acts as 60,000. -/
def btMgmt (t : List Byte) (b : BoardTable) : BoardTable :=
  match btSection t 5 with
  | none => b
  | some p =>
    { b with ownerMask := BitVec.ofNat 96 (leAt p 0 12), trustedLinks := BitVec.ofNat 8 (leAt p 12 1)
             eid := BitVec.ofNat 8 (leAt p 13 1), timeWait := BitVec.ofNat 16 (min (leAt p 14 2) 60000) }

/-- A valid board table decoded (Table 20-4). -/
def btDecode (t : List Byte) : BoardTable :=
  let p := btSection t 1
  btMgmt t (btSlots t (btWefts t (btLanes t { BoardTable.init with
    port := (List.range 48).foldl (fun x n => tabSet 0 x n (BitVec.ofNat 256 (secRec p 32 n))) [] })))

/-- Board table k of the flash. -/
def btImage (s : State) (k : Nat) : List Byte := tabGet [] s.boot.flash.bt k

/-- The board table the boot ROM uses: the named one, else the other one (R477). -/
def pickBoard (s : State) : Option (List Byte) :=
  if btValid (btImage s (activeBt s)) then some (btImage s (activeBt s))
  else if btValid (btImage s (1 - activeBt s)) then some (btImage s (1 - activeBt s))
  else none

/-- The faults of a preset section: one that is ignored, or the count of its invalid records (12 R289). -/
def presetFaults (t : List Byte) (s : State) : State :=
  match btSection t 2 with
  | none => s
  | some p =>
    if presetSecOk p = false then raiseFree 2 1 (source 0 0) s
    else if (presetRecs p).2 = 0 then s
    else raise 2 2 (source 0 0) (BitVec.ofNat 64 (presetRecs p).2) s

/-- Step 5: the board table is read, measured and decoded; without a valid one BOOT-0x0002 is raised (R477). -/
def readBoard (s : State) : State :=
  match pickBoard s with
  | none =>
    raiseFree 19 2 (source 0 0)
      { s with boot := { s.boot with btOk := false, board := BoardTable.init }, sealu := { s.sealu with btDigest := 0 } }
  | some t =>
    presetFaults t { s with
      boot := { s.boot with btOk := true, board := btDecode t }
      sealu := { s.sealu with btDigest := Config.sha384 (t.take (leAt t 8 4)) } }

/-! ## What the board table sets -/

/-- Link n's WEFT record in force: its configuration where it lies in range, its enable (R478 step 7, 11 R283). -/
def weftBoard (n : Nat) (s : State) : State :=
  let c := (tabGet none s.boot.board.weftCfg n).getD 0
  let w := weft s n
  let f := fun (o : Nat) => fld c (8 * (o - 1)) 16
  let slots : BitVec 256 := fld c 24 256
  let bad := weftCfgBad (fld c 0 8) (fld c 8 8) slots (f 36) (f 38) (f 40) (f 42)
  let w1 := if bad.isNone then weftConfigure (fld c 0 8) (fld c 8 8) slots (f 36) (f 38) (f 40) (f 42) w else w
  let s1 := setWeft n { w1 with disabled := !bit s.boot.board.weftEnable n } s
  weftRelease n s1

/-- The lane array takes the board table's presets, reference choice and L0p idle time (12 R288, 01 R14). -/
def laneBoard (s : State) : State :=
  let l0p := (List.range 96).foldl (fun t u =>
    tabSet L0p.init t u { L0p.init with idleUs := s.boot.board.l0pIdle }) []
  { s with lane := { s.lane with presets := s.boot.board.presets, refSel := s.boot.board.refSel, l0p := l0p } }

/-- The slot registers take the board table's values, for a boot whose channels have started without them (18 R441). -/
def slotsLoad (s : State) : State :=
  (List.range 24).foldl (fun s n =>
    let c := slotCh s n
    match tabGet none s.boot.board.slot n with
    | none => s
    | some r =>
      setSlot n { c with gateCtl := if gateOk (fld r 0 64) then gateMask (fld r 0 64) else c.gateCtl
                         ctl := setFld (ctlMask (fld r 64 64)) 0 1 (fld c.ctl 0 1), pgCfg := pgMask (fld r 128 64)
                         lock := bit r 192 } s) s

/-- Ports and Weft links are enabled by the board table; without one every port and link stays OFF (R477, R478). -/
def boardApply (s : State) : State :=
  let s1 := laneBoard s
  if s.boot.btOk then
    (List.range 8).foldl (fun s n => weftBoard n s) ((List.range 96).foldl (fun s u => giveRole u s) (portsInvalid s1))
  else (List.range 8).foldl (fun s n => setWeft n { weft s n with disabled := true } s) s1

/-! ## Boot records (19 R459 to R461) -/

/-- The record of the ring with the highest sequence number, those of `bad` left out. -/
def ringHead (bad : List (BitVec 64)) (s : State) : Option ColoRec :=
  s.sealu.ring.foldl (fun a p => match a, p.2.filter fun r => !bad.contains r.seq with
    | none, r => r
    | some x, some r => if x.seq.toNat < r.seq.toNat then some r else some x
    | some x, none => some x) none

/-- What the BOOT record follows: its flags, and the sequence number, boot count and digest it stands on. A ring without
records begins a chain with GENESIS; one of which none verifies gives BROKEN and SEAL-0x0011 (19 R461). -/
def chainStart (b : BootIn) (s : State) : BitVec 32 × State :=
  let follow := fun (r : ColoRec) (broken : Bool) => { s with sealu := { s.sealu with
      nextSeq := r.seq + 1, boot := BitVec.ofNat 32 (leAt r.bytes 16 4) + 1, hasHead := true, headSeq := r.seq
      headDigest := Config.sha384 (r.bytes.take 0x180), chainBroken := broken } }
  match ringHead b.ringBad s, ringHead [] s with
  | some r, _ => (0, follow r false)
  | none, some r => (2, raiseFree 14 0x11 (source 0 0) (follow r true))
  | none, none => (1, { s with sealu := { s.sealu with nextSeq := 0, boot := 0, hasHead := false, chainBroken := false } })

/-- BOOT, CONFIG and SECURITY are appended before firmware starts; a failure leaves ring_fault set and firmware starts
all the same (19 R459). -/
def bootAppends (b : BootIn) (s : State) : State :=
  if colophonOn s = false then s
  else
    let q := chainStart b s
    let s1 := q.2
    if b.appendOk = false then appendFailed { s1 with sealu := { s1.sealu with ringFault := true } }
    else
      let lcv := [BitVec.ofNat 8 (lcNum s1.sealu.lc), s1.sealu.claims.setWidth 8, s1.sealu.dbg.setWidth 8,
                  s1.boot.cause.setWidth 8]
      let s2 := appended (mkAppend s1 1 q.1 s1.sealu.fwDigest
        (lcv ++ wBytes 4 Config.romVersion ++ wBytes 97 (Config.publicKey (aliasKey s1)))) s1
      let s3 := appended (mkAppend s2 2 0 s2.sealu.btDigest []) s2
      appended (mkAppend s3 3 0 (securityDigest s3) [BitVec.ofNat 8 (planKeyMask s3)]) s3

/-- The alias certificate of this boot (19 R453). -/
def issueAlias (s : State) : State :=
  let v := s.sealu
  { s with sealu := { v with
      aliasCert := Config.aliasCert (Config.publicKey (aliasKey s)) v.fwDigest v.btDigest (lcNum v.lc) v.dbg.toNat } }

/-- The key store is re-verified: one that fails counts as empty (19 R455). -/
def readKeys (b : BootIn) (s : State) : State :=
  if s.sealu.lc = .owned ∧ b.keyStoreOk = false then
    raiseFree 14 0x40 (source 0 0) { s with sealu := { s.sealu with planKeys := [] } }
  else s

/-! ## The sequence (R478, Table 20-5) -/

/-- Steps 5 to 7: board table and key store, the boot's records, firmware RUNNING with ports and links enabled. `cold`
tells that the slot channels start anew (18 R441). -/
def bootFrom5 (b : BootIn) (cold : Bool) (s : State) : State :=
  let s1 := readKeys b (readBoard { s with boot := { s.boot with step := 5 } })
  let s2 := if cold then slotsReset b.seated s1 else s1
  let s3 := bootAppends b (issueAlias { s2 with boot := { s2.boot with stage := 3, step := 6 } })
  let s4 := { s3 with
    mgmt := { s3.mgmt with fw := .running, eid := s3.boot.board.eid }
    boot := { s3.boot with stage := 4, step := 7, runningAt := stamp s3, recIn := none } }
  boardApply s4

/-- Firmware image `i` is loaded and measured (R474). -/
def loadImage (i : List Byte) (s : State) : State :=
  { s with
    boot := { s.boot with fwVersion := BitVec.ofNat 32 (leAt i 0x0C 4), fwBuild := BitVec.ofNat 32 (leAt i 0x10 4) }
    sealu := { s.sealu with fwDigest := Config.sha384 (i.take (imageLen i)) }
    mgmt := { s.mgmt with fw := .loading } }

/-- Step 4: the flash header and an image; without one the boot ROM waits on I3C port 0 (R471, R475). -/
def bootFrom4 (b : BootIn) (cold : Bool) (s : State) : State :=
  let ring := if s.boot.flash.headerOk then s.boot.flash.ringSlots else 16384
  let s0 := { s with boot := { s.boot with step := 4, flash := { s.boot.flash with ringSlots := ring } } }
  match pickImage b.recovery s0 with
  | none =>
    let s1 := { s0 with boot := { s0.boot with stage := 7, recIn := some (b, cold) }, mgmt := { s0.mgmt with fw := .loading } }
    raiseFree 19 1 (source 0 0) (if cold then slotsReset b.seated s1 else s1)
  | some k =>
    let s1 := loadImage (fwImage s0 k) { s0 with boot := { s0.boot with
        stage := 2, image := decide (k = 1), fallback := decide (k ≠ activeFw s0) } }
    bootFrom5 b cold (if k = activeFw s0 then s1 else raiseFree 19 3 (source 0 0) s1)

/-- Step 3: the rails at their fused points, or AVS_TIMEOUT and the end of the sequence (R478, 17 R412, R414). -/
def bootFrom3 (b : BootIn) (cold : Bool) (s : State) : State :=
  let s1 := { s with boot := { s.boot with stage := 1, step := 3 } }
  if b.railsOk then
    bootFrom4 b cold ((List.range 4).foldl (fun s r =>
      setRail r { Rail.init with target := Config.fusedMv r, vout := Config.fusedMv r, vdone := true } s) s1)
  else raiseFree 16 0x10 (source 0 0) { s1 with boot := { s1.boot with stopped := true } }

/-- What the first boot after a transition erases (19 R448). -/
def lifeErase (old new : Lc) (s : State) : State :=
  let noPlan := { s with boot := { s.boot with flash := { s.boot.flash with plan := [] } }
                         sealu := { s.sealu with planKeys := [] } }
  if old = new then s
  else if (old = .owned ∧ new = .sealed) ∨ new = .spent then
    { noPlan with sealu := { noPlan.sealu with ring := [] } }
  else if new = .returned then noPlan
  else s

/-- Staged debug flags come into force for this boot; BSCAN and UART_OUT persist in OWNED until changed (19 R452). -/
def applyDebug (s : State) : State :=
  let v := s.sealu
  if v.isStaged then
    { s with sealu := { v with
        dbg := v.staged &&& debugMask v.lc
        staged := if v.lc = .owned then v.staged &&& 3 else 0, isStaged := decide (v.lc = .owned) } }
  else s

/-- New session values of the Weft links from the random source, kept where it has failed (11 R276, 19 R454). -/
def newSessions (s : State) : State :=
  if s.sealu.entropyFail then s
  else (List.range 8).foldl (fun s n => setWeft n { weft s n with session := freeVal 32 s } (tookFree s)) s

/-- Step 2: the fuses give the life-cycle state, and the entropy source is tested (R478, 19 R445, R454). -/
def bootFrom2 (b : BootIn) (s : State) : State :=
  let s1 := lifeErase s.sealu.lc s.sealu.lcFuse { s with
    boot := { s.boot with step := 2 }, sealu := { s.sealu with lc := s.sealu.lcFuse } }
  let s2 := applyDebug s1
  let s3 := if b.entropyOk then s2
    else raiseFree 14 0x30 (source 0 0) { s2 with sealu := { s2.sealu with entropyFail := true } }
  bootFrom3 b true (newSessions s3)

/-- Reference inputs that show no edge are declared lost (12 R287). -/
def refsMissing (b : BootIn) (s : State) : State :=
  (List.range 3).foldl (fun s i => if bit b.refs i then s else raiseFreeCond 2 0x30 (source 0 0) s) s

/-- A cold boot with a cause (Table 20-5): pd.aon out of reset, straps sampled, fabric time at 0 in FREE. -/
def coldBoot (cause : Nat) (b : BootIn) (s : State) : State :=
  let s1 := coldClear s
  bootFrom2 b (refsMissing b { s1 with
    boot := { s1.boot with cause := BitVec.ofNat 3 cause, recovery := b.recovery, planHold := b.planHold, i3cAddr := b.addr }
    tele := { s1.tele with refPresent := b.ref25, ref := b1 (!bit b.ref25 0) }
    lane := { s1.lane with present := b.refs } })

/-- A warm boot with a cause (R483): from step 3, the straps as they were sampled. -/
def warmBoot (cause : Nat) (b : BootIn) (s : State) : State :=
  let s1 := warmClear s
  let b1 := { b with recovery := s.boot.recovery, planHold := s.boot.planHold }
  bootFrom3 b1 false { s1 with
    boot := { s1.boot with cause := BitVec.ofNat 3 cause }, mgmt := { s1.mgmt with upSince := s1.aon } }

end Sys2Proof.Machine
end

