-- ==== Sys2Proof/Machine/Plan.lean ====
section
/-! DEFINITION. Meanings of the plan loader's and the alternates' rows (Weave Plans and the Ngairet Model). -/

namespace Sys2Proof.Machine

open Sys2Proof

/-! ## Load and commit -/

/-- PLAN_LOAD_BEGIN (R44, R50). -/
def execPlanLoadBegin (r : Req) (kind : BitVec 16) (length : BitVec 64) (s : State) : Out :=
  command 0x0201 false r (wBytes 2 kind ++ zeros 2 ++ wBytes 8 length)
    (fun s =>
      if 2 ≤ kind.toNat then (badField 0, s)
      else if s.plan.shadowState ≠ .empty then (rep 2, s)
      else
        let s1 := dropLoad s
        (ok, { s1 with plan := { s1.plan with
          shadowState := .loading, loadKind := kind, loadLength := length, loadOwner := some r.src
          loadActivated := false } })) s

/-- PLAN_LOAD_DATA (R44, R50, R320): PAGE records that have arrived whole go to their blocks. -/
def execPlanLoadData (r : Req) (offset : BitVec 64) (data : List Byte) (s : State) : Out :=
  command 0x0202 false r (wBytes 8 offset ++ leBytes 4 data.length ++ data)
    (fun s =>
      let n := s.plan.loadBytes.length
      if data.length = 0 ∨ 4096 < data.length then (badField 8, s)
      else if s.plan.shadowState = .empty then (rep 0x0201, s)
      else if s.plan.shadowState ≠ .loading ∨ s.plan.loadOwner ≠ some r.src then (rep 2, s)
      else if offset.toNat ≠ n ∨ s.plan.loadLength.toNat < n + data.length then (rep 0x0204, s)
      else
        let s1 := { s with plan := { s.plan with loadBytes := s.plan.loadBytes ++ data } }
        (ok (leBytes 8 (n + data.length)), loadPages 16384 s1)) s

/-- PLAN_COMMIT (R45, R50, 19 R459): validation begins. -/
def execPlanCommit (r : Req) (flags : BitVec 32) (s : State) : Out :=
  command 0x0203 false r (wBytes 4 flags)
    (fun s =>
      if 2 ≤ flags.toNat then (badField 0, s)
      else if s.plan.shadowState = .empty then (rep 0x0201, s)
      else if s.plan.shadowState ≠ .loading ∨ s.plan.loadOwner ≠ some r.src then (rep 2, s)
      else if s.sealu.ringFault then (rep 0x60, s)
      else pend 0x0203 r (fun t s => { s with plan := { s.plan with
        shadowState := .validating, commitTicket := some t, persist := bit flags 0 } }) s) s

/-- PLAN_COMMIT_COMPLETE (R43, R45 to R47): at `stamp` the checks of Table 2-8, the PLAN record's append, and the plan
armed. -/
def execPlanCommitComplete (stamp : BitVec 64) (env : Env) (s : State) : Out :=
  if s.plan.shadowState = .validating then
    fin (validate env.append true (leAt s.plan.loadBytes 0x28 8) (reach stamp.toNat s))
  else fin s

/-- PLAN_ABORT (R49, R50, 19 R459). -/
def execPlanAbort (r : Req) (env : Env) (s : State) : Out :=
  command 0x0204 false r []
    (fun s =>
      match s.plan.shadowState with
      | .empty => (rep (if s.plan.loadActivated then 0x0202 else 0x0201), s)
      | st =>
        if s.plan.loadOwner ≠ some r.src then (rep 2, s)
        else if st = .armed then
          if s.plan.boundary.toNat ≤ now s then (rep 0x0202, s)
          else
            match appendNow env.append (planAppend s true s.plan.loadBytes) s with
            | (false, s1) => (rep 0x60, s1)
            | (true, s1) => (ok, dropLoad s1)
        else (ok, dropLoad (match s.plan.commitTicket with
          | none => s
          | some t => finishTicket t (rep 2) s))) s

/-- shadow_state as PLAN_STATUS numbers it. -/
def shadowNum (st : ShadowState) : Nat :=
  match st with
  | .empty => 0 | .loading => 1 | .validating => 2 | .armed => 3

/-- PLAN_STATUS (R60). -/
def execPlanStatus (r : Req) (s : State) : Out :=
  command 0x0205 false r []
    (fun s =>
      let p := s.plan
      (ok (wBytes 8 p.planId ++ wBytes 4 p.generation ++ leBytes 1 (shadowNum p.shadowState)
        ++ leBytes 1 p.chain.length ++ leBytes 2 (currentSet s) ++ wBytes 8 p.boundary ++ wBytes 2 p.lastStatus
        ++ wBytes 4 p.lastDetail ++ wBytes 1 p.unforeseen
        ++ (p.chain.map fun c => wBytes 2 c.set ++ wBytes 1 c.cls ++ wBytes 1 c.index).flatten), s)) s

/-- PLAN_ACTIVATION (R46 to R49, R57): the armed plan's boundary. -/
def execPlanActivation (s : State) : Out :=
  if s.plan.shadowState = .armed then fin (activatePlan (reach s.plan.boundary.toNat s)) else fin s

/-- PLAN_PERSIST (20 R479): after activation of a PERSIST commit. -/
def execPlanPersist (s : State) : Out := if s.plan.persistDue then fin (persistChain s) else fin s

/-- HEDDLE_READ (R503). -/
def execHeddleRead (r : Req) (type : BitVec 16) (index : BitVec 32) (count : BitVec 16) (s : State) : Out :=
  command 0x0208 false r
    (wBytes 2 type ++ zeros 2 ++ wBytes 4 index ++ wBytes 2 count)
    (fun s =>
      let n := count.toNat
      if type.toNat = 0 ∨ 12 < type.toNat then (badField 0, s)
      else if n = 0 ∨ 64 < n then (badField 8, s)
      else if heddleLimit s type.toNat < index.toNat + n then (badField 4, s)
      else (ok ((List.range n).map fun i => (heddleRecord s type.toNat (index.toNat + i)).getD []).flatten, s)) s

/-! ## Alternates (R51 to R58) -/

/-- PLAN_APPLY_ALTERNATE (R58, R60). DESIGN CHOICE (log entry 131): BUSY while the heddle block applies patches or
restores, or a restoration waits. -/
def execPlanApplyAlternate (r : Req) (set : BitVec 16) (s : State) : Out :=
  command 0x0206 false r (wBytes 2 set)
    (fun s =>
      let k := set.toNat
      if k = 0 ∨ setCount s ≤ k ∨ dParent (altSet s k).desc ≠ currentSet s then (rep 0x0203, s)
      else if s.plan.work ≠ .idle ∨ s.plan.restoreWant.isSome then (rep 2, s)
      else
        (ok, enterSet { set := set, cls := 0xFF, index := 0, notice := none, byCommand := true, upSince := none } none
          { s with plan := { s.plan with unforeseen := 0 } })) s

/-- PLAN_RESTORE (R55, R60). -/
def execPlanRestore (r : Req) (set : BitVec 16) (s : State) : Out :=
  command 0x0207 false r (wBytes 2 set)
    (fun s =>
      let anc := s.plan.chain.dropLast.any fun c => decide (c.set = set)
      if set = 0 then (ok, if s.plan.chain = [] then s else wantRestore set s)
      else if anc then (ok, wantRestore set s)
      else (rep 0x0203, s)) s

/-- TRIGGER_LOOKUP (R51, R53, R54, R58): the heddle block takes its next piece of work. -/
def execTriggerLookup (s : State) : Out := fin (heddleNextN 1 s)

/-- PATCH_APPLY_DONE (R51, R54). -/
def execPatchApplyDone (s : State) : Out := fin (patchesDone s)

/-- ALTERNATE_WEAVE_SWITCH (R51, R56): at the next weave-frame boundary. -/
def execAlternateWeaveSwitch (s : State) : Out :=
  if s.plan.weaveDue.isSome then fin (switchWeave (reach (nextFrame (now s)) s)) else fin s

/-- The first notice of an opcode and an ID that link n has heard is taken. -/
def takeHeard (n : Nat) (op : Op) (id : BitVec 8) (s : State) : Option State :=
  let w := weft s n
  match w.heard.find? fun m => decide (m.op = op) && decide (m.tag = id.setWidth 16) with
  | none => none
  | some m => some (setWeft n { w with heard := w.heard.erase m } s)

/-- APPLY_NOTICE_RECEIVE (R53, R54). -/
def execApplyNoticeReceive (link : BitVec 3) (id : BitVec 8) (s : State) : Out :=
  match takeHeard link.toNat .apply id s with
  | none => fin s
  | some s1 => fin (noticeIn id s1)

/-- RESTORE_NOTICE_RECEIVE (R55). -/
def execRestoreNoticeReceive (link : BitVec 3) (id : BitVec 8) (s : State) : Out :=
  match takeHeard link.toNat .restore id s with
  | none => fin s
  | some s1 => fin (restoreIn id s1)

/-- STABLE_PERIOD_EXPIRY (R55): mode 1; a period of 0 restores only by command. -/
def execStablePeriodExpiry (s : State) : Out :=
  match s.plan.chain.getLast? with
  | none => fin s
  | some c =>
    match c.upSince with
    | none => fin s
    | some t =>
      if currentMode s = 1 ∧ stablePeriod s ≠ 0 then
        fin (wantRestore (parentOf s) (reach (t.toNat + stablePeriod s * msTicks) s))
      else fin s

/-- ALTERNATE_RESTORED (R56): the restoration wanted begins at a weave-frame boundary, once no patches or restoration are
under way. -/
def execAlternateRestored (s : State) : Out :=
  match s.plan.work, s.plan.restoreWant with
  | .idle, some k =>
    let s1 := reach (nextFrame (now s)) s
    fin (restoreTo k { s1 with plan := { s1.plan with restoreWant := none } })
  | _, _ => fin s

/-- RESTORATION_REWRITE_DONE (R54, R56). -/
def execRestorationRewriteDone (s : State) : Out :=
  match s.plan.work with
  | .rewriting => fin (heddleNext { s with plan := { s.plan with work := .idle } })
  | _ => fin s

/-- HEDDLE_WORD_RELOAD (R59, 15 R367, R370): the word is read again from the plan store, at `offset` in it, with the
chain's patches; the requests and the trigger lookup that waited for it go on. Where both copies fail, HEDL-0x0025, and it waits for a plan. -/
def execHeddleWordReload (section_ : BitVec 16) (index : BitVec 32) (offset : BitVec 28) (first second : Ecc)
    (s : State) : Out :=
  if tableBad s section_.toNat index.toNat then
    let r := mirrorRead offset.toNat first second s
    if r.1 then fin (raiseFree 6 0x25 (source 0 0) r.2)
    else fin (heddleNext (unblock (tableMend section_.toNat index.toNat r.2)))
  else fin s

end Sys2Proof.Machine
end

