-- ==== Sys2Proof/Machine/Boot.lean ====
section
/-! DEFINITION. The rows of boot, reset, package and device exit (Boot and Reset; Package, Pins and Electrical
Characteristics; Power Domains R408, R409, R416). -/

namespace Sys2Proof.Machine

open Sys2Proof

/-! ## Resets (R469, R482 to R484, 19 R447) -/

/-- A commanded reset may begin: its response has left the mailboxes and no colophon append is in progress (R484, R330). -/
def resetReady (s : State) : Bool :=
  s.sealu.appends.isEmpty && (List.range 4).all fun m => (mbx s m).answer.isNone

/-- COLD_RESET (R478): by RESET_L or the first power, or by DEVICE_RESET 0 once its response is out. -/
def execColdReset (b : BootIn) (s : State) : Out :=
  if s.boot.held then fin s
  else if b.pin then fin (coldBoot (if b.powerOn then 0 else 1) b s)
  else if s.boot.resetDue = some 0 ∧ resetReady s then fin (coldBoot 2 b s)
  else fin s

/-- WARM_RESET (R483): by WRESET_L, or by DEVICE_RESET 1 once its response is out; a cold reset asked for overrides it. -/
def execWarmReset (b : BootIn) (s : State) : Out :=
  if s.boot.held ∨ s.boot.resetDue = some 0 then fin s
  else if b.pin then fin (warmBoot 3 b s)
  else if s.boot.resetDue = some 1 ∧ resetReady s then fin (warmBoot 4 b s)
  else fin s

/-- LIFECYCLE_RESET (19 R447): 100 ms after the transition's response. -/
def execLifecycleReset (b : BootIn) (s : State) : Out :=
  match s.sealu.lcReset with
  | none => fin s
  | some t => if s.boot.held then fin s else fin (coldBoot 5 b (reachAon t.toNat s))

/-- VAON_LOSS (21 R494): the device is held in cold reset. -/
def execVaonLoss (s : State) : Out :=
  if s.boot.held then fin s
  else
    let s1 := coldClear s
    fin { s1 with boot := { s1.boot with held := true } }

/-- VAON_RESTORED (21 R494): the device is released from cold reset. -/
def execVaonRestored (b : BootIn) (s : State) : Out := if s.boot.held then fin (coldBoot 0 b s) else fin s

/-! ## Step 8 (R478, R473, 15 R364, R373) -/

/-- A record of the remap log whose crc verifies (R472). -/
def remapGood (r : BitVec 256) : Bool :=
  let bs := wBytes 28 r
  decide (fld r 224 32 = crc32 bs)

/-- One record of this device's serial applied: a spare word in use, or a row on its spare row, whose spare words are
free again (R473, 15 R362). -/
def applyRemap (r : BitVec 256) (s : State) : State :=
  let k := fnat r 72 8
  let t := 8 + k
  let m := memType s t
  let u := fnat r 80 8
  let bank := fnat r 88 8
  let row := fnat r 96 32
  let sp := fnat r 144 16
  if fld r 0 64 ≠ s.boot.serial ∨ 1 < k then s
  else if fnat r 64 8 = 1 then
    let w := BitVec.ofNat 64 (Config.hbmAddr bank row (fnat r 128 16) % 2 ^ 52 + u * 2 ^ 52)
    setMemType t { m with spares := m.spares ++ [(w, sp)] } s
  else if fnat r 64 8 = 2 then
    let inRow := fun (p : BitVec 64 × Nat) => decide (wordUnit p.1 = u ∧ rowOf p.1 = (bank, row))
    setMemType t { m with rows := m.rows ++ [(u, bank, row, sp)], spares := m.spares.filter fun p => !inRow p } s
  else s

/-- What the log gives, shown in the counts of stack k. -/
def remapCounts (k : Nat) (s : State) : State :=
  let m := memType s (8 + k)
  setStack k { stackOf s k with words := BitVec.ofNat 16 m.spares.length, rows := BitVec.ofNat 16 m.rows.length }
    (setMemType (8 + k) { m with used := BitVec.ofNat 16 m.spares.length } s)

/-- The remap log is applied up to a record whose crc fails (R472, R473). -/
def applyRemaps (s : State) : State :=
  let rs := s.boot.flash.remapLog.takeWhile remapGood
  remapCounts 1 (remapCounts 0 (rs.foldl (fun s r => applyRemap r s) s))

/-- Stack k at boot: out of service where the fault log records its loss, lost where it does not train; the proxy is in
degraded mode until the part is replaced (15 R372, R373, 06 R159). -/
def bootStack (trained : BitVec 2) (s : State) (k : Nat) : State :=
  if bit s.boot.recordedLoss k then
    let s1 := setStack k { stackOf s k with st := .outOfService, cause := 4 } s
    directoryLost k { s1 with
      xbar := { s1.xbar with stackLost := tabSet false s1.xbar.stackLost k true, quotaHalvings := s1.xbar.quotaHalvings + 1 } }
  else if bit trained k then s
  else stackLose k 1 s

/-- The persisted chain: that of the valid directory with the higher generation (R479). -/
def persistedChain (s : State) : List (List Byte × BitVec 384) :=
  match tabGet none s.boot.flash.plan 0, tabGet none s.boot.flash.plan 1 with
  | none, none => []
  | some a, none => a.images
  | none, some b => b.images
  | some a, some b => if a.generation.toNat < b.generation.toNat then b.images else a.images

/-- HBM_READY (R478 step 8): stacks trained, remaps applied, snoop filter and coarse tracker zeroed; the wait for the
persisted plan begins (R481). -/
def execHbmReady (trained : BitVec 2) (s : State) : Out :=
  if s.mgmt.fw = .running ∧ s.boot.stage = 4 then
    let s1 := [0, 1].foldl (bootStack trained) (applyRemaps s)
    let chain := if s.boot.planHold then [] else persistedChain s
    fin { s1 with
      proxy := { s1.proxy with sf := [], unkSets := [], coarseA := [], coarseB := [] }
      boot := { s1.boot with stage := 5, step := 8, chainLeft := chain
                             waitFrom := if chain = [] then none else some s1.tele.time } }
  else fin s

/-! ## Step 9 (R481) -/

/-- The time state that ends the wait. -/
def timeReady (s : State) : Bool := decide (s.tele.st = .locked ∨ s.tele.st = .grandmaster)

/-- BOOT_TIME_WAIT_EXPIRY (R481): boot_time_wait_ms after step 8 without lock. -/
def execBootTimeWaitExpiry (s : State) : Out :=
  match s.boot.waitFrom with
  | none => fin s
  | some t =>
    if timeReady s ∨ s.boot.stage ≠ 5 then fin s
    else
      let s1 := reach (t.toNat + s.boot.board.timeWait.toNat * msTicks) s
      fin (raiseFree 19 0x12 (source 0 0) { s1 with boot := { s1.boot with waitFrom := none } })

/-- An image of the persisted chain stands loaded in the shadow, its page records in their blocks. -/
def loadPersisted (img : List Byte) (s : State) : State :=
  loadPages 16384 { s with plan := { s.plan with
    shadowState := .validating, loadKind := BitVec.ofNat 16 (leAt img 6 2), loadLength := BitVec.ofNat 64 img.length
    loadOwner := none, loadBytes := img, commitTicket := none, persist := false, loadActivated := false } }

/-- Whether the rest of the chain validates image by image, each on the tables that those before it leave. An image that
differs from its directory entry's digest fails as check 5 does (R480). -/
def chainGood : List (List Byte × BitVec 384) → State → Bool
  | [], _ => true
  | (img, d) :: rest, s =>
    let s1 := loadPersisted img s
    if Config.sha384 img ≠ d then false
    else if (planFault s1 img).isSome then false
    else chainGood rest (activatePlan (arm img 0 false (resultTables s1 img) s1))

/-- The chain fails: BOOT-0x0011, and nothing more of it is committed (R481). -/
def rejectChain (s : State) : State :=
  raiseFree 19 0x11 (source 0 0) { s with boot := { s.boot with chainLeft := [], waitFrom := none, step := 9 } }

/-- PERSISTED_PLAN_COMMIT (R481): after time lock or the wait, the next image of the chain is validated and armed for the
first weave-frame boundary after its commit, which completes at `stamp`. Nothing of a chain that does not validate whole is
committed. -/
def execPersistedPlanCommit (stamp : BitVec 64) (env : Env) (s : State) : Out :=
  match s.boot.chainLeft with
  | [] => fin s
  | (img, d) :: rest =>
    if s.mgmt.fw ≠ .running ∨ s.boot.stage.toNat < 5 ∨ s.plan.shadowState ≠ .empty
        ∨ (timeReady s = false ∧ s.boot.waitFrom.isSome) ∨ s.sealu.ringFault then fin s
    else if s.plan.hasPlan = false ∧ chainGood ((img, d) :: rest) s = false then fin (rejectChain s)
    else if Config.sha384 img ≠ d then fin (rejectChain s)
    else
      let s1 := validate env.append false 0 (loadPersisted img (reach stamp.toNat s))
      if s1.plan.shadowState = .armed then
        fin { s1 with boot := { s1.boot with chainLeft := rest, waitFrom := none, step := 9 } }
      else fin (rejectChain s1)

/-! ## Images (R475, R476, R485) -/

/-- Bytes that a region takes. -/
def regionSize (region : Nat) : Nat :=
  match region with
  | 0 => 8 * 2 ^ 20 | 1 => 2 ^ 20 | _ => 2 ^ 22 + 256

/-- A region that a command may name now: 2 for the boot ROM, 0 and 1 for firmware (R476). -/
def regionOk (s : State) (region : BitVec 8) : Bool :=
  if s.boot.stage = 7 then decide (region = 2) else decide (region.toNat < 2)

/-- Written bytes of a region: the inactive image or board table in flash, or the recovery image in the instruction
SRAM. -/
def writeRegion (region : Nat) (bs : List Byte) (s : State) : State :=
  let f := s.boot.flash
  let f1 := { f with writing := tabSet [] f.writing region bs }
  let f2 := match region with
    | 0 => { f1 with fw := tabSet [] f.fw (1 - activeFw s) bs }
    | 1 => { f1 with bt := tabSet [] f.bt (1 - activeBt s) bs }
    | _ => f1
  { s with boot := { s.boot with flash := f2 } }

/-- IMAGE_WRITE (R475, R476, R485): contiguous from 0; an offset of 0 begins anew. -/
def execImageWrite (r : Req) (region : BitVec 8) (offset : BitVec 32) (data : List Byte) (s : State) : Out :=
  command 0x0F10 false r (wBytes 1 region ++ zeros 3 ++ wBytes 4 offset ++ leBytes 2 data.length ++ zeros 2 ++ data)
    (fun s =>
      let old := tabGet [] s.boot.flash.writing region.toNat
      if regionOk s region = false then (badField 0, s)
      else if data.length = 0 ∨ 4096 < data.length then (badField 8, s)
      else if (offset ≠ 0 ∧ offset.toNat ≠ old.length) ∨ regionSize region.toNat < offset.toNat + data.length then
        (rep 0x0F10, s)
      else (ok, writeRegion region.toNat ((if offset = 0 then [] else old) ++ data) s)) s

/-- The flash header is written anew, naming an image active (R471). -/
def nameActive (region : Nat) (s : State) : State :=
  let f := s.boot.flash
  let f1 := { f with activeFw := BitVec.ofNat 1 (activeFw s), activeBt := BitVec.ofNat 1 (activeBt s), headerOk := true }
  let f2 := if region = 0 then { f1 with activeFw := BitVec.ofNat 1 (1 - activeFw s) }
            else { f1 with activeBt := BitVec.ofNat 1 (1 - activeBt s) }
  { s with boot := { s.boot with flash := f2 } }

/-- The image that IMAGE_SELECT checks is valid (R475, R477). -/
def selectOk (s : State) (region : Nat) : Bool :=
  match region with
  | 0 => imageOk s (fwImage s (1 - activeFw s))
  | 1 => btValid (btImage s (1 - activeBt s))
  | _ => imageOk s (tabGet [] s.boot.flash.writing 2)

/-- A recovery image that passed is started: the boot goes on from step 5 (R476). -/
def recoveryBoot (s : State) : State :=
  if s.boot.stage = 7 ∧ s.boot.step = 5 then
    match s.boot.recIn with
    | some (b, cold) =>
      let s1 := bootFrom5 b false (loadImage (tabGet [] s.boot.flash.writing 2) s)
      if cold then slotsLoad s1 else s1
    | none => s
  else s

/-- IMAGE_SELECT (R475, R476, R485). -/
def execImageSelect (r : Req) (region : BitVec 8) (reserved : BitVec 24) (s : State) : Out :=
  fin (recoveryBoot (nib 0x0F11 false r (wBytes 1 region ++ wBytes 3 reserved)
    (fun s =>
      if regionOk s region = false then (badField 0, s)
      else if selectOk s region.toNat = false then (rep 0x0F11, s)
      else if region = 2 then (ok, { s with boot := { s.boot with step := 5 } })
      else (ok, nameActive region.toNat s)) s))

/-! ## Temperature (21 R499) -/

/-- pkg.thermal.warn in force: outside 60 to 120 the nearest limit. -/
def warnLevel (s : State) : Int := max 60 (min 120 (s.boot.warn.toNat : Int))

/-- A reading of at least 125 °C: THERMTRIP_L falls and PMU-0x0041 is raised, once until a cold reset. -/
def thermalTrip (hot : Int) (s : State) : State :=
  if 125 ≤ hot ∧ s.boot.thermTrip = false then
    raiseFree 16 0x41 (source 0 0) (emit (.pin 1 0 false) { s with boot := { s.boot with thermTrip := true } })
  else s

/-- A reading that reaches warn raises PMU-0x0040, whose condition goes once every reading is 5 °C below (R499). -/
def thermalWarn (hot : Int) (s : State) : State :=
  let w := decide (warnLevel s ≤ hot)
  let s1 := { s with boot := { s.boot with warnActive := w } }
  if w && !s.boot.warnActive then raiseFreeCond 16 0x40 (source 0 0) s1
  else if hot ≤ warnLevel s - 5 then condGone 16 0x40 (source 0 0) s1
  else s1

/-- Stack k's reading: the catastrophic trip at 120 °C, twice the refresh rate from 85 °C (R499, 15 R372). -/
def thermalStack (k : Nat) (t : Int) (s : State) : State :=
  let on := decide (85 ≤ t)
  let m : BitVec 2 := 1#2 <<< k
  let s1 := { s with boot := { s.boot with
    refresh2x := if on then s.boot.refresh2x ||| m else s.boot.refresh2x &&& ~~~ m } }
  if 120 ≤ t then stackLose k 3 s1 else s1

/-- THERMAL_SAMPLE (R499): the five readings, signed. -/
def execThermalSample (core loom stackA stackB selvedge : BitVec 8) (s : State) : Out :=
  if s.boot.held ∨ s.pmu.st = .standby then fin s
  else
    let hot := max core.toInt loom.toInt
    let s1 := { s with boot := { s.boot with thermal := selvedge ++ stackB ++ stackA ++ loom ++ core } }
    fin (thermalStack 1 stackB.toInt (thermalStack 0 stackA.toInt (thermalTrip hot (thermalWarn hot s1))))

/-! ## Exit (17 R408, R409, R416) -/

/-- RUN is reached: the exit's record is completed and a POWER_STATE_SET that asked for it answered. -/
def runReached (s : State) : State :=
  let s1 := { s with pmu := { s.pmu with
    st := .run, exiting := false, exitFailed := false, lastDone := stamp s, before := [], ticket := none } }
  match s.pmu.ticket with
  | none => s1
  | some t => finishTicket t (ok (wBytes 8 s1.pmu.lastAbort)) s1

/-- The boot that an exit from STANDBY follows, pd.aon being up: only pd.aon's content survives (R409). -/
def standbyBoot (b : BootIn) (s : State) : State :=
  let s1 := runReached (warmClear s)
  bootFrom3 { b with recovery := s.boot.recovery, planHold := s.boot.planHold } false s1

/-- EXIT_COMPLETE (R408, R409, R416): every domain that comes back is back, or the boot sequence runs. -/
def execExitComplete (b : BootIn) (s : State) : Out :=
  if s.pmu.exiting = false then fin s
  else
    match s.pmu.st with
    | .doze => if exitFront s = [] ∧ railsUp s then fin (runReached s) else fin s
    | .standby => fin (standbyBoot b s)
    | _ => fin s

end Sys2Proof.Machine
end

