-- ==== Sys2Proof/Machine/Fm.lean ====
section
/-! DEFINITION. The CXL Fabric Manager API over MCTP type 0x07 (13 R316, 10 R227, R241). The opcodes and payloads are
CXL 3.2's; a command stands here with its fields, a response with the words that carry its content (log entry 60). -/

namespace Sys2Proof.Machine

open Sys2Proof

/-- An FM API command: carried out for an owner on a transport that is up while firmware is RUNNING; dropped and counted
while it is not (R504), unanswered from an untrusted source (R309). A sleeping device wakes first (17 R415). -/
def fm (q : FmSrc) (f : State → State) (s : State) : Out :=
  if deaf q.t s ∨ s.boot.stage = 7 ∨ transportUp s q.t = false then fin s
  else if s.mgmt.fw ≠ .running then fin (mctpDrop s)
  else if trusted s q.t = false then fin s
  else
    match nibPower 0x0700 s with
    | .stop s1 => fin s1
    | .go s1 => fin (f s1)

/-- The response to an FM API command. -/
def fmAnswer (q : FmSrc) (c : FmCmd) (r : FmRet) (ws : List (BitVec 64)) (s : State) : State := emit (.fmReply q c r ws) s

/-- The logical port exists and has a role. -/
def fmPort (s : State) (u : Nat) : Bool := halfExists s (u / 2) (u % 2) && decide ((port s u).role ≠ 0)

/-- Logical ports that exist. -/
def fmPorts (s : State) : List Nat := (List.range 96).filter (fmPort s)

/-- FM_IDENTIFY_SWITCH_DEVICE (R316): ports, virtual switches (one for each USP), vPPBs bound. -/
def execFmIdentifySwitchDevice (q : FmSrc) (s : State) : Out :=
  fm q (fun s =>
    let usps := (fmPorts s).filter fun u => decide ((port s u).role = 1)
    fmAnswer q .identify .success
      [BitVec.ofNat 64 (fmPorts s).length, BitVec.ofNat 64 usps.length,
       BitVec.ofNat 64 (s.mgmt.vppbs.filter fun e => e.2.isSome).length] s) s

/-- FM_GET_PHYSICAL_PORT_STATE (R316): each port asked for, as port.status gives it. -/
def execFmGetPhysicalPortState (q : FmSrc) (us : List (BitVec 7)) (s : State) : Out :=
  fm q (fun s =>
    if us.all fun u => decide (u.toNat < 96) then
      fmAnswer q .portState .success (us.map fun u => portStatusWord (port s u.toNat)) s
    else fmAnswer q .portState .invalid [] s) s

/-- FM_PHYSICAL_PORT_CONTROL (R316): the PERST relay of a DSP with a slot, or a retrain of the port. -/
def execFmPhysicalPortControl (q : FmSrc) (u : BitVec 7) (op : PortControl) (s : State) : Out :=
  fm q (fun s =>
    let n := prSlot (portRec s (u.toNat / 2)) (u.toNat % 2)
    let perst := fun (hold : Bool) =>
      if (port s u.toNat).role = 2 ∧ n < 24 then fmAnswer q .portControl .success [] (holdPerst n hold s)
      else fmAnswer q .portControl .invalid [] s
    if fmPort s u.toNat = false then fmAnswer q .portControl .invalid [] s
    else
      match op with
      | .assertPerst => perst true
      | .deassertPerst => perst false
      | .resetPpb => fmAnswer q .portControl .success [] (retrainPort u.toNat none s)) s

/-- A configuration or memory access carried out on a port or an LD of its device: a write's data goes out with it, a
read's data is what the register or the device holds, which the spec does not give: a free value. -/
def fmAccess (q : FmSrc) (c : FmCmd) (u : Nat) (ld : Option (BitVec 4)) (write : Bool) (words : List (BitVec 64))
    (bytes : List Byte) (s : State) : State :=
  let s1 := emit (.fm (BitVec.ofNat 7 u) ld c words bytes) s
  if write then fmAnswer q c .success [] s1
  else fmAnswer q c .success [freeVal 64 s1] (tookFree s1)

/-- FM_SEND_PPB_CONFIG_REQUEST (R316). -/
def execFmSendPpbConfigRequest (q : FmSrc) (u : BitVec 7) (write : Bool) (register : BitVec 12) (data : BitVec 32)
    (s : State) : Out :=
  fm q (fun s =>
    if fmPort s u.toNat then
      fmAccess q .ppbConfig u.toNat none write [register.setWidth 64, b1 write |>.setWidth 64, data.setWidth 64] [] s
    else fmAnswer q .ppbConfig .invalid [] s) s

/-- A USP's virtual switch: for each of 16 vPPBs 0 where it is unbound, else 1, the port and the LD. -/
def vcsWords (s : State) (usp : Nat) : List (BitVec 64) :=
  (List.range 16).map fun v =>
    match vppbOf s usp v with
    | none => 0
    | some b => BitVec.ofNat 64 (1 + b.port * 2 ^ 8 + (match b.ld with | some k => k.toNat + 16 | none => 0) * 2 ^ 16)

/-- A logical port is a USP. -/
def isUsp (s : State) (u : Nat) : Bool := fmPort s u && decide ((port s u).role = 1)

/-- FM_GET_VIRTUAL_SWITCH_INFO (R316). -/
def execFmGetVirtualSwitchInfo (q : FmSrc) (usp : BitVec 7) (s : State) : Out :=
  fm q (fun s =>
    if isUsp s usp.toNat then fmAnswer q .switchInfo .success (vcsWords s usp.toNat) s
    else fmAnswer q .switchInfo .invalid [] s) s

/-- Cache-capable devices bound to vPPBs (10 R227). -/
def cacheBound (s : State) : Nat :=
  (s.mgmt.vppbs.filter fun e => match e.2 with | some b => b.cache | none => false).length

/-- FM_BIND_VPPB (10 R241, R227): a free vPPB of a USP is bound to a DSP, or to an LD of an MLD; a 17th cache-capable
device is refused and PORT-0x0030 raised. -/
def execFmBindVppb (q : FmSrc) (usp : BitVec 7) (vppb : BitVec 4) (u : BitVec 7) (ld : Option (BitVec 4))
    (mark : BindMark) (s : State) : Out :=
  fm q (fun s =>
    let k := usp.toNat * 16 + vppb.toNat
    if !isUsp s usp.toNat || !fmPort s u.toNat || decide ((port s u.toNat).role ≠ 2)
        || (tabGet none s.mgmt.vppbs k).isSome then
      fmAnswer q .bind .invalid [] s
    else if mark.cache ∧ 16 ≤ cacheBound s then
      fmAnswer q .bind .resources [] (raiseFree 0 0x30 (source 1 u.toNat) s)
    else
      let b : VppbBind := { port := u.toNat, ld := ld, cache := mark.cache, owner := mark.owner }
      fmAnswer q .bind .success []
        { s with mgmt := { s.mgmt with vppbs := tabSet none s.mgmt.vppbs k (some b) } }) s

/-- FM_UNBIND_VPPB (10 R241): the messages outstanding through the vPPB are resolved; CXL.mem bindings stay. -/
def execFmUnbindVppb (q : FmSrc) (usp : BitVec 7) (vppb : BitVec 4) (s : State) : Out :=
  fm q (fun s =>
    let k := usp.toNat * 16 + vppb.toNat
    match tabGet none s.mgmt.vppbs k with
    | none => fmAnswer q .unbind .invalid [] s
    | some b =>
      let s1 := vppbResolve k b s
      fmAnswer q .unbind .success []
        { s1 with mgmt := { s1.mgmt with vppbs := tabSet none s1.mgmt.vppbs k none } }) s

/-- FM_GENERATE_AER_EVENT (R316, 10 Table 10-1): the error stands in the AER registers of the vPPB and is reported there. -/
def execFmGenerateAerEvent (q : FmSrc) (usp : BitVec 7) (vppb : BitVec 4) (error : BitVec 32) (header : BitVec 128)
    (s : State) : Out :=
  fm q (fun s =>
    if isUsp s usp.toNat then
      fmAnswer q .aer .success [] (emit (.fm usp none .aer
        [vppb.setWidth 64, error.setWidth 64, header.setWidth 64, (header >>> 64).setWidth 64] [])
        { s with mgmt := { s.mgmt with aer := tabSet (0, 0) s.mgmt.aer (usp.toNat * 16 + vppb.toNat) (error, header) } })
    else fmAnswer q .aer .invalid [] s) s

/-- A DSP whose device is multi-logical and UP. -/
def mldPort (s : State) (u : Nat) : Bool :=
  fmPort s u && decide ((port s u).role = 2) && (port s u).mld && decide ((port s u).st = .up)

/-- The words of a tunnelled command: Get LD Info 0, Get LD Allocations 1, Set LD Allocations 2 with its sizes, a DCD
management command 3 with its number; none for another command (R316). -/
def tunnelWords (c : Tunnelled) : Option (List (BitVec 64)) :=
  match c with
  | .ldInfo => some [0]
  | .ldAllocations => some [1]
  | .setLdAllocations sizes => some (2 :: sizes)
  | .dcd k => some [3, k.setWidth 64]
  | .other => none

/-- FM_TUNNEL_MANAGEMENT_COMMAND (R316): carried to an MLD port; what its device answers comes back through it. A Set LD
Allocations is answered when the device has carried it out, at FM_SET_LD_ALLOCATIONS. -/
def execFmTunnelManagementCommand (q : FmSrc) (u : BitVec 7) (cmd : Tunnelled) (s : State) : Out :=
  fm q (fun s =>
    if mldPort s u.toNat = false then fmAnswer q .tunnel .invalid [] s
    else
      match tunnelWords cmd with
      | none => fmAnswer q .tunnel .unsupported [] s
      | some ws =>
        let s1 := emit (.fm u none .tunnel ws []) s
        match cmd with
        | .setLdAllocations _ =>
          fmAnswer q .tunnel .pending []
            { s1 with mgmt := { s1.mgmt with tunnels := s1.mgmt.tunnels.filter (· ≠ u) ++ [u] } }
        | _ => fmAnswer q .tunnel .success [freeVal 64 s1] (tookFree s1)) s

/-- FM_SEND_LD_CONFIG_REQUEST (R316). -/
def execFmSendLdConfigRequest (q : FmSrc) (u : BitVec 7) (ld : BitVec 4) (write : Bool) (register : BitVec 12)
    (data : BitVec 32) (s : State) : Out :=
  fm q (fun s =>
    if mldPort s u.toNat then
      fmAccess q .ldConfig u.toNat (some ld) write [register.setWidth 64, b1 write |>.setWidth 64, data.setWidth 64] [] s
    else fmAnswer q .ldConfig .invalid [] s) s

/-- FM_SEND_LD_MEMORY_REQUEST (R316). -/
def execFmSendLdMemoryRequest (q : FmSrc) (u : BitVec 7) (ld : BitVec 4) (write : Bool) (offset : BitVec 64)
    (data : List Byte) (s : State) : Out :=
  fm q (fun s =>
    if mldPort s u.toNat then
      fmAccess q .ldMemory u.toNat (some ld) write [offset, b1 write |>.setWidth 64] data s
    else fmAnswer q .ldMemory .invalid [] s) s

/-- port.ld_map of an LD count and sizes: the count, and CRC-32 over the sizes in LD order (10, Registers). -/
def ldMapOf (sizes : List (BitVec 64)) : BitVec 64 :=
  BitVec.ofNat 64 (sizes.length % 32 + (crc32 (sizes.map fun z => wBytes 8 z).flatten).toNat * 2 ^ 32)

/-- FM_SET_LD_ALLOCATIONS (R316): a tunnelled Set LD Allocations ends at its device; a successful one records the LD map
as the port's partner identity. -/
def execFmSetLdAllocations (u : BitVec 7) (good : Bool) (sizes : List (BitVec 64)) (s : State) : Out :=
  if s.mgmt.tunnels.contains u then
    let s1 := { s with mgmt := { s.mgmt with tunnels := s.mgmt.tunnels.filter (· ≠ u) } }
    let p := port s1 u.toNat
    if good then
      fin (setPort u.toNat { p with ldMap := ldMapOf sizes, mld := decide (sizes.length % 32 ≠ 0) } s1)
    else fin s1
  else fin s

/-- FM_UNSUPPORTED (R316): any other command. -/
def execFmUnsupported (q : FmSrc) (command : BitVec 16) (s : State) : Out :=
  fm q (fun s => fmAnswer q .unsupported .unsupported [command.setWidth 64] s) s

end Sys2Proof.Machine
end

