-- ==== Sys2Proof/Machine/Mem.lean ====
section
/-! DEFINITION. Commands of memory integrity: the patrol scrub, HBM write-backs and remaps, the management SRAMs and
the loss of a stack (Memory Integrity: ECC, Scrub and Remap). -/

namespace Sys2Proof.Machine

open Sys2Proof

/-! ## Patrol scrub (R365) -/

/-- Power domain of a word: the one its unit names, or its stack's (R505, 17 Table 17-1). -/
def wordDomain (t : Nat) (w : BitVec 64) : Nat := if isHbm t then 215 + (t - 8) else fnat w 52 8

/-- The domain keeps its arrays from being read: RET or OFF (R365). -/
def domainDark (s : State) (d : Nat) : Bool := decide ((domain s d).st = .ret ∨ (domain s d).st = .off)

/-- The n-th correction unit of type t begins another array or pseudo-channel than the one before it. -/
def arrayFirst (t n : Nat) : Bool :=
  decide (n = 0) || decide (wordUnit (Config.scrubWord t n) ≠ wordUnit (Config.scrubWord t (n - 1)))

/-- What the check of a word finds: a word that waits for its owner is uncorrectable and an injected one is corrected,
whatever else is wrong with it (R359, R388). -/
def foundBy (m : MemType) (w : BitVec 64) (c : EccKind) : Ecc :=
  if m.bad.contains w then .ue w
  else
    match c with
    | .ok => if m.injected.contains w then .corrected w else .ok
    | .corrected => .corrected w
    | .ue => .ue w

/-- The scrubber of type t moves on one unit; after the last one a pass is complete. -/
def scrubNext (t : Nat) (s : State) : State :=
  let m := memType s t
  let n := m.scrubPos + 1
  if Config.scrubUnits t ≤ n then
    setMemType t { m with scrubPos := 0, progress := 0, passes := m.passes + 1 } s
  else setMemType t { m with scrubPos := n, progress := BitVec.ofNat 16 (n * 65536 / Config.scrubUnits t) } s

/-- PATROL_SCRUB_STEP (R365): the scrubber of type t reads its next correction unit. An array whose domain is off or in
retention is skipped and counted; a stack that is not UP is not accessed. -/
def execPatrolScrubStep (t : BitVec 4) (check : EccKind) (s : State) : Out :=
  let n := t.toNat
  let m := memType s n
  let w := Config.scrubWord n m.scrubPos
  if 9 < n ∨ m.scrubOn = false ∨ (isHbm n = true ∧ (stackOf s (n - 8)).st ≠ .up) then fin s
  else if domainDark s (wordDomain n w) then
    fin (scrubNext n (if arrayFirst n m.scrubPos then setMemType n { m with skipped := satAdd m.skipped 1 } s else s))
  else fin (scrubNext n (memRead n (foundBy m w check) s))

/-! ## HBM write-backs and remaps (R357, R362, R364) -/

/-- HBM_WRITEBACK (R357): the oldest corrected word of the stack is written back. -/
def execHbmWriteback (stack : BitVec 1) (s : State) : Out :=
  let t := 8 + stack.toNat
  let m := memType s t
  match m.writebacks with
  | [] => fin s
  | w :: l => fin (setMemType t { m with writebacks := l, injected := gone w m.injected } s)

/-- ROW_REMAPPED (R362): the oldest copy of the stack ends; the row's spare words are freed and HBM-0x0010 is raised. -/
def execRowRemapped (stack : BitVec 1) (s : State) : Out :=
  let k := stack.toNat
  let m := memType s (8 + k)
  match m.rowCopies with
  | [] => fin s
  | r :: l =>
    let inRow := fun (p : BitVec 64 × Nat) => decide (wordUnit p.1 = r.1 ∧ rowOf p.1 = (r.2.1, r.2.2.1))
    let freed := (m.spares.filter inRow).length
    let s1 := setMemType (8 + k) { m with
      rowCopies := l, rows := m.rows ++ [r], spares := m.spares.filter fun p => !inRow p
      used := m.used - BitVec.ofNat 16 freed } s
    let v := stackOf s1 k
    fin (raiseFree 11 0x10 (source 6 k) (setStack k { v with
      rows := satAdd v.rows 1, words := v.words - BitVec.ofNat 16 freed } s1))

/-- The live remaps of both stacks that the flash has already, as records (20 R472). -/
def liveRemaps (s : State) : List (BitVec 256) :=
  ([0, 1].flatMap fun k =>
    let m := memType s (8 + k)
    m.spares.map (fun p => wordRecord s k p.1 p.2) ++ (m.rows ++ m.rowCopies).map (rowRecord s k)).filter
      fun x => !s.mem.remapDue.contains x

/-- Records a half of the remap log holds (20 R472). -/
def remapHalf : Nat := 16384

/-- REMAP_LOG_APPEND (R364, 20 R472): the oldest remap not yet in flash is appended; a full half gives way to the other
one, which begins with a HEADER of the next generation and every live remap. -/
def execRemapLogAppend (s : State) : Out :=
  match s.mem.remapDue with
  | [] => fin s
  | x :: l =>
    let f := s.boot.flash
    let old := if f.remapLog = [] then [remapHeader s f.remapGen] else f.remapLog
    let f' := if old.length < remapHalf then { f with remapLog := old ++ [x] }
      else { f with remapGen := f.remapGen + 1
                    remapLog := remapHeader s (f.remapGen + 1) :: liveRemaps s ++ [x] }
    fin { s with mem := { s.mem with remapDue := l }, boot := { s.boot with flash := f' } }

/-! ## The management SRAMs (R368, R369) -/

/-- A word of a management SRAM, in the management domain (R505). -/
def mgmtWord (array : BitVec 4) (addr : BitVec 52) : BitVec 64 :=
  BitVec.ofNat 64 (array.toNat * 2 ^ 60 + 218 * 2 ^ 52 + addr.toNat)

/-- IFETCH_UE (R368): the page is reloaded from flash the first time, and the core halts the second time. -/
def execIfetchUe (page : BitVec 10) (array : BitVec 4) (addr : BitVec 52) (s : State) : Out :=
  if s.mgmt.fw ≠ .running then fin s
  else
    let p := page.toNat
    let w := mgmtWord array addr
    let n := tabGet 0 s.mem.ifetch p
    let s1 := memUe 6 w { s with mem := { s.mem with ifetch := tabSet 0 s.mem.ifetch p (n + 1) } }
    if n = 0 then
      let m := memType s1 6
      fin (memFault 0x30 6 w (setMemType 6 { m with bad := gone w m.bad, injected := gone w m.injected } s1))
    else fin (fwHalt (memFault 0x31 6 w s1))

/-- DSRAM_UE (R369): MEM-0x0032, whose level-3 reaction restarts firmware. -/
def execDsramUe (array : BitVec 4) (addr : BitVec 52) (s : State) : Out :=
  let w := mgmtWord array addr
  fin (memFault 0x32 7 w (memUe 7 w s))

/-! ## Channels and stacks (R372) -/

/-- CHANNEL_RETRAIN (R372): a retrain of a channel restores it, or the stack is declared lost. -/
def execChannelRetrain (stack : BitVec 1) (_channel : BitVec 6) (restored : Bool) (s : State) : Out :=
  let k := stack.toNat
  let v := stackOf s k
  if v.st ≠ .up then fin s
  else
    let s1 := setStack k { v with retrains := satAdd v.retrains 1 } s
    if restored then fin (raiseFree 11 2 (source 6 k) s1) else fin (stackLose k 1 s1)

/-- STACK_LOST (R372): a catastrophic temperature trip, or uncorrectable errors on 4 pseudo-channels within 100 µs. -/
def execStackLost (stack : BitVec 1) (thermal : Bool) (s : State) : Out :=
  let k := stack.toNat
  if thermal then fin (stackLose k 3 s)
  else if 4 ≤ ueSpread (stackOf s k) (now s) then fin (stackLose k 2 s)
  else fin s

end Sys2Proof.Machine
end

