-- ==== Sys2Proof/Machine/Proxy.lean ====
section
/-! DEFINITION. Meanings of the coherence proxy's rows (Coherence Proxy and Snoop Filter). -/

namespace Sys2Proof.Machine

open Sys2Proof

/-- Slice k and the other slice of its pair are ON (17 R398, R400). -/
def sliceOn (s : State) (k : Nat) : Bool :=
  [191 + k / 2 * 2, 192 + k / 2 * 2].all fun d => decide ((domain s d).st = .on ∧ (domain s d).step = 0)

/-- The oldest whole request of slice k that has crossed to its xp; it waits there while the slice is not ON. -/
def sliceHead (s : State) (k : Nat) : Option EMsg := if sliceOn s k = false then none else stagedFirst s (56 + k / 2) 1 fun m => decide (saSlice m.sa = k)

/-- Slice k takes a staged message: one lookup (R155). -/
def sliceTake (k : Nat) (e : EMsg) (s : State) : State := sliceCnt k 0 1 (unstage (56 + k / 2) e s)

/-- A BIConflict is answered with BIConflictAck in the service class of its binding (R151). -/
def conflictAck (k : Nat) (m : Msg) (s : State) : State :=
  let c := { completionMsg m .biConflictAck .noOp 0 false with
    sclass := BitVec.ofNat 3 (ctxClass (ctx s m.binding.toNat)) }
  sliceCnt k 6 1 (pxComplete m c false s)

/-- PROXY_REQUEST (R148 to R152): the slice takes the oldest request at its xp; a BIConflict is answered, a holder's write
applied on arrival, and any other message takes a tracker, waits on its line or is parked. -/
def execProxyRequest (k : BitVec 3) (s : State) : Out := live s fun s =>
  match sliceHead s k.toNat with
  | none => fin s
  | some e =>
    let m := delivered e
    let s1 := sliceTake k.toNat e s
    fin (pumpSlice k.toNat (if m.op = .biConflict then conflictAck k.toNat m s1 else takeIn m s1))

/-- HOLDER_WRITEBACK (R150): a write of the line's recorded holder at the head takes a writeback slot. -/
def execHolderWriteback (k : BitVec 3) (s : State) : Out := live s fun s =>
  match sliceHead s k.toNat with
  | none => fin s
  | some e =>
    let m := delivered e
    if holderWrites s m then fin (pumpSlice k.toNat (takeIn m (sliceTake k.toNat e s))) else fin s

/-- BICONFLICT (R151): a BIConflict at the head is answered without a tracker. -/
def execBiconflict (k : BitVec 3) (s : State) : Out := live s fun s =>
  match sliceHead s k.toNat with
  | none => fin s
  | some e =>
    let m := delivered e
    if m.op = .biConflict then fin (conflictAck k.toNat m (sliceTake k.toNat e s)) else fin s

/-- PARKED_TAKE_TRACKER (R149): the first parked message whose tracker is free takes it; its cells leave the buffer. -/
def execParkedTakeTracker (k : BitVec 3) (s : State) : Out := live s fun s =>
  let n := k.toNat
  match (slice s n).park.find? fun p => kindFree s n (holderWrites s p.msg) with
  | none => fin s
  | some p => fin (pumpSlice n (admitMsg p.msg (unpark n p s)))

/-- An uncorrectable set read leaves the line of a tracker without an entry of its own (R157). -/
def fillUe (sa : BitVec 48) (s : State) : State :=
  let s1 := setUe sa s
  match dirGet s1 sa with
  | some d => if d.dirty then s1 else setEntry sa 0 s1
  | none => s1

/-- DIRECTORY_FILL (R146, R157): the set read of a directory miss returns; the line's entry is installed and its request
acts. -/
def execDirectoryFill (sa : BitVec 48) (ecc : Ecc) (s : State) : Out := live s fun s =>
  match trackerOf s sa with
  | none => fin s
  | some t =>
    if t.stage ≠ .fill then fin s
    else
      let s1 := memRead (8 + nb (sfStack s (homeB sa))) ecc s
      let s2 := if eccBad ecc then fillUe sa s1 else s1
      fin (pumpSlice (saSlice sa) (act { t with known := true } (mapTracker sa (fun t => { t with known := true }) s2)))

/-- BIRSP_RECEIVE (R152, R154): a BIRsp counts in its round; one that matches no round is dropped. -/
def execBirspReceive (k : BitVec 3) (s : State) : Out := live s fun s =>
  let n := k.toNat
  let x := 56 + n / 2
  match stagedFirst s x 4 fun m => decide (m.req = .slice k m.sa) with
  | none => fin s
  | some e =>
    let m := delivered e
    let u := m.feid.toNat
    let s1 := unstage x e s
    if answerNo m.op = 0 then fin (raiseFree 7 0x20 (source 7 n) s1)
    else
      match countAnswer m.sa u (answerNo m.op) s1 with
      | some s2 => fin (pumpSlice n s2)
      | none => fin (raiseFree 7 0x21 (source 1 u) s1)

/-- The next response of a backing device for slice k, and the state without it. -/
def nextBacking (k : Nat) (s : State) : Option (Msg × Bool × State) :=
  match s.proxy.back.find? fun p => decide (p.1.req = .slice (BitVec.ofNat 3 k) p.1.sa) with
  | some p => some (p.1, p.2, { s with proxy := { s.proxy with back := s.proxy.back.erase p } })
  | none =>
    match stagedFirst s (56 + k / 2) 2 fun m => decide (m.req = .slice (BitVec.ofNat 3 k) m.sa) with
    | some e => some (delivered e, false, unstage (56 + k / 2) e s)
    | none => none

/-- A tracker's backing access has its response: the completion leaves, the entry takes its next state, and the tracker
ends (R152). A write that failed grants nothing (log entry 33). -/
def trackerDone (t : Tracker) (c : Msg) (err : Bool) (s : State) : State :=
  let m := t.req
  let sa := m.sa
  match pxEvent s m with
  | none => pxFail m s
  | some ev0 =>
    let ev := if err && writes ev0 then .wrI else ev0
    let h := hostOf s m
    let e := lineEntry s sa
    let n := nextEntry s sa e ev h t.snooped t.round t.answer.toNat
    let s1 := setEntry sa n s
    let s2 := match h with
      | some u => if grants ev then coarseGrant sa u s1 else s1
      | none => s1
    endTracker sa (pxComplete m (pxReply m ev c) (err || c.poison) s2)

/-- PROXY_BACKING_RESPONSE (R150, R152): a backing device's response ends its tracker or writeback slot. -/
def execProxyBackingResponse (k : BitVec 3) (s : State) : Out := live s fun s =>
  let n := k.toNat
  match nextBacking n s with
  | none => fin s
  | some (c, err, s1) =>
    match c.tag.toNat with
    | 0 =>
      match trackerOf s1 c.sa with
      | none => fin s1
      | some t => if t.stage = .backing then fin (pumpSlice n (trackerDone t c err s1)) else fin s1
    | 1 =>
      let v := slice s1 n
      match v.wbs.find? fun m => decide (lineNo m.sa = lineNo c.sa) with
      | none => fin s1
      | some m =>
        let ev := if err then .wrI else (pxEvent s1 m).getD .wrI
        fin (pumpSlice n (dirSettle m.sa
          (pxComplete m (pxReply m ev { c with data := 0, poison := false }) err (setSlice n { v with wbs := v.wbs.erase m } s1))))
    | _ => fin s1

/-- Every slice works its waiting messages off. -/
def pumpAll (s : State) : State := (List.range 8).foldl (fun s k => pumpSlice k s) s

/-- When the BISnp of a line to host u was sent, if its answer is outstanding. -/
def snoopSince (s : State) (sa : BitVec 48) (u : Nat) : Option (BitVec 64) :=
  let v := slice s (saSlice sa)
  let ws := (v.trackers.filter fun t => decide (lineNo t.req.sa = lineNo sa)).map (·.waiting)
    ++ (v.evicts.filter fun t => decide (lineNo t.sa = lineNo sa)).map (·.waiting)
  (ws.flatten.find? fun p => p.1 == u).map (·.2)

/-- BI_TIMEOUT (R154): a BISnp unanswered for bi_timeout while its port is UP; the host departs. -/
def execBiTimeout (sa : BitVec 48) (u : BitVec 7) (s : State) : Out := live s fun s =>
  match snoopSince s sa u.toNat with
  | none => fin s
  | some t =>
    if (port s u.toNat).st = .up then
      let s1 := reach (t.toNat + biTicks s) s
      fin (pumpAll (depart u.toNat (raiseFree 7 0x10 (source 1 u.toNat) s1)))
    else fin s

/-- SWEEP_DONE (R154): the running departure sweep completes. -/
def execSweepDone (s : State) : Out := live s fun s =>
  match s.proxy.sweeps with
  | [] => fin s
  | u :: rest =>
    let s1 := sweep u { s with proxy := { s.proxy with sweeps := rest } }
    fin (raiseFree 7 0x12 (source 1 u) s1)

end Sys2Proof.Machine
end

