-- ==== Sys2Proof/Machine/Traf.lean ====
section
/-! DEFINITION. Meanings of the traffic controller's rows (Traffic Control). -/

namespace Sys2Proof.Machine

open Sys2Proof

/-! ## Buckets and the shaper -/

/-- BUCKET_REFILL (R200, R211): the next weave-frame boundary refills every binding's buckets; bucket state found
uncorrectable is set full. -/
def execBucketRefill (ue : Option (BitVec 13 × BitVec 64)) (s : State) : Out :=
  let s1 := trafSync (reach (nextFrame (now s)) s)
  match ue with
  | none => fin s1
  | some p => fin (meterUe p.1.toNat p.2 s1)

/-- Earliest boundary of an accepted set. -/
def firstSet (s : State) : Option Nat :=
  (s.traffic.sets.filterMap fun p => p.2.map fun q => q.2.toNat).min?

/-- TRAF_SET_APPLY (R202): the accepted sets of the earliest boundary take effect there. -/
def execTrafSetApply (s : State) : Out :=
  match firstSet s with
  | none => fin s
  | some t => fin (trafSync (reach t s))

/-- Refills after which level v covers l at rate sr. -/
def framesFor (v l sr : Nat) : Nat := if l ≤ v then 0 else (l - v + sr - 1) / sr

/-- SHAPER_PASS (R195): the head of a binding's shaper list passes once its bucket covers its length; with shape_en = 0
it passes without a debit. -/
def execShaperPass (binding : BitVec 13) (s : State) : Out :=
  let b := binding.toNat
  let s0 := trafSync s
  match (meter s0 b).list with
  | [] => fin s0
  | w :: rest =>
    let r := traf s0 b
    let l := debit s0 w.msg * 256
    let n := framesFor (bucketS s0 b) l (tfSr r)
    let s1 := if tfShape r ∧ 0 < n ∧ tfSr r ≠ 0 then trafSync (reach ((now s0 / frameTicks + n) * frameTicks) s0) else s0
    let m := meter s1 b
    if tfShape (traf s1 b) = false then
      fin (enqueue w.outXp.toNat w.msg (setMeter b { m with list := rest } s1))
    else if l ≤ bucketS s1 b then
      fin (enqueue w.outXp.toNat w.msg
        (setMeter b { m with list := rest, ts := m.ts.map fun v => v - BitVec.ofNat 32 l } s1))
    else fin s1

/-! ## Sampling (R207) -/

/-- Sampler of output x and service class c. -/
def sampler (s : State) (x c : Nat) : Sampler := tabGet Sampler.init s.traffic.samplers (x * 8 + c)
/-- The state with a sampler replaced. -/
def setSampler (x c : Nat) (v : Sampler) (s : State) : State :=
  { s with traffic := { s.traffic with samplers := tabSet Sampler.init s.traffic.samplers (x * 8 + c) v } }

/-- Messages of service class c in output x's egress queues. -/
def egressOf (s : State) (x c : Nat) : List EMsg :=
  ((output s x).staging.map fun e => e.2.filter fun m => decide (m.msg.sclass.toNat = c)).flatten

/-- VOQs of output x and service class c. -/
def voqsOf (s : State) (x c : Nat) : List Nat := (voqsTo s x).filter fun k => voqSc k == c

/-- Cells of class c on their way from the VOQs to output x: sent and still charged (05 R117). -/
def sentOf (s : State) (x c : Nat) : Nat :=
  ((pairsTo s x).map fun k => ((pair s k).window.filter fun u => decide (u.msg.sclass.toNat = c)).length).sum

/-- Depth of output x and class c: cells charged to it in the VOQs of every input, those sent and awaiting
acknowledgement among them (05 R117), and in the egress queues. -/
def depthOf (s : State) (x c : Nat) : Nat :=
  ((voqsOf s x c).map fun k => segCells (voq s k)).sum + sentOf s x c + ((egressOf s x c).map fun m => m.got).sum

/-- Stamp of a VOQ's head cell: of its buffer segment, or of its reservoir segment where the buffer's is empty. -/
def headStamp (v : Voq) : Option (BitVec 32) :=
  match v.buf with
  | q :: _ => some q.stamp
  | [] => v.res.head?.map (·.stamp)

/-- Delay of output x and class c: the largest age among the heads of those queues. -/
def delayOf (s : State) (x c : Nat) : Nat :=
  let age := fun (st : BitVec 32) => (s.tele.time.setWidth 32 - st).toNat
  let heads := (voqsOf s x c).filterMap fun k => (headStamp (voq s k)).map age
  let out := (List.range 8).filterMap fun mc =>
    ((egressOf s x c).find? fun m => decide (m.msg.mclass.toNat = mc)).map fun m => age m.stamp
  (heads ++ out).foldl max 0

/-- Ticks between samples of output x. -/
def samplePeriod (s : State) (x : Nat) : Nat := 2 ^ txSampleK (traf s (8192 + x)) * frameTicks

/-- One sample of output x and class c. -/
def sampleClass (x : Nat) (s : State) (c : Nat) : State :=
  let v := sampler s x c
  let d := depthOf s x c
  let y := delayOf s x c
  setSampler x c { v with
    dLast := BitVec.ofNat 20 d, dMax := BitVec.ofNat 20 (max v.dMax.toNat d), dSum := v.dSum + d
    yMax := BitVec.ofNat 32 (max v.yMax.toNat y), ySum := v.ySum + y } s

/-- The window's last sample, maxima and means are latched and a new window begins. -/
def latchClass (x : Nat) (s : State) (c : Nat) : State :=
  let v := sampler s x c
  setSampler x c { v with
    qDepth := BitVec.ofNat 64 (v.dLast.toNat + v.dMax.toNat * 2 ^ 20 + v.dSum / 256 % 2 ^ 20 * 2 ^ 40)
    qDelay := BitVec.ofNat 64 (v.yMax.toNat + v.ySum / 256 % 2 ^ 32 * 2 ^ 32)
    dMax := 0, dSum := 0, yMax := 0, ySum := 0 } s

/-- Time of the last sample of output x; now, where none has been taken. -/
def lastSample (s : State) (x : Nat) : Nat :=
  match (tabGet 0 s.traffic.sampled x).toNat with
  | 0 => now s
  | t + 1 => t

/-- The window of output x that holds its last sample has been latched: traf.win names its start (R207). -/
def windowLatched (s : State) (x : Nat) : Bool :=
  let w := 256 * samplePeriod s x
  let v := tabGet 0 s.traffic.win x
  decide (fnat v 48 16 ≠ 0) && decide (fnat v 0 48 = (lastSample s x / w * w) % 2 ^ 48)

/-- The window of output x that holds its last sample ends: its results and traf.win are latched (R207). -/
def windowEnd (x : Nat) (s : State) : State :=
  let w := 256 * samplePeriod s x
  let t := (lastSample s x / w + 1) * w
  let s1 := (List.range 8).foldl (latchClass x) (reach t s)
  let old := tabGet 0 s1.traffic.win x
  let new := BitVec.ofNat 64 ((t - w) % 2 ^ 48 + (fnat old 48 16 + 1) % 2 ^ 16 * 2 ^ 48)
  { s1 with traffic := { s1.traffic with win := tabSet 0 s1.traffic.win x new } }

/-- QUEUE_SAMPLE (R207): at the next sample time every service class of the output is sampled. A sample at a window's end
belongs to the next window: the one that ends is latched first (00 R6). -/
def execQueueSample (xp : BitVec 6) (s : State) : Out :=
  let x := xp.toNat
  let w := 256 * samplePeriod s x
  let t := multipleFrom (samplePeriod s x) (max (now s) (tabGet 0 s.traffic.sampled x).toNat)
  let past := decide (tabGet 0 s.traffic.sampled x ≠ 0) && decide (lastSample s x / w < t / w) && !windowLatched s x
  let s0 := if past then windowEnd x s else s
  let s1 := (List.range 8).foldl (sampleClass x) (reach t s0)
  fin { s1 with traffic := { s1.traffic with sampled := tabSet 0 s1.traffic.sampled x (BitVec.ofNat 64 (t + 1)) } }

/-- SAMPLE_WINDOW_END (R207): the window that holds the last sample ends. -/
def execSampleWindowEnd (xp : BitVec 6) (s : State) : Out := fin (windowEnd xp.toNat s)

/-! ## The 0x08 family (R210) -/

/-- TRAF_BINDING_READ (R210). -/
def execTrafBindingRead (r : Req) (binding : BitVec 16) (s : State) : Out :=
  command 0x0801 false r (wBytes 2 binding)
    (fun s =>
      let b := binding.toNat
      if 8192 ≤ b then (badField 0, s)
      else
        let s1 := trafSync s
        let m := meter s1 b
        (ok (wBytes 64 (traf s1 b) ++ leBytes 4 (bucketC s1 b) ++ leBytes 4 (bucketP s1 b) ++ leBytes 4 (bucketS s1 b)
          ++ wBytes 4 m.shaped ++ wBytes 8 m.green ++ wBytes 8 m.yellow ++ wBytes 8 m.red ++ wBytes 8 m.refused), s1)) s

/-- A new record is accepted for the first weave-frame boundary after now; an earlier one that still waits is replaced
(R202). -/
def acceptSet (i : Nat) (rec_ : BitVec 512) (s : State) : Reply × State :=
  let s1 := trafSync s
  let t := BitVec.ofNat 64 (nextFrame (now s))
  (ok (wBytes 8 t), { s1 with traffic := { s1.traffic with sets := tabSet none s1.traffic.sets i (some (rec_, t)) } })

/-- The active tables with every accepted set and the new record in place (R210). -/
def withSets (s : State) (b : Nat) (rec_ : BitVec 512) : Tables :=
  let t := s.traffic.sets.foldl (fun t p => match p.2 with
    | some q => tabSet 0 t p.1 q.1
    | none => t) s.plan.active.traffic
  { s.plan.active with traffic := tabSet 0 t b rec_ }

/-- Weaves that the active plan holds: its own and its alternates' (R210). -/
def planWeaves (s : State) : List (Tab (BitVec 1024)) :=
  s.plan.active.weave :: (s.plan.active.alts.filter (·.hasWeave)).map (·.weave)

/-- TRAF_BINDING_SET (R202, R203, R208, R210). -/
def execTrafBindingSet (r : Req) (binding : BitVec 16) (record : BitVec 512) (s : State) : Out :=
  command 0x0802 false r (wBytes 2 binding ++ zeros 2 ++ wBytes 64 record)
    (fun s =>
      let b := binding.toNat
      let c := ctx s b
      if 8192 ≤ b then (badField 0, s)
      else if trafBindOk record (ctxKind c) (ctxClass c) = false then
        (badField (4 + (trafBindBad record (ctxKind c) (ctxClass c)).getD 0), s)
      else if planBusy s then (rep 2, s)
      else
        let t := withSets s b record
        if (planWeaves s).any fun w => overWoven t w b then (rep 0x0801, s)
        else acceptSet b record s) s

/-- TRAF_XP_READ (R210). -/
def execTrafXpRead (r : Req) (xp : BitVec 8) (s : State) : Out :=
  command 0x0803 false r (wBytes 1 xp)
    (fun s =>
      let x := xp.toNat
      if 64 ≤ x then (badField 0, s)
      else
        let s1 := trafSync s
        let o := output s1 x
        (ok (wBytes 64 (traf s1 (8192 + x)) ++ wBytes 4 o.promoteIn ++ wBytes 4 o.promoteOut), s1)) s

/-- TRAF_XP_SET (R202, R203, R209). -/
def execTrafXpSet (r : Req) (xp : BitVec 8) (record : BitVec 512) (s : State) : Out :=
  command 0x0804 false r (wBytes 1 xp ++ zeros 3 ++ wBytes 64 record)
    (fun s =>
      let x := xp.toNat
      if 64 ≤ x then (badField 0, s)
      else if trafXpOk record = false then (badField (4 + (trafXpBad record).getD 0), s)
      else if planBusy s then (rep 2, s)
      else acceptSet (8192 + x) record s) s

/-- TRAF_COUNTERS_CLEAR (R210). -/
def execTrafCountersClear (r : Req) (binding : BitVec 16) (s : State) : Out :=
  command 0x0805 false r (wBytes 2 binding)
    (fun s =>
      let b := binding.toNat
      if 8192 ≤ b then (badField 0, s)
      else (ok, setMeter b { meter s b with shaped := 0, green := 0, yellow := 0, red := 0, refused := 0 } s)) s

end Sys2Proof.Machine
end

