-- ==== Sys2Proof/Machine/Dispatch.lean ====
section
/-! DEFINITION. The dispatch: one arm per command of the opcode table, each one call of that command's meaning. -/

namespace Sys2Proof.Machine

/-- What a command does to everything but the queue of waiting commands. -/
def exec (i : Instr) (s : State) : Host.Outcome State Fault Refusal :=
  match i with
  | .hostRequestDecode u op mv hpa tag data mask poison ue => Sys2Proof.Machine.execHostRequestDecode u op mv hpa tag data mask poison ue s
  | .pageEntryFetchDone page first second ue => Sys2Proof.Machine.execPageEntryFetchDone page first second ue s
  | .cxlFlitReceive u corrected check hasMsg pbr => Sys2Proof.Machine.execCxlFlitReceive u corrected check hasMsg pbr s
  | .cxlResponseReceive u tag op mv data mark => Sys2Proof.Machine.execCxlResponseReceive u tag op mv data mark s
  | .cxlIoMessage u via op tag data len => Sys2Proof.Machine.execCxlIoMessage u via op tag data len s
  | .waitingMessageAdmit input mclass => Sys2Proof.Machine.execWaitingMessageAdmit input mclass s
  | .shaperPass binding => Sys2Proof.Machine.execShaperPass binding s
  | .bucketRefill ue => Sys2Proof.Machine.execBucketRefill ue s
  | .trafSetApply => Sys2Proof.Machine.execTrafSetApply s
  | .queueSample xp => Sys2Proof.Machine.execQueueSample xp s
  | .sampleWindowEnd xp => Sys2Proof.Machine.execSampleWindowEnd xp s
  | .slotMatch plane => Sys2Proof.Machine.execSlotMatch plane s
  | .cellArrival src dst seq header payload inHeader => Sys2Proof.Machine.execCellArrival src dst seq header payload inHeader s
  | .cellAckReceive src dst seq => Sys2Proof.Machine.execCellAckReceive src dst seq s
  | .cellResendTimeout src dst seq => Sys2Proof.Machine.execCellResendTimeout src dst seq s
  | .egressSelect xp credits => Sys2Proof.Machine.execEgressSelect xp credits s
  | .urgentPromotion atOutput xp peer sclass => Sys2Proof.Machine.execUrgentPromotion atOutput xp peer sclass s
  | .planeSymptom plane cause => Sys2Proof.Machine.execPlaneSymptom plane cause s
  | .planeSelfCheck plane passed => Sys2Proof.Machine.execPlaneSelfCheck plane passed s
  | .planeDown plane => Sys2Proof.Machine.execPlaneDown plane s
  | .planeCheckEnd plane passed => Sys2Proof.Machine.execPlaneCheckEnd plane passed s
  | .planeRejoinWrite plane => Sys2Proof.Machine.execPlaneRejoinWrite plane s
  | .planeRejoined plane => Sys2Proof.Machine.execPlaneRejoined plane s
  | .loomLinkSymptom loom => Sys2Proof.Machine.execLoomLinkSymptom loom s
  | .loomLinkDown loom => Sys2Proof.Machine.execLoomLinkDown loom s
  | .loomLinkRetry loom => Sys2Proof.Machine.execLoomLinkRetry loom s
  | .loomLinkUp loom => Sys2Proof.Machine.execLoomLinkUp loom s
  | .resumeComplete xp => Sys2Proof.Machine.execResumeComplete xp s
  | .reservoirRefill input output_ mclass sclass header payload place => Sys2Proof.Machine.execReservoirRefill input output_ mclass sclass header payload place s
  | .auditPassStart => Sys2Proof.Machine.execAuditPassStart s
  | .auditRun => Sys2Proof.Machine.execAuditRun s
  | .auditWalkDone broken => Sys2Proof.Machine.execAuditWalkDone broken s
  | .auditSweepDone => Sys2Proof.Machine.execAuditSweepDone s
  | .ageCheck => Sys2Proof.Machine.execAgeCheck s
  | .proxyRequest k => Sys2Proof.Machine.execProxyRequest k s
  | .parkedTakeTracker k => Sys2Proof.Machine.execParkedTakeTracker k s
  | .directoryFill sa ecc => Sys2Proof.Machine.execDirectoryFill sa ecc s
  | .birspReceive k => Sys2Proof.Machine.execBirspReceive k s
  | .holderWriteback k => Sys2Proof.Machine.execHolderWriteback k s
  | .biconflict k => Sys2Proof.Machine.execBiconflict k s
  | .proxyBackingResponse k => Sys2Proof.Machine.execProxyBackingResponse k s
  | .biTimeout sa u => Sys2Proof.Machine.execBiTimeout sa u s
  | .sweepDone => Sys2Proof.Machine.execSweepDone s
  | .doorbell inst_ q producer => Sys2Proof.Machine.execDoorbell inst_ q producer s
  | .queueEnableWrite inst_ q value => Sys2Proof.Machine.execQueueEnableWrite inst_ q value s
  | .descriptorFetchDone half => Sys2Proof.Machine.execDescriptorFetchDone half s
  | .descriptorDispatch => Sys2Proof.Machine.execDescriptorDispatch s
  | .lineIssue engine_ ue => Sys2Proof.Machine.execLineIssue engine_ ue s
  | .lineComplete half => Sys2Proof.Machine.execLineComplete half s
  | .migrationSpanOpen slot_ => Sys2Proof.Machine.execMigrationSpanOpen slot_ s
  | .migrationSpanClose slot_ => Sys2Proof.Machine.execMigrationSpanClose slot_ s
  | .tokenRefill => Sys2Proof.Machine.execTokenRefill s
  | .freezeComplete inst_ => Sys2Proof.Machine.execFreezeComplete inst_ s
  | .instanceResetWrite inst_ => Sys2Proof.Machine.execInstanceResetWrite inst_ s
  | .instanceResetComplete inst_ => Sys2Proof.Machine.execInstanceResetComplete inst_ s
  | .engineFault engine_ => Sys2Proof.Machine.execEngineFault engine_ s
  | .mboxT2oSend inst_ len => Sys2Proof.Machine.execMboxT2oSend inst_ len s
  | .mboxO2tAck inst_ => Sys2Proof.Machine.execMboxO2tAck inst_ s
  | .planLoadBegin r kind length => Sys2Proof.Machine.execPlanLoadBegin r kind length s
  | .planLoadData r offset data => Sys2Proof.Machine.execPlanLoadData r offset data s
  | .planCommit r flags => Sys2Proof.Machine.execPlanCommit r flags s
  | .planCommitComplete stamp env => Sys2Proof.Machine.execPlanCommitComplete stamp env s
  | .planAbort r env => Sys2Proof.Machine.execPlanAbort r env s
  | .planStatus r => Sys2Proof.Machine.execPlanStatus r s
  | .planApplyAlternate r set => Sys2Proof.Machine.execPlanApplyAlternate r set s
  | .planRestore r set => Sys2Proof.Machine.execPlanRestore r set s
  | .heddleRead r type index count => Sys2Proof.Machine.execHeddleRead r type index count s
  | .planActivation => Sys2Proof.Machine.execPlanActivation s
  | .planPersist => Sys2Proof.Machine.execPlanPersist s
  | .triggerLookup => Sys2Proof.Machine.execTriggerLookup s
  | .patchApplyDone => Sys2Proof.Machine.execPatchApplyDone s
  | .alternateWeaveSwitch => Sys2Proof.Machine.execAlternateWeaveSwitch s
  | .applyNoticeReceive link id => Sys2Proof.Machine.execApplyNoticeReceive link id s
  | .restoreNoticeReceive link id => Sys2Proof.Machine.execRestoreNoticeReceive link id s
  | .stablePeriodExpiry => Sys2Proof.Machine.execStablePeriodExpiry s
  | .alternateRestored => Sys2Proof.Machine.execAlternateRestored s
  | .heddleWordReload section_ index offset first second => Sys2Proof.Machine.execHeddleWordReload section_ index offset first second s
  | .bindingRead r binding => Sys2Proof.Machine.execBindingRead r binding s
  | .bindingActivate r binding => Sys2Proof.Machine.execBindingActivate r binding s
  | .bindingActivationBoundary => Sys2Proof.Machine.execBindingActivationBoundary s
  | .bindingFreeze r binding => Sys2Proof.Machine.execBindingFreeze r binding s
  | .bindingThaw r binding => Sys2Proof.Machine.execBindingThaw r binding s
  | .bindingDrain r binding flags => Sys2Proof.Machine.execBindingDrain r binding flags s
  | .bindingReattach r binding => Sys2Proof.Machine.execBindingReattach r binding s
  | .bindingSetHold r binding limit => Sys2Proof.Machine.execBindingSetHold r binding limit s
  | .windowRead r port window => Sys2Proof.Machine.execWindowRead r port window s
  | .decodeProbe r port hpa => Sys2Proof.Machine.execDecodeProbe r port hpa s
  | .migrationStatus r slot => Sys2Proof.Machine.execMigrationStatus r slot s
  | .holdExpired binding => Sys2Proof.Machine.execHoldExpired binding s
  | .portSymptom u retry => Sys2Proof.Machine.execPortSymptom u retry s
  | .portDownDeclare u => Sys2Proof.Machine.execPortDownDeclare u s
  | .hostHotReset u => Sys2Proof.Machine.execHostHotReset u s
  | .ideFail u => Sys2Proof.Machine.execIdeFail u s
  | .portL0Entry u rate width flit256 lopt recovered => Sys2Proof.Machine.execPortL0Entry u rate width flit256 lopt recovered s
  | .portConfirm u ident ldMap secure => Sys2Proof.Machine.execPortConfirm u ident ldMap secure s
  | .confirmTimeout u => Sys2Proof.Machine.execConfirmTimeout u s
  | .portTagTimeout u tag => Sys2Proof.Machine.execPortTagTimeout u tag s
  | .retrainTimeout u => Sys2Proof.Machine.execRetrainTimeout u s
  | .portCommandComplete u => Sys2Proof.Machine.execPortCommandComplete u s
  | .portStatus r port half => Sys2Proof.Machine.execPortStatus r port half s
  | .portAcceptIdentity r port half => Sys2Proof.Machine.execPortAcceptIdentity r port half s
  | .portRetrain r port half rate => Sys2Proof.Machine.execPortRetrain r port half rate s
  | .portDisable r port half => Sys2Proof.Machine.execPortDisable r port half s
  | .portEnable r port half => Sys2Proof.Machine.execPortEnable r port half s
  | .portCountersClear r port half => Sys2Proof.Machine.execPortCountersClear r port half s
  | .slotControlWrite u via value => Sys2Proof.Machine.execSlotControlWrite u via value s
  | .hdmDecoderWrite u decoder offset value => Sys2Proof.Machine.execHdmDecoderWrite u decoder offset value s
  | .weftFlitSend link => Sys2Proof.Machine.execWeftFlitSend link s
  | .weftFlitReceive link fecSymbols fecBad rx => Sys2Proof.Machine.execWeftFlitReceive link fecSymbols fecBad rx s
  | .replayTimeout link => Sys2Proof.Machine.execReplayTimeout link s
  | .snapSend link => Sys2Proof.Machine.execSnapSend link s
  | .tsyncTimeSend link => Sys2Proof.Machine.execTsyncTimeSend link s
  | .timeInfoSend => Sys2Proof.Machine.execTimeInfoSend s
  | .weftSymptom link => Sys2Proof.Machine.execWeftSymptom link s
  | .weftRelockDone link => Sys2Proof.Machine.execWeftRelockDone link s
  | .weftDownDeclare link => Sys2Proof.Machine.execWeftDownDeclare link s
  | .weftTrainStep link => Sys2Proof.Machine.execWeftTrainStep link s
  | .trainTimeout link => Sys2Proof.Machine.execTrainTimeout link s
  | .weftParamEnd link => Sys2Proof.Machine.execWeftParamEnd link s
  | .weftTagTimeout link tag => Sys2Proof.Machine.execWeftTagTimeout link tag s
  | .weftCommandComplete link => Sys2Proof.Machine.execWeftCommandComplete link s
  | .weftStatus r link => Sys2Proof.Machine.execWeftStatus r link s
  | .weftConfig r link vcCount fec vcSlots replayTimeout resync tsync tagTimeout => Sys2Proof.Machine.execWeftConfig r link vcCount fec vcSlots replayTimeout resync tsync tagTimeout s
  | .weftAcceptIdentity r link => Sys2Proof.Machine.execWeftAcceptIdentity r link s
  | .weftRetrain r link => Sys2Proof.Machine.execWeftRetrain r link s
  | .weftDisable r link => Sys2Proof.Machine.execWeftDisable r link s
  | .weftEnable r link => Sys2Proof.Machine.execWeftEnable r link s
  | .weftCountersClear r link => Sys2Proof.Machine.execWeftCountersClear r link s
  | .refLost input => Sys2Proof.Machine.execRefLost input s
  | .laneLossOfSignal lane => Sys2Proof.Machine.execLaneLossOfSignal lane s
  | .laneConverged lane ctle h1 h2 floatPos rxInv => Sys2Proof.Machine.execLaneConverged lane ctle h1 h2 floatPos rxInv s
  | .adaptAtLimit lane => Sys2Proof.Machine.execAdaptAtLimit lane s
  | .l0pNarrow u accepted => Sys2Proof.Machine.execL0pNarrow u accepted s
  | .l0pWiden u partner => Sys2Proof.Machine.execL0pWiden u partner s
  | .widenFail u resumed => Sys2Proof.Machine.execWidenFail u resumed s
  | .widenRetry u => Sys2Proof.Machine.execWidenRetry u s
  | .testInject lane => Sys2Proof.Machine.execTestInject lane s
  | .laneMarginDone lane left right down up points => Sys2Proof.Machine.execLaneMarginDone lane left right down up points s
  | .laneStatus r lane => Sys2Proof.Machine.execLaneStatus r lane s
  | .lanePresetSet r record => Sys2Proof.Machine.execLanePresetSet r record s
  | .laneTestStart r lane count mode pattern rate => Sys2Proof.Machine.execLaneTestStart r lane count mode pattern rate s
  | .laneTestStop r lane count => Sys2Proof.Machine.execLaneTestStop r lane count s
  | .laneMargin r lane eye dwell errLimit => Sys2Proof.Machine.execLaneMargin r lane eye dwell errLimit s
  | .lanePowerCfg r port half idle => Sys2Proof.Machine.execLanePowerCfg r port half idle s
  | .laneRefSelect r loom ref => Sys2Proof.Machine.execLaneRefSelect r loom ref s
  | .mailboxGo m => Sys2Proof.Machine.execMailboxGo m s
  | .mailboxResponse m => Sys2Proof.Machine.execMailboxResponse m s
  | .mailboxDoneClear m => Sys2Proof.Machine.execMailboxDoneClear m s
  | .mctpPacketReceive t p => Sys2Proof.Machine.execMctpPacketReceive t p s
  | .mctpControl t eid msg => Sys2Proof.Machine.execMctpControl t eid msg s
  | .spdmRequest t eid q => Sys2Proof.Machine.execSpdmRequest t eid q s
  | .hwResponderAnswer r opcode => Sys2Proof.Machine.execHwResponderAnswer r opcode s
  | .pendingResult ticket status detail payload => Sys2Proof.Machine.execPendingResult ticket status detail payload s
  | .eventNoticeSend => Sys2Proof.Machine.execEventNoticeSend s
  | .fwHang => Sys2Proof.Machine.execFwHang s
  | .fwRestartDone => Sys2Proof.Machine.execFwRestartDone s
  | .makerLevelExpiry => Sys2Proof.Machine.execMakerLevelExpiry s
  | .registerWrite offset size value => Sys2Proof.Machine.execRegisterWrite offset size value s
  | .deviceIdentify r => Sys2Proof.Machine.execDeviceIdentify r s
  | .deviceStatus r => Sys2Proof.Machine.execDeviceStatus r s
  | .resultFetch r ticket => Sys2Proof.Machine.execResultFetch r ticket s
  | .eventRead r fromSeq max_ => Sys2Proof.Machine.execEventRead r fromSeq max_ s
  | .eventAck r seq => Sys2Proof.Machine.execEventAck r seq s
  | .eventSubscribe r eid enable => Sys2Proof.Machine.execEventSubscribe r eid enable s
  | .dcwRead r offset count => Sys2Proof.Machine.execDcwRead r offset count s
  | .dcwWrite r offset values => Sys2Proof.Machine.execDcwWrite r offset values s
  | .functionExpose r port vf inst_ => Sys2Proof.Machine.execFunctionExpose r port vf inst_ s
  | .mctpBridgeSet r entry first last transport index => Sys2Proof.Machine.execMctpBridgeSet r entry first last transport index s
  | .deviceReset r type => Sys2Proof.Machine.execDeviceReset r type s
  | .fmIdentifySwitchDevice q => Sys2Proof.Machine.execFmIdentifySwitchDevice q s
  | .fmGetPhysicalPortState q us => Sys2Proof.Machine.execFmGetPhysicalPortState q us s
  | .fmPhysicalPortControl q u op => Sys2Proof.Machine.execFmPhysicalPortControl q u op s
  | .fmSendPpbConfigRequest q u write register data => Sys2Proof.Machine.execFmSendPpbConfigRequest q u write register data s
  | .fmGetVirtualSwitchInfo q usp => Sys2Proof.Machine.execFmGetVirtualSwitchInfo q usp s
  | .fmBindVppb q usp vppb u ld mark => Sys2Proof.Machine.execFmBindVppb q usp vppb u ld mark s
  | .fmUnbindVppb q usp vppb => Sys2Proof.Machine.execFmUnbindVppb q usp vppb s
  | .fmGenerateAerEvent q usp vppb error header => Sys2Proof.Machine.execFmGenerateAerEvent q usp vppb error header s
  | .fmTunnelManagementCommand q u cmd => Sys2Proof.Machine.execFmTunnelManagementCommand q u cmd s
  | .fmSendLdConfigRequest q u ld write register data => Sys2Proof.Machine.execFmSendLdConfigRequest q u ld write register data s
  | .fmSendLdMemoryRequest q u ld write offset data => Sys2Proof.Machine.execFmSendLdMemoryRequest q u ld write offset data s
  | .fmSetLdAllocations u good sizes => Sys2Proof.Machine.execFmSetLdAllocations u good sizes s
  | .fmUnsupported q command => Sys2Proof.Machine.execFmUnsupported q command s
  | .refSwitched input => Sys2Proof.Machine.execRefSwitched input s
  | .timeOffsetMeasurement => Sys2Proof.Machine.execTimeOffsetMeasurement s
  | .timeSourceChange => Sys2Proof.Machine.execTimeSourceChange s
  | .timeSourceRevert => Sys2Proof.Machine.execTimeSourceRevert s
  | .tsyncInPulse high => Sys2Proof.Machine.execTsyncInPulse high s
  | .tsyncOutPulse => Sys2Proof.Machine.execTsyncOutPulse s
  | .counterClear set => Sys2Proof.Machine.execCounterClear set s
  | .counterWindowEnd => Sys2Proof.Machine.execCounterWindowEnd s
  | .dumpLatch => Sys2Proof.Machine.execDumpLatch s
  | .dumpHostWrite ecc => Sys2Proof.Machine.execDumpHostWrite ecc s
  | .heatAgeSweep => Sys2Proof.Machine.execHeatAgeSweep s
  | .timeStatus r => Sys2Proof.Machine.execTimeStatus r s
  | .timeConfig r sources tsyncOut ref revertS asym => Sys2Proof.Machine.execTimeConfig r sources tsyncOut ref revertS asym s
  | .timeSet r time => Sys2Proof.Machine.execTimeSet r time s
  | .csConfig r set ctl evsel fltSrc fltAddr fltClass => Sys2Proof.Machine.execCsConfig r set ctl evsel fltSrc fltAddr fltClass s
  | .csRead r set ecc which => Sys2Proof.Machine.execCsRead r set ecc which s
  | .teleWindowArm r start length => Sys2Proof.Machine.execTeleWindowArm r start length s
  | .dumpConfig r periodK flags port slots hostBase busMaster => Sys2Proof.Machine.execDumpConfig r periodK flags port slots hostBase busMaster s
  | .dumpRead r seq offset length ecc => Sys2Proof.Machine.execDumpRead r seq offset length ecc s
  | .heatConfig r enable agePeriod => Sys2Proof.Machine.execHeatConfig r enable agePeriod s
  | .heatRead r index count ecc which => Sys2Proof.Machine.execHeatRead r index count ecc which s
  | .heatClear r index count => Sys2Proof.Machine.execHeatClear r index count s
  | .heatClearDone => Sys2Proof.Machine.execHeatClearDone s
  | .traceConfig r enable sizeLog2 mode points classMask xpMask start length stopFault postRecords => Sys2Proof.Machine.execTraceConfig r enable sizeLog2 mode points classMask xpMask start length stopFault postRecords s
  | .traceRead r index count ecc => Sys2Proof.Machine.execTraceRead r index count ecc s
  | .patrolScrubStep t check => Sys2Proof.Machine.execPatrolScrubStep t check s
  | .hbmWriteback stack => Sys2Proof.Machine.execHbmWriteback stack s
  | .rowRemapped stack => Sys2Proof.Machine.execRowRemapped stack s
  | .remapLogAppend => Sys2Proof.Machine.execRemapLogAppend s
  | .ifetchUe page array addr => Sys2Proof.Machine.execIfetchUe page array addr s
  | .dsramUe array addr => Sys2Proof.Machine.execDsramUe array addr s
  | .channelRetrain stack channel restored => Sys2Proof.Machine.execChannelRetrain stack channel restored s
  | .stackLost stack thermal => Sys2Proof.Machine.execStackLost stack thermal s
  | .faultOccurrence block code src detail => Sys2Proof.Machine.execFaultOccurrence block code src detail s
  | .faultLogAppend => Sys2Proof.Machine.execFaultLogAppend s
  | .autoExit block code => Sys2Proof.Machine.execAutoExit block code s
  | .faultAckWrite block code => Sys2Proof.Machine.execFaultAckWrite block code s
  | .faultRead r block code => Sys2Proof.Machine.execFaultRead r block code s
  | .faultList r from_ max_ => Sys2Proof.Machine.execFaultList r from_ max_ s
  | .faultAck r block code => Sys2Proof.Machine.execFaultAck r block code s
  | .faultRelease r block code => Sys2Proof.Machine.execFaultRelease r block code s
  | .faultConfig r block code cfg => Sys2Proof.Machine.execFaultConfig r block code cfg s
  | .faultLogRead r index count => Sys2Proof.Machine.execFaultLogRead r index count s
  | .injectMem r type mask unit timeout addr => Sys2Proof.Machine.execInjectMem r type mask unit timeout addr s
  | .injectedWrite => Sys2Proof.Machine.execInjectedWrite s
  | .injectExpired => Sys2Proof.Machine.execInjectExpired s
  | .injectRaise r block code src detail => Sys2Proof.Machine.execInjectRaise r block code src detail s
  | .injectStatus r => Sys2Proof.Machine.execInjectStatus r s
  | .domainIdleEntry d demand => Sys2Proof.Machine.execDomainIdleEntry d demand s
  | .domainWake d => Sys2Proof.Machine.execDomainWake d s
  | .domainRestoreStep d bad => Sys2Proof.Machine.execDomainRestoreStep d bad s
  | .retentionReloadDone d => Sys2Proof.Machine.execRetentionReloadDone d s
  | .wakeTimeout d => Sys2Proof.Machine.execWakeTimeout d s
  | .bankWake busy => Sys2Proof.Machine.execBankWake busy s
  | .dozeAutoAttempt => Sys2Proof.Machine.execDozeAutoAttempt s
  | .entryStage => Sys2Proof.Machine.execEntryStage s
  | .wakeSource src index => Sys2Proof.Machine.execWakeSource src index s
  | .gpioEdge pin level => Sys2Proof.Machine.execGpioEdge pin level s
  | .alarm => Sys2Proof.Machine.execAlarm s
  | .exitComplete b => Sys2Proof.Machine.execExitComplete b s
  | .avsPoll rail vdone good => Sys2Proof.Machine.execAvsPoll rail vdone good s
  | .avsTimeout rail => Sys2Proof.Machine.execAvsTimeout rail s
  | .avsExitRetry rail => Sys2Proof.Machine.execAvsExitRetry rail s
  | .railMonitor rail vout iout => Sys2Proof.Machine.execRailMonitor rail vout iout s
  | .standbyFinalStage => Sys2Proof.Machine.execStandbyFinalStage s
  | .powerStatus r => Sys2Proof.Machine.execPowerStatus r s
  | .powerStateSet r target => Sys2Proof.Machine.execPowerStateSet r target s
  | .powerDomainRead r domain_ => Sys2Proof.Machine.execPowerDomainRead r domain_ s
  | .powerTimerSet r domain_ group lowest auto idleUs => Sys2Proof.Machine.execPowerTimerSet r domain_ group lowest auto idleUs s
  | .powerWakeCfg r wakeMask detectMask alarm dozeAuto avsTimeout => Sys2Proof.Machine.execPowerWakeCfg r wakeMask detectMask alarm dozeAuto avsTimeout s
  | .longPinChange slot seated => Sys2Proof.Machine.execLongPinChange slot seated s
  | .shortPinClose slot => Sys2Proof.Machine.execShortPinClose slot s
  | .debounceEnd slot => Sys2Proof.Machine.execDebounceEnd slot s
  | .rampStart slot => Sys2Proof.Machine.execRampStart slot s
  | .pgQualify slot vout => Sys2Proof.Machine.execPgQualify slot vout s
  | .pgAssert slot => Sys2Proof.Machine.execPgAssert slot s
  | .perstRelease slot => Sys2Proof.Machine.execPerstRelease slot s
  | .currentLimit slot iout => Sys2Proof.Machine.execCurrentLimit slot iout s
  | .breakerTrip slot => Sys2Proof.Machine.execBreakerTrip slot s
  | .fastTrip slot iout => Sys2Proof.Machine.execFastTrip slot iout s
  | .rampFail slot => Sys2Proof.Machine.execRampFail slot s
  | .retryTimerExpiry slot => Sys2Proof.Machine.execRetryTimerExpiry slot s
  | .shortPinOpen slot => Sys2Proof.Machine.execShortPinOpen slot s
  | .retryCountClear slot => Sys2Proof.Machine.execRetryCountClear slot s
  | .gateOffDelay slot => Sys2Proof.Machine.execGateOffDelay slot s
  | .decayEnd slot vout => Sys2Proof.Machine.execDecayEnd slot vout s
  | .fetDamage slot vout => Sys2Proof.Machine.execFetDamage slot vout s
  | .busOv vbus => Sys2Proof.Machine.execBusOv vbus s
  | .busOvRecover vbus => Sys2Proof.Machine.execBusOvRecover vbus s
  | .busUv vbus => Sys2Proof.Machine.execBusUv vbus s
  | .buttonPressed slot => Sys2Proof.Machine.execButtonPressed slot s
  | .buttonToggleExpiry slot => Sys2Proof.Machine.execButtonToggleExpiry slot s
  | .gateCtlWrite slot value => Sys2Proof.Machine.execGateCtlWrite slot value s
  | .slotLockWrite slot => Sys2Proof.Machine.execSlotLockWrite slot s
  | .vselLost => Sys2Proof.Machine.execVselLost s
  | .vselRestored seated => Sys2Proof.Machine.execVselRestored seated s
  | .slotStatus r slot => Sys2Proof.Machine.execSlotStatus r slot s
  | .slotPower r slot on_ flags => Sys2Proof.Machine.execSlotPower r slot on_ flags s
  | .slotConfig r slot gateCtl ctl pgCfg => Sys2Proof.Machine.execSlotConfig r slot gateCtl ctl pgCfg s
  | .slotIndicator r slot attn pwr flags => Sys2Proof.Machine.execSlotIndicator r slot attn pwr flags s
  | .slotClear r slot what => Sys2Proof.Machine.execSlotClear r slot what s
  | .slotPerst r slot hold => Sys2Proof.Machine.execSlotPerst r slot hold s
  | .sealStatus r => Sys2Proof.Machine.execSealStatus r s
  | .sealNonce r env => Sys2Proof.Machine.execSealNonce r env s
  | .nonceExpiry => Sys2Proof.Machine.execNonceExpiry s
  | .lcTransition r target tok env => Sys2Proof.Machine.execLcTransition r target tok env s
  | .lifecycleReset b => Sys2Proof.Machine.execLifecycleReset b s
  | .ownerClaim r key tok env => Sys2Proof.Machine.execOwnerClaim r key tok env s
  | .makerUnlock r tok env => Sys2Proof.Machine.execMakerUnlock r tok env s
  | .makerRelinquish r => Sys2Proof.Machine.execMakerRelinquish r s
  | .planKeyInstall r slot key tok env => Sys2Proof.Machine.execPlanKeyInstall r slot key tok env s
  | .planKeyRevoke r slot tok env => Sys2Proof.Machine.execPlanKeyRevoke r slot tok env s
  | .debugConfig r tok => Sys2Proof.Machine.execDebugConfig r tok s
  | .colophonRead r seq count => Sys2Proof.Machine.execColophonRead r seq count s
  | .colophonQuote r nonce => Sys2Proof.Machine.execColophonQuote r nonce s
  | .certRead r which offset length => Sys2Proof.Machine.execCertRead r which offset length s
  | .makerProvision r chain env => Sys2Proof.Machine.execMakerProvision r chain env s
  | .deviceCertInstall r chain => Sys2Proof.Machine.execDeviceCertInstall r chain s
  | .colophonAppendDone good => Sys2Proof.Machine.execColophonAppendDone good s
  | .entropyFail => Sys2Proof.Machine.execEntropyFail s
  | .deviceMeasurement u => Sys2Proof.Machine.execDeviceMeasurement u s
  | .deviceMeasurementDone u m env => Sys2Proof.Machine.execDeviceMeasurementDone u m env s
  | .coldReset b => Sys2Proof.Machine.execColdReset b s
  | .warmReset b => Sys2Proof.Machine.execWarmReset b s
  | .hbmReady trained => Sys2Proof.Machine.execHbmReady trained s
  | .bootTimeWaitExpiry => Sys2Proof.Machine.execBootTimeWaitExpiry s
  | .persistedPlanCommit stamp env => Sys2Proof.Machine.execPersistedPlanCommit stamp env s
  | .imageWrite r region offset data => Sys2Proof.Machine.execImageWrite r region offset data s
  | .imageSelect r region reserved => Sys2Proof.Machine.execImageSelect r region reserved s
  | .vaonLoss => Sys2Proof.Machine.execVaonLoss s
  | .thermalSample core loom stackA stackB selvedge => Sys2Proof.Machine.execThermalSample core loom stackA stackB selvedge s
  | .instanceConfig r inst_ flags engineMask descQuota share burst bslots => Sys2Proof.Machine.execInstanceConfig r inst_ flags engineMask descQuota share burst bslots s
  | .instanceRead r inst_ => Sys2Proof.Machine.execInstanceRead r inst_ s
  | .instanceEnable r inst_ => Sys2Proof.Machine.execInstanceEnable r inst_ s
  | .instanceReset r inst_ flags => Sys2Proof.Machine.execInstanceReset r inst_ flags s
  | .instanceFreeze r inst_ => Sys2Proof.Machine.execInstanceFreeze r inst_ s
  | .instanceThaw r inst_ causes => Sys2Proof.Machine.execInstanceThaw r inst_ causes s
  | .instanceSave r inst_ => Sys2Proof.Machine.execInstanceSave r inst_ s
  | .instanceRestore r inst_ blob => Sys2Proof.Machine.execInstanceRestore r inst_ blob s
  | .instanceSetShare r inst_ share burst => Sys2Proof.Machine.execInstanceSetShare r inst_ share burst s
  | .mboxRead r inst_ => Sys2Proof.Machine.execMboxRead r inst_ s
  | .mboxSend r inst_ len data => Sys2Proof.Machine.execMboxSend r inst_ len data s
  | .engineStatus r engine_ => Sys2Proof.Machine.execEngineStatus r engine_ s
  | .trafBindingRead r binding => Sys2Proof.Machine.execTrafBindingRead r binding s
  | .trafBindingSet r binding record => Sys2Proof.Machine.execTrafBindingSet r binding record s
  | .trafXpRead r xp => Sys2Proof.Machine.execTrafXpRead r xp s
  | .trafXpSet r xp record => Sys2Proof.Machine.execTrafXpSet r xp record s
  | .trafCountersClear r binding => Sys2Proof.Machine.execTrafCountersClear r binding s
  | .protEntryRead r index count => Sys2Proof.Machine.execProtEntryRead r index count s
  | .protEntrySet r index entry => Sys2Proof.Machine.execProtEntrySet r index entry s
  | .protLock r index count => Sys2Proof.Machine.execProtLock r index count s
  | .protFence r timeout => Sys2Proof.Machine.execProtFence r timeout s
  | .protViolRead r => Sys2Proof.Machine.execProtViolRead r s
  | .protViolClear r => Sys2Proof.Machine.execProtViolClear r s
  | .protFenceTimeout ticket => Sys2Proof.Machine.execProtFenceTimeout ticket s
  | .violValidClear => Sys2Proof.Machine.execViolValidClear s
  | .protEntryReloaded entry => Sys2Proof.Machine.execProtEntryReloaded entry s
  | .upHoldExpired u => Sys2Proof.Machine.execUpHoldExpired u s
  | .loomLinkRecovery loom => Sys2Proof.Machine.execLoomLinkRecovery loom s
  | .receiverDetect u => Sys2Proof.Machine.execReceiverDetect u s
  | .replayWaitLimit link => Sys2Proof.Machine.execReplayWaitLimit link s
  | .l0pNarrowRequest u => Sys2Proof.Machine.execL0pNarrowRequest u s
  | .aspmL1Entry u pllOff => Sys2Proof.Machine.execAspmL1Entry u pllOff s
  | .aspmL1Exit u => Sys2Proof.Machine.execAspmL1Exit u s
  | .testCheckerLock lane => Sys2Proof.Machine.execTestCheckerLock lane s
  | .testCheckerLockLost lane errs => Sys2Proof.Machine.execTestCheckerLockLost lane errs s
  | .refRestored input => Sys2Proof.Machine.execRefRestored input s
  | .ref25Restored input => Sys2Proof.Machine.execRef25Restored input s
  | .dumpWriteDone => Sys2Proof.Machine.execDumpWriteDone s
  | .dumpHostWriteDone => Sys2Proof.Machine.execDumpHostWriteDone s
  | .heatSweepDone => Sys2Proof.Machine.execHeatSweepDone s
  | .restorationRewriteDone => Sys2Proof.Machine.execRestorationRewriteDone s
  | .bayWakeChange slot asserted => Sys2Proof.Machine.execBayWakeChange slot asserted s
  | .breakerTimerClear slot iout => Sys2Proof.Machine.execBreakerTimerClear slot iout s
  | .powerGoodDrop slot vout => Sys2Proof.Machine.execPowerGoodDrop slot vout s
  | .busUvRecover vbus => Sys2Proof.Machine.execBusUvRecover vbus s
  | .vaonRestored b => Sys2Proof.Machine.execVaonRestored b s

end Sys2Proof.Machine
end

