-- ==== Sys2Proof/Safety.lean ====
section
/-! DEFINITION. The terms that claims use: a run goes on, a command completes, a state is settled, a Nib command is
served. -/

namespace Sys2Proof

open Sys2Proof.Machine

/-- The step from `s` goes on: neither a fault nor a refusal. -/
def Machine.goesOn (s : State) : Prop := ∃ t, step s = .next t

/-- Command `c` completes from `s`. -/
def Machine.completes (c : Instr) (s : State) : Prop := ∃ t, exec c s = .next t

/-- No reaction of the fault collector waits: what every command leaves (16 R376). -/
def Machine.settled (s : State) : Prop := s.fault.todo = []

/-- The Nib command of requester `r` with opcode `op` and payload `p` is the one in hand: accepted by a go write or by
the last packet of its MCTP message (13 R313, R320). -/
def Machine.inHand (r : Req) (op : Nat) (p : List Byte) (s : State) : Bool :=
  match r.src with
  | .mailbox m => (mbx s m.toNat).busy && (match (mbx s m.toNat).accepted with
      | some (o, t, q) => sameCmd op r.tag p o t q
      | none => false)
  | .mctp _ _ => (mctpFind s op r p).isSome

/-- Firmware carries the command in hand out: it is RUNNING, the device is in RUN, and the checks of 13 R318 pass. -/
def Machine.serves (op : Nat) (maker : Bool) (r : Req) (p : List Byte) (s : State) : Prop :=
  s.boot.held = false ∧ s.boot.stage ≠ 7 ∧ inHand r op p s = true ∧ s.pmu.st = .run ∧ s.pmu.entering = false
    ∧ s.pmu.rolling = false ∧ s.mgmt.fw = .running ∧ gate op maker r s = none ∧ settled s

/-- Firmware carries an FM API command of the component `q.t` out: the transport is up and trusted, firmware is RUNNING
and the device in RUN (13 R309, R316, R504). -/
def Machine.fmServes (q : FmSrc) (s : State) : Prop :=
  deaf q.t s = false ∧ s.boot.stage ≠ 7 ∧ transportUp s q.t = true ∧ s.mgmt.fw = .running ∧ trusted s q.t = true
    ∧ s.pmu.entering = false ∧ s.pmu.st = .run ∧ s.pmu.rolling = false

end Sys2Proof
end

