-- ==== Sys2Proof/Certificates/Slice0/Obligations.lean ====
section
/-! DEFINITION. The statements for the provers. A statement that a command acts says, for every state and operands that
meet its hypotheses, the next state that exec answers, written out: all that it does not name is unchanged, but for the
fault collector's reactions (`settle`), which are none where the state written has none waiting. -/

open Sys2Proof Sys2Proof.Machine

/-- A step of the block: with a command at the front of the queue it runs that command with the queue's rest. -/
def Obligations.StepRunsTheFrontCommand : Prop :=
  ∀ (c : Instr) (q : List Instr) (s : State),
    s.pending = c :: q → step s = exec c { s with pending := q }

/-- The model's choice of log entry 1: with no command waiting, a step is one tick of fabric time (R332) and of the
always-on clock; while firmware runs, the heartbeat goes on by a free bit; a block held in reset stands still. -/
def Obligations.EmptyQueueIsOneTick : Prop :=
  (∀ (s : State), s.pending = [] → s.boot.held = true → step s = .next s) ∧
  (∀ (s : State), s.pending = [] → s.boot.held = false → s.mgmt.fw ≠ .running →
    step s = .next { s with tele := { s.tele with time := s.tele.time + 1 }, aon := s.aon + 1 }) ∧
  (∀ (s : State), s.pending = [] → s.boot.held = false → s.mgmt.fw = .running →
    step s = .next { s with
      tele := { s.tele with time := s.tele.time + 1 }, aon := s.aon + 1, free := s.free + 1,
      mgmt := { s.mgmt with
        heartbeat := s.mgmt.heartbeat + (Config.freeBits 1 s.free : BitVec 1).setWidth 32 } })

/-- The opcode table gives none of its rows any bits, so that no word spells a command (log entry 11). -/
def Obligations.NoWordSpellsACommand : Prop :=
  (∀ (nbits w : Nat), decodeTableWord nbits w = none) ∧
  (∀ (nbits w : Nat) (s : State), s.withFetchWord nbits w = s)

/-- The values that the Registers sections and the rules state for reset: fabric time, the event queue, the fault
records and their configurations, the shadow plan, the planes, the proxy's controls, the wake mask, a slot's
registers, a Weft link's configuration, the scrub, the protection epoch, the mailboxes and the instances. The
model's own choices in it: log entry 2. -/
def Obligations.ResetGivesTheStatedValues : Prop :=
  State.reset.tele.time = 0 ∧ State.reset.tele.frozen = false ∧
  State.reset.mgmt.events = [] ∧ State.reset.mgmt.head = 0 ∧ State.reset.mgmt.tickets = [] ∧
  (∀ k, faultRec State.reset.fault k = FaultRec.init) ∧
  (∀ k, faultCfg State.reset.fault k = defaultCfg k) ∧ State.reset.fault.safeStop = false ∧
  State.reset.plan.shadowState = .empty ∧ State.reset.plan.generation = 0 ∧
  (∀ n, (plane State.reset n).st = .up) ∧
  State.reset.proxy.biTimeout = 500 ∧ State.reset.proxy.lossPoison = true ∧ State.reset.proxy.degraded = false ∧
  State.reset.pmu.sources = 0xFF ∧ State.reset.pmu.avsTimeout = 1000 ∧
  (∀ d, (domain State.reset d).auto = true ∧ (domain State.reset d).wakes = 0) ∧
  (∀ n, (slotCh State.reset n).st = .empty ∧ (slotCh State.reset n).perst = true ∧
    (slotCh State.reset n).lock = false) ∧
  (∀ n, (weft State.reset n).st = .off ∧ (weft State.reset n).cfgVc = 8 ∧ (weft State.reset n).cfgFec = true) ∧
  (∀ t, (memType State.reset t).scrubOn = true ∧ (memType State.reset t).corrected = 0) ∧
  State.reset.prot.epoch = 0 ∧
  (∀ m, (mbx State.reset m).busy = false ∧ (mbx State.reset m).done = false) ∧
  (∀ n, (inst State.reset n).st = .disabled) ∧ (∀ l, (lane State.reset l).st = .off) ∧
  (∀ u, (port State.reset u).st = .off) ∧ State.reset.boot.warn = 100 ∧ State.reset.pending = []

/-- At reset no reaction of the fault collector waits. -/
def Obligations.ResetIsSettled : Prop :=
  settled State.reset

/-- A command's effect is atomic, the reactions of the fault collector that it brings about among it: from a state
in which none waits, every step leaves a state in which none waits, whatever the command. Rests on R320, R376. The
model's own choices in it: log entry 62. -/
def Obligations.EveryStepLeavesNoReactionWaiting : Prop :=
  ∀ (s t : State), settled s → step s = .next t → settled t

/-- Every command of the opcode table, with every operand and in every state, answers a next state in which no
reaction waits: nothing of the table is refused, and none of it stops the block. The model's own choices in it: log
entry 62. -/
def Obligations.EveryCommandCompletes : Prop :=
  ∀ (c : Instr) (s : State), ∃ t, exec c s = .next t ∧ settled t

/-- R380: an acknowledgement through flt.rec or FAULT_ACK makes a record invalid with count, cleared, escalated and
recoveries 0 and changes no other record and nothing outside the records; it is ignored while the record is
isolated; occurrences of the same clock come after it and are a fresh record's, and an occurrence after it is the
first cause of a fresh record. -/
def Obligations.AcknowledgementFreesTheRecord : Prop :=
  (∀ (b : BitVec 5) (c : BitVec 8) (k : Nat) (s : State),
    b.toNat < 20 → c ≠ 0 → k = b.toNat * 256 + c.toNat → settled s → (faultRec s.fault k).isolated = false →
    ((faultRec s.fault k).valid = false ∨ (faultRec s.fault k).lastFull ≠ s.tele.time ∨ (faultRec s.fault k).clkCount = 0) →
    ∃ t, exec (.faultAckWrite b c) s = .next t ∧ (faultRec t.fault k).valid = false ∧
      (faultRec t.fault k).count = 0 ∧ (faultRec t.fault k).cleared = false ∧
      (faultRec t.fault k).escalated = false ∧ (faultRec t.fault k).recoveries = 0 ∧
      (∀ j, j ≠ k → faultRec t.fault j = faultRec s.fault j) ∧
      t = { s with fault := { s.fault with recs := t.fault.recs } }) ∧
  (∀ (b : BitVec 5) (c : BitVec 8) (k : Nat) (s : State),
    b.toNat < 20 → c ≠ 0 → k = b.toNat * 256 + c.toNat → settled s → (faultRec s.fault k).isolated = false →
    (faultRec s.fault k).valid = true → (faultRec s.fault k).lastFull = s.tele.time → (faultRec s.fault k).clkCount ≠ 0 →
    ∃ t, exec (.faultAckWrite b c) s = .next t ∧ (faultRec t.fault k).valid = true ∧
      (faultRec t.fault k).count = (faultRec s.fault k).clkCount ∧
      (faultRec t.fault k).source = src16 (faultRec s.fault k).clkSource ∧
      (faultRec t.fault k).detail = (faultRec s.fault k).clkDetail ∧ (faultRec t.fault k).cleared = false ∧
      (faultRec t.fault k).escalated = false ∧ (faultRec t.fault k).recoveries = 0 ∧
      (∀ j, j ≠ k → faultRec t.fault j = faultRec s.fault j) ∧
      t = { s with fault := { s.fault with recs := t.fault.recs } }) ∧
  (∀ (r : Req) (b c : BitVec 8) (k : Nat) (s : State),
    serves 0x0B03 false r (wBytes 1 b ++ wBytes 1 c) s → b.toNat < 20 → c ≠ 0 → k = b.toNat * 256 + c.toNat →
    (faultRec s.fault k).isolated = false →
    ((faultRec s.fault k).valid = false ∨ (faultRec s.fault k).lastFull ≠ s.tele.time ∨ (faultRec s.fault k).clkCount = 0) →
    ∃ t, exec (.faultAck r b c) s = .next t ∧ (faultRec t.fault k).valid = false ∧
      (faultRec t.fault k).count = 0 ∧ (faultRec t.fault k).cleared = false ∧
      (faultRec t.fault k).escalated = false ∧ (faultRec t.fault k).recoveries = 0 ∧
      (∀ j, j ≠ k → faultRec t.fault j = faultRec s.fault j)) ∧
  (∀ (b : BitVec 5) (c : BitVec 8) (s : State),
    b.toNat < 20 → c ≠ 0 → settled s → (faultRec s.fault (b.toNat * 256 + c.toNat)).isolated = true →
    exec (.faultAckWrite b c) s = .next s) ∧
  (∀ (r : Req) (b c : BitVec 8) (s : State),
    serves 0x0B03 false r (wBytes 1 b ++ wBytes 1 c) s → b.toNat < 20 → c ≠ 0 →
    (faultRec s.fault (b.toNat * 256 + c.toNat)).isolated = true →
    exec (.faultAck r b c) s =
      .next (respond r 0x0B03 (wBytes 1 b ++ wBytes 1 c) { status := 0x0B02, detail := 0, payload := [] } s)) ∧
  (∀ (b c : Nat) (src : BitVec 32) (detail : BitVec 64) (s : State),
    c < 256 → s.mgmt.events.length < 4095 → (faultRec s.fault (b * 256 + c)).isolated = false →
    ((faultRec s.fault (b * 256 + c)).valid = false ∨ (faultRec s.fault (b * 256 + c)).lastFull ≠ s.tele.time ∨
      (faultRec s.fault (b * 256 + c)).clkCount = 0) →
    (faultRec (raise b c src detail (ackRec (b * 256 + c) s)).fault (b * 256 + c)).valid = true ∧
    (faultRec (raise b c src detail (ackRec (b * 256 + c) s)).fault (b * 256 + c)).count = 1 ∧
    (faultRec (raise b c src detail (ackRec (b * 256 + c) s)).fault (b * 256 + c)).source = src16 src ∧
    (faultRec (raise b c src detail (ackRec (b * 256 + c) s)).fault (b * 256 + c)).detail = detail ∧
    (faultRec (raise b c src detail (ackRec (b * 256 + c) s)).fault (b * 256 + c)).first
      = s.tele.time.setWidth 48)

/-- Frame of the commands that only read: one that firmware carries out changes nothing but the management core,
where its answer stands, and what leaves the block, whatever its operands; LANE_STATUS first brings the lane's
adaptation up to the present instant. The model's own choices in it: log entry 10. -/
def Obligations.ReadsChangeOnlyTheirAnswer : Prop :=
  (∀ (r : Req) (s : State), serves 0x0101 false r [] s →
    ∃ m e, exec (.deviceIdentify r) s = .next { s with mgmt := m, emits := e }) ∧
  (∀ (r : Req) (s : State), serves 0x0102 false r [] s →
    ∃ m e, exec (.deviceStatus r) s = .next { s with mgmt := m, emits := e }) ∧
  (∀ (r : Req) (f : BitVec 32) (k : BitVec 16) (s : State),
    serves 0x0104 false r (wBytes 4 f ++ wBytes 2 k ++ zeros 2) s →
    ∃ m e, exec (.eventRead r f k) s = .next { s with mgmt := m, emits := e }) ∧
  (∀ (r : Req) (s : State), serves 0x0205 false r [] s →
    ∃ m e, exec (.planStatus r) s = .next { s with mgmt := m, emits := e }) ∧
  (∀ (r : Req) (b : BitVec 16) (s : State), serves 0x0301 false r (wBytes 2 b) s →
    ∃ m e, exec (.bindingRead r b) s = .next { s with mgmt := m, emits := e }) ∧
  (∀ (r : Req) (p h : BitVec 8) (s : State), serves 0x0401 false r (wBytes 1 p ++ wBytes 1 h) s →
    ∃ m e, exec (.portStatus r p h) s = .next { s with mgmt := m, emits := e }) ∧
  (∀ (r : Req) (l : BitVec 8) (s : State), serves 0x0501 false r (wBytes 1 l) s →
    ∃ m e, exec (.weftStatus r l) s = .next { s with mgmt := m, emits := e }) ∧
  (∀ (r : Req) (l : BitVec 16) (s : State), serves 0x0601 false r (wBytes 2 l) s →
    ∃ m e, exec (.laneStatus r l) s =
      .next { (if 415 < l.toNat then s else adaptSync l.toNat s) with mgmt := m, emits := e }) ∧
  (∀ (r : Req) (b c : BitVec 8) (s : State), serves 0x0B01 false r (wBytes 1 b ++ wBytes 1 c) s →
    ∃ m e, exec (.faultRead r b c) s = .next { s with mgmt := m, emits := e }) ∧
  (∀ (r : Req) (f k : BitVec 16) (s : State), serves 0x0B02 false r (wBytes 2 f ++ wBytes 2 k) s →
    ∃ m e, exec (.faultList r f k) s = .next { s with mgmt := m, emits := e }) ∧
  (∀ (r : Req) (i : BitVec 32) (k : BitVec 16) (s : State), serves 0x0B06 false r (wBytes 4 i ++ wBytes 2 k) s →
    ∃ m e, exec (.faultLogRead r i k) s = .next { s with mgmt := m, emits := e }) ∧
  (∀ (r : Req) (s : State), serves 0x0C01 false r [] s →
    ∃ m e, exec (.powerStatus r) s = .next { s with mgmt := m, emits := e }) ∧
  (∀ (r : Req) (d : BitVec 16) (s : State), serves 0x0C03 false r (wBytes 2 d) s →
    ∃ m e, exec (.powerDomainRead r d) s = .next { s with mgmt := m, emits := e }) ∧
  (∀ (r : Req) (s : State), serves 0x0F03 false r [] s →
    ∃ m e, exec (.injectStatus r) s = .next { s with mgmt := m, emits := e })

/-- Frame of a write through the Device Control Window into a mailbox's request buffer (R312, R313): the eight
bytes written read back, every other byte of the buffer reads as before, and nothing else changes, no other mailbox
among it; a busy mailbox takes nothing. The model's own choices in it: log entry 15. -/
def Obligations.RequestBufferWritesReachTheirBytes : Prop :=
  (∀ (m o : Nat) (v : BitVec 512) (w : BitVec 26) (s : State),
    m < 4 → o < 0x8000 → o % 8 = 0 → w.toNat = 0x2000 + m * 0x20000 + o → settled s → (mbx s m).busy = false →
    ∃ t, exec (.registerWrite w 8 v) s = .next t ∧
      (∀ k, k < 8 → tabGet 0 (mbx t m).req (o + k) = fld v (8 * k) 8) ∧
      (∀ a, (a < o ∨ o + 8 ≤ a) → tabGet 0 (mbx t m).req a = tabGet 0 (mbx s m).req a) ∧
      mbx t m = { mbx s m with req := (mbx t m).req } ∧ (∀ n, n ≠ m → mbx t n = mbx s n) ∧
      t = { s with mgmt := { s.mgmt with mbx := t.mgmt.mbx } }) ∧
  (∀ (m o : Nat) (v : BitVec 512) (w : BitVec 26) (s : State),
    m < 4 → o < 0x8000 → o % 8 = 0 → w.toNat = 0x2000 + m * 0x20000 + o → settled s → (mbx s m).busy = true →
    exec (.registerWrite w 8 v) s = .next s)

/-- An event is queued with the next sequence number; with 4,095 records waiting it is written as EVENT_LOST; after
that records are not added, and those there keep their numbers; the queue never holds more than 4,096. Rests on
R322. -/
def Obligations.EventQueueHolds4096Records : Prop :=
  (∀ (type : BitVec 16) (data : BitVec 128) (s : State), s.mgmt.events.length < 4095 →
    (queueEvent type data s).mgmt.events = s.mgmt.events ++
      [{ seq := s.mgmt.head, type := type, stamp := s.tele.time.setWidth 48, data := data }] ∧
    (queueEvent type data s).mgmt.head = s.mgmt.head + 1) ∧
  (∀ (type : BitVec 16) (data : BitVec 128) (s : State), s.mgmt.events.length = 4095 →
    ∃ e, (queueEvent type data s).mgmt.events = s.mgmt.events ++ [e] ∧ e.type = 7 ∧ e.seq = s.mgmt.head ∧
      (queueEvent type data s).mgmt.head = s.mgmt.head + 1) ∧
  (∀ (type : BitVec 16) (data : BitVec 128) (s : State), s.mgmt.events.length = 4096 →
    (queueEvent type data s).mgmt.events.map (·.seq) = s.mgmt.events.map (·.seq) ∧
    (queueEvent type data s).mgmt.head = s.mgmt.head) ∧
  (∀ (type : BitVec 16) (data : BitVec 128) (s : State), s.mgmt.events.length ≤ 4096 →
    (queueEvent type data s).mgmt.events.length ≤ 4096)

/-- R382: FAULT_CONFIG and flt.cfg set a level and a ceiling of 0 to 4; a level or a ceiling below the code's
default is ignored for classes U2 and F; a ceiling below the level acts as the level; records and what is isolated
stay. -/
def Obligations.FaultConfigurationKeepsDefaults : Prop :=
  (∀ (r : Req) (b c : BitVec 8) (w : BitVec 64) (k : Nat) (s : State),
    serves 0x0B05 false r (wBytes 1 b ++ wBytes 1 c ++ zeros 2 ++ wBytes 8 w) s → b.toNat < 20 → c ≠ 0 →
    k = b.toNat * 256 + c.toNat → (fld w 0 3 : BitVec 3).toNat ≤ 4 → (fld w 3 3 : BitVec 3).toNat ≤ 4 →
    ∃ t, exec (.faultConfig r b c w) s = .next t ∧ t.fault.recs = s.fault.recs ∧
      t.fault.safeStop = s.fault.safeStop ∧ (∀ j, j ≠ k → faultCfg t.fault j = faultCfg s.fault j) ∧
      (faultClass k < 3 → (faultCfg t.fault k).level = fld w 0 3 ∧ (faultCfg t.fault k).ceiling = fld w 3 3) ∧
      ((defaultCfg k).level.toNat ≤ (fld w 0 3 : BitVec 3).toNat → (faultCfg t.fault k).level = fld w 0 3) ∧
      ((defaultCfg k).ceiling.toNat ≤ (fld w 3 3 : BitVec 3).toNat → (faultCfg t.fault k).ceiling = fld w 3 3) ∧
      (3 ≤ faultClass k → (fld w 0 3 : BitVec 3).toNat < (defaultCfg k).level.toNat →
        (faultCfg t.fault k).level = (faultCfg s.fault k).level) ∧
      (3 ≤ faultClass k → (fld w 3 3 : BitVec 3).toNat < (defaultCfg k).ceiling.toNat →
        (faultCfg t.fault k).ceiling = (faultCfg s.fault k).ceiling)) ∧
  (∀ (o : BitVec 26) (v : BitVec 512) (k : Nat) (s : State),
    k < 5120 → k % 256 ≠ 0 → o.toNat = 0x140000 + 8 * k → settled s →
    (fld v 0 3 : BitVec 3).toNat ≤ 4 → (fld v 3 3 : BitVec 3).toNat ≤ 4 →
    exec (.registerWrite o 8 v) s = .next { s with
      fault := setFaultCfg s.fault k (cfgWrite k (v.setWidth 64) (faultCfg s.fault k)) }) ∧
  (∀ (cfg : FaultCfg) (cls : Nat) (x : FaultRec), cfg.ceiling.toNat ≤ cfg.level.toNat →
    reactLevel cfg cls x = cfg.level.toNat)

/-- A CXL.mem request taken at an upstream port that is UP and in L0 is counted at its xp and presented to decode,
and waits where its port has stopped decoding; a page entry's fetch ends with the entry cached or, after two
uncorrectable copies, invalid with HEDL-0x0022, and the requests that waited for it decoded in order; an address
that lies in no window is a decode miss with cause 1. Rests on R61, R71, R72 and R69. The model's own choices in
it: log entries 8, 26, 35, 124, 130, 132. -/
def Obligations.HostRequestsAreDecoded : Prop :=
  (∀ (u : BitVec 7) (op : Op) (mv : MetaV) (hpa : BitVec 64) (tag : BitVec 16) (data : BitVec 512) (mask : BitVec 64)
      (poison : Bool) (ue : DecodeUe) (s : State),
    s.fault.safeStop = false → (port s u.toNat).st = .up → (port s u.toNat).inL0 = true →
    (port s u.toNat).role = 1 → isRequest op = true →
    exec (.hostRequestDecode u op mv hpa tag data mask poison ue) s =
      .next (settle (hostRequest (hostMsg s u op mv tag data mask poison) u.toNat hpa ue
        (countIn (queueXp s (u.toNat / 2)) (hostMsg s u op mv tag data mask poison) s)))) ∧
  (∀ (page : BitVec 23) (first second : Ecc) (ue : DecodeUe) (s : State), s.fault.safeStop = false →
    (∃ d, d ∈ s.plan.pageWait ∧ d.page = page.toNat) →
    exec (.pageEntryFetchDone page first second ue) s =
      .next (settle (redecodeAll (s.plan.pageWait.filter fun d => decide (d.page = page.toNat)) ue
        (pageArrived page.toNat first second s)))) ∧
  (∀ (pi : Nat) (first second : Ecc) (s t : State), (mirrorRead (pi * 32) first second s).2 = t →
    pageArrived pi first second s =
      if (mirrorRead (pi * 32) first second s).1 then
        raise 6 0x22 (source 0 0) (BitVec.ofNat 64 pi) { t with plan := { t.plan with
          pageWait := t.plan.pageWait.filter (fun d => !decide (d.page = pi)), pageBad := t.plan.pageBad ++ [pi] } }
      else cachePage pi { t with plan := { t.plan with
          pageWait := t.plan.pageWait.filter fun d => !decide (d.page = pi) } }) ∧
  (∀ (m : Msg) (u : Nat) (hpa : BitVec 64) (ue : DecodeUe) (s t : State),
    portBlocked s u = false → decodeOff s = false →
    t = badWord ((List.range 16).map fun w => (2, 16 * u + w)) ue s →
    ((List.range 16).any fun w => tableBad t 2 (16 * u + w)) = false → windowOf t u hpa.toNat = none →
    hostRequest m u hpa ue s = errorCompletion m (decodeMiss (source 1 u) 1 hpa.toNat t)) ∧
  (∀ (m : Msg) (u : Nat) (hpa : BitVec 64) (ue : DecodeUe) (s : State),
    (portBlocked s u || decodeOff s) = true → hostRequest m u hpa ue s = block m hpa s)

/-- The 0x03 Nib family on a binding whose state the spec's transition table lets the command act on; a binding due
at a frame boundary enters ACTIVE there, and a hold timer that reaches its limit expires. Rests on R77, R78, R80,
R89, R201, Table 3-11. The model's own choices in it: log entries 8, 10, 13, 76, 103, 125. -/
def Obligations.BindingCommandsAct : Prop :=
  (∀ (r : Req) (b : BitVec 16) (s : State), serves 0x0301 false r (wBytes 2 b) s → b.toNat < 8192 →
    exec (.bindingRead r b) s = .next (settle (respond r 0x0301 (wBytes 2 b)
      (ok (wBytes 64 (ctx s b.toNat) ++ wBytes 4 (brun s b.toNat).outstanding ++ leBytes 4 (heldOf s b.toNat)
        ++ leBytes 4 (min (match (brun s b.toNat).holdStart with
            | some t => (s.tele.time - t).toNat / usTicks
            | none => 0) (2 ^ 32 - 1))
        ++ wBytes 8 (brun s b.toNat).refused)) s))) ∧
  (∀ (r : Req) (b : BitVec 16) (s : State), serves 0x0302 false r (wBytes 2 b) s → b.toNat < 8192 →
    planBusy s = false → bstate s b.toNat = 1 →
    exec (.bindingActivate r b) s = .next (settle (respond r 0x0302 (wBytes 2 b)
      (ok (wBytes 8 (BitVec.ofNat 64 (nextFrame (now s)))))
      (setBrun b.toNat { brun s b.toNat with activateAt := some (BitVec.ofNat 64 (nextFrame (now s))) } s)))) ∧
  (∀ (r : Req) (b : BitVec 16) (s : State), serves 0x0303 false r (wBytes 2 b) s → b.toNat < 8192 →
    bstate s b.toNat = 2 →
    exec (.bindingFreeze r b) s = .next (settle (respond r 0x0303 (wBytes 2 b) ok
      (setBrun b.toNat { brun s b.toNat with violated := false } (setBstate b.toNat 3 s))))) ∧
  (∀ (r : Req) (b : BitVec 16) (s : State), serves 0x0304 false r (wBytes 2 b) s → b.toNat < 8192 →
    planBusy s = false → bstate s b.toNat = 3 →
    exec (.bindingThaw r b) s = .next (settle (respond r 0x0304 (wBytes 2 b) ok (setBstate b.toNat 2 s)))) ∧
  (∀ (r : Req) (b f : BitVec 16) (s : State), serves 0x0305 false r (wBytes 2 b ++ wBytes 2 f) s → b.toNat < 8192 →
    f = 0 → planBusy s = false → bstate s b.toNat = 2 → s.mgmt.tickets.length < 256 →
    exec (.bindingDrain r b f) s = .next (settle (respond r 0x0305 (wBytes 2 b ++ wBytes 2 f)
      (rep 1 (nextTicketNum s).toNat) (drainCheck b.toNat (setBrun b.toNat
        { brun s b.toNat with drainTickets := (brun s b.toNat).drainTickets ++ [nextTicketNum s] }
        (setBstate b.toNat 5 (holdTicket 0x0305 r s))))))) ∧
  (∀ (r : Req) (b : BitVec 16) (s : State), serves 0x0306 false r (wBytes 2 b) s → b.toNat < 8192 →
    planBusy s = false → bstate s b.toNat = 4 →
    (∀ x, x < 56 → bit (ctxTargets (ctx s b.toNat)) x = true → targetReady s x = true) →
    exec (.bindingReattach r b) s = .next (settle (respond r 0x0306 (wBytes 2 b) ok (setBstate b.toNat 2 s)))) ∧
  (∀ (r : Req) (b : BitVec 16) (l : BitVec 32) (s : State),
    serves 0x0307 false r (wBytes 2 b ++ zeros 2 ++ wBytes 4 l) s → b.toNat < 8192 → planBusy s = false →
    exec (.bindingSetHold r b l) s = .next (settle (respond r 0x0307 (wBytes 2 b ++ zeros 2 ++ wBytes 4 l) ok
      (setCtx b.toNat (ctxWithHold (ctx s b.toNat) l) s)))) ∧
  (∀ (r : Req) (p w : BitVec 8) (s : State), serves 0x0308 false r (wBytes 1 p ++ wBytes 1 w) s → p.toNat < 96 →
    w.toNat < 16 →
    exec (.windowRead r p w) s = .next (settle (respond r 0x0308 (wBytes 1 p ++ wBytes 1 w)
      (ok (wBytes 32 (tabGet 0 s.plan.active.window (16 * p.toNat + w.toNat)))) s))) ∧
  (∀ (r : Req) (p : BitVec 8) (hpa : BitVec 64) (s : State),
    serves 0x0309 false r (wBytes 1 p ++ zeros 3 ++ wBytes 8 hpa) s → p.toNat < 96 →
    exec (.decodeProbe r p hpa) s = .next (settle (respond r 0x0309 (wBytes 1 p ++ zeros 3 ++ wBytes 8 hpa)
      (ok (probeBytes s (decodeHost s p.toNat hpa.toNat).1)) s))) ∧
  (∀ (r : Req) (k : BitVec 8) (s : State), serves 0x030A false r (wBytes 1 k) s → k.toNat < 16 →
    (migSlot s k.toNat).st = .copying →
    ∃ q : Reply, q.status = 0 ∧ q.payload = [1] ++ wBytes 4 (migSlot s k.toNat).page
        ++ leBytes 4 (migSlot s k.toNat).watermark.toNat ++ wBytes 1 (migSlot s k.toNat).span
        ++ leBytes 2 (migSlot s k.toNat).stall.length ∧
      exec (.migrationStatus r k) s = .next (settle (respond r 0x030A (wBytes 1 k) q s))) ∧
  (∀ (s v : State) (b : Nat) (t : BitVec 64), dueBindings s = some (t.toNat, [b]) → v = trafSync (reach t.toNat s) →
    bstate v b = 1 →
    exec .bindingActivationBoundary s = .next (settle (activateBinding b
      (setBrun b { brun v b with activateAt := none } v)))) ∧
  (∀ (b : BitVec 13) (t : BitVec 64) (s : State), (brun s b.toNat).holdStart = some t →
    (brun s b.toNat).expired = false → canHold s b.toNat = true → ctxHold (ctx s b.toNat) < 2 ^ 32 - 1 →
    now s ≤ t.toNat + ctxHold (ctx s b.toNat) * usTicks →
    exec (.holdExpired b) s =
      .next (settle (expireHold b.toNat (reach (t.toNat + ctxHold (ctx s b.toNat) * usTicks) s)))) ∧
  (∀ (b : BitVec 13) (t : BitVec 64) (s : State), (brun s b.toNat).holdStart = some t →
    (brun s b.toNat).expired = false → canHold s b.toNat = true → ctxHold (ctx s b.toNat) < 2 ^ 32 - 1 →
    t.toNat + ctxHold (ctx s b.toNat) * usTicks < now s →
    exec (.holdExpired b) s =
      .next (settle (expireHold b.toNat (reach ((now s / usTicks + 1) * usTicks) s))))

/-- Messages of a port that is UP and in L0: a flit that passes CRC, a response under a tag of the map, a CXL.io
request through a vPPB, and the message that an output's transmitter takes. Rests on R105, R19, R238, R241, R205,
R478. The model's own choices in it: log entries 57, 58, 61, 120, 121, 124, 136, 142. -/
def Obligations.PortMessagesPass : Prop :=
  (∀ (u : BitVec 7) (k : FlitCheck) (s : State), (port s u.toNat).inL0 = true → k.crcOk = true →
    exec (.cxlFlitReceive u false k false none) s = .next (settle (setPort u.toNat
      { port s u.toNat with replay := (port s u.toNat).replay.drop k.acks.toNat } s))) ∧
  (∀ (u : BitVec 7) (k : FlitCheck) (q : PbrMsg) (s : State), (port s u.toNat).inL0 = true → k.crcOk = true →
    (port s u.toNat).st = .up → (port s u.toNat).role = 3 → (prFlag (govRec s u.toNat) 1 = false ∨ k.macOk = true) →
    exec (.cxlFlitReceive u false k false (some q)) s = .next (settle (pbrMessage u.toNat q (setPort u.toNat
      { port s u.toNat with replay := (port s u.toNat).replay.drop k.acks.toNat } s)))) ∧
  (∀ (u : BitVec 7) (k : FlitCheck) (b : Bool) (q : Option PbrMsg) (s : State), (port s u.toNat).inL0 = true →
    k.crcOk = false → exec (.cxlFlitReceive u false k b q) s = .next (settle (portCnt u.toNat 1 1 s))) ∧
  (∀ (u : BitVec 7) (tag : BitVec 16) (op : Op) (mv : MetaV) (data : BitVec 512) (k : RspMark) (e : TagUse)
      (s : State), (port s u.toNat).st = .up → (port s u.toNat).inL0 = true →
    tabGet none (port s u.toNat).tags tag.toNat = some e →
    exec (.cxlResponseReceive u tag op mv data k) s = .next (settle (answered u.toNat e.msg op mv data k.poison
      k.devLoad (setPort u.toNat { port s u.toNat with tags := tabSet none (port s u.toNat).tags tag.toNat none } s)))) ∧
  (∀ (u : BitVec 7) (tag : BitVec 16) (op : Op) (mv : MetaV) (data : BitVec 512) (k : RspMark) (s : State),
    (port s u.toNat).st = .up → (port s u.toNat).inL0 = true → tabGet none (port s u.toNat).tags tag.toNat = none →
    exec (.cxlResponseReceive u tag op mv data k) s = .next (settle (portCnt u.toNat 4 1 s))) ∧
  (∀ (u : BitVec 7) (via : BitVec 4) (op : Op) (tag : BitVec 16) (data : BitVec 512) (len : BitVec 16)
      (v : VppbBind) (s : State), (port s u.toNat).st = .up → (port s u.toNat).inL0 = true → (port s u.toNat).role = 1 →
    opClass op = 5 → vppbOf s u.toNat via.toNat = some v →
    exec (.cxlIoMessage u (.vppb via) op tag data len) s =
      .next (settle (ioSend u.toNat v.port (u.toNat * 16 + via.toNat) v.ld op tag data len.toNat false s))) ∧
  (∀ (u : BitVec 7) (via : BitVec 4) (g : SwitchReg) (w : BitVec 32) (tag : BitVec 16) (data : BitVec 512)
      (len : BitVec 16) (s : State), (port s u.toNat).st = .up → (port s u.toNat).inL0 = true →
    (port s u.toNat).role = 1 → switchReady s g = true → switchReg s u.toNat via.toNat g = some w →
    exec (.cxlIoMessage u (.reg via g) .ioNonPosted tag data len) s = .next (settle (ioOwn u.toNat tag w s))) ∧
  (∀ (u : BitVec 7) (via : BitVec 4) (g : SwitchReg) (tag : BitVec 16) (data : BitVec 512) (len : BitVec 16)
      (s : State), (port s u.toNat).st = .up → (port s u.toNat).inL0 = true → (port s u.toNat).role = 1 →
    switchReady s g = false →
    exec (.cxlIoMessage u (.reg via g) .ioNonPosted tag data len) s = .next (settle (ioRetry u.toNat tag s))) ∧
  (∀ (xp : BitVec 6) (credits : BitVec 8) (sc mc : Nat) (e : EMsg) (s : State), s.fault.safeStop = false →
    xp.toNat < 48 → pickStaged s xp.toNat (portTakes s xp.toNat credits) = some (sc, mc, e) →
    exec (.egressSelect xp credits) s =
      .next (settle (portSend xp.toNat (outPort s xp.toNat e.msg) (delivered e) (takeStaged xp.toNat sc mc e s))))

/-- The link events of a logical port in the states in which the spec lets them act. Rests on R235, R234, R243,
R232, R237, R233, R238, R248, R231. The model's own choices in it: log entries 8, 28, 34, 40, 123. -/
def Obligations.PortEventsAct : Prop :=
  (∀ (u : BitVec 7) (retry : Bool) (s : State), (port s u.toNat).st = .up → (port s u.toNat).inL0 = true →
    (port s u.toNat).symptom = none →
    exec (.portSymptom u retry) s = .next (settle (setPort u.toNat { port (leaveL0 u.toNat s) u.toNat with
      symptom := some (if retry then .retry else .link, s.tele.time) } (leaveL0 u.toNat s)))) ∧
  (∀ (u : BitVec 7) (c : DownCause) (t : BitVec 64) (s : State), (port s u.toNat).symptom = some (c, t) →
    exec (.portDownDeclare u) s =
      .next (settle (portDown u.toNat c (reach (t.toNat + prDetect (govRec s u.toNat) * usTicks) s)))) ∧
  (∀ (u : BitVec 7) (s : State), (port s u.toNat).role = 1 → (port s u.toNat).st ≠ .off →
    exec (.hostHotReset u) s = .next (settle (portLost u.toNat .link
      (setPort u.toNat { port s u.toNat with session := (port s u.toNat).session + 1 } s)))) ∧
  (∀ (u : BitVec 7) (s : State), prFlag (govRec s u.toNat) 1 = true → (port s u.toNat).st = .up →
    exec (.ideFail u) s = .next (settle (portDown u.toNat .ide
      (raiseFree 0 0x10 (source 1 u.toNat) (countErr (u.toNat / 2) (portCnt u.toNat 6 1 s)))))) ∧
  (∀ (u : BitVec 7) (rate : BitVec 3) (width : BitVec 5) (f l rec : Bool) (t : BitVec 64) (s v : State),
    (port s u.toNat).inL0 = false → trainOk s u.toNat rate.toNat width.toNat f l = true →
    (port s u.toNat).symptom = some (.link, t) → now s < t.toNat + prDetect (govRec s u.toNat) * usTicks →
    v = portCnt u.toNat 2 1 (linkAt u.toNat rate width f l s) →
    exec (.portL0Entry u rate width f l rec) s = .next (settle
      (setPort u.toNat { port v u.toNat with symptom := none, recoveries := (port s u.toNat).recoveries + 1 } v))) ∧
  (∀ (u : BitVec 7) (rate : BitVec 3) (width : BitVec 5) (f l rec : Bool) (s : State),
    (port s u.toNat).inL0 = false → trainOk s u.toNat rate.toNat width.toNat f l = true →
    (port s u.toNat).symptom = none → (port s u.toNat).retrain = none → (port s u.toNat).st = .training →
    portReady s u.toNat = true →
    exec (.portL0Entry u rate width f l rec) s = .next (settle
      (setPort u.toNat { port (linkAt u.toNat rate width f l s) u.toNat with
        st := .confirm, since := stamp (linkAt u.toNat rate width f l s), retrain := none, rateCap := none,
        idDiffers := false, pendingIdent := 0, pendingLdMap := 0, confirmRaised := false } (linkAt u.toNat rate width f l s)))) ∧
  (∀ (u : BitVec 7) (ident ldMap : BitVec 64) (secure : Bool) (s : State), (port s u.toNat).st = .confirm →
    (port s u.toNat).inL0 = true → (port s u.toNat).idDiffers = false → prFlag (govRec s u.toNat) 1 = false →
    ((port s u.toNat).recorded = false ∨ sameIdent (port s u.toNat) ident ldMap = true) →
    exec (.portConfirm u ident ldMap secure) s = .next (settle (portUp u.toNat (recordIdent u.toNat ident ldMap
      (expireDue (queueXp s (u.toNat / 2)) u.toNat s))))) ∧
  (∀ (u : BitVec 7) (ident ldMap : BitVec 64) (secure : Bool) (s v : State), (port s u.toNat).st = .confirm →
    (port s u.toNat).inL0 = true → (port s u.toNat).idDiffers = false → prFlag (govRec s u.toNat) 1 = true →
    ideKeyed u.toNat secure s = some v →
    ((port s u.toNat).recorded = false ∨ sameIdent (port s u.toNat) ident ldMap = true) →
    exec (.portConfirm u ident ldMap secure) s = .next (settle (portUp u.toNat (recordIdent u.toNat ident ldMap
      (expireDue (queueXp v (u.toNat / 2)) u.toNat v))))) ∧
  (∀ (u : BitVec 7) (s : State), (port s u.toNat).st = .confirm → (port s u.toNat).role = 2 →
    (port s u.toNat).confirmRaised = false →
    exec (.confirmTimeout u) s = .next (settle (raiseFree 0 3 (source 1 u.toNat)
      (setPort u.toNat { port s u.toNat with confirmRaised := true }
        (reach ((port s u.toNat).l0At.toNat + 2 * msTicks) s))))) ∧
  (∀ (u : BitVec 7) (tag : BitVec 16) (e : TagUse) (s : State), (port s u.toNat).inL0 = true →
    tabGet none (port s u.toNat).tags tag.toNat = some e → e.msg.mclass ≠ 3 →
    exec (.portTagTimeout u tag) s = .next (settle (raiseFree 0 0x20 (source 1 u.toNat) (portCnt u.toNat 5 1
      (resolveSent u.toNat e.msg (setPort u.toNat
        { port s u.toNat with tags := tabSet none (port s u.toNat).tags tag.toNat none }
        (reach (e.since.toNat + prTagMs (govRec s u.toNat) * msTicks) s))).2)))) ∧
  (∀ (u : BitVec 7) (t : BitVec 64) (s : State), (port s u.toNat).retrain = some t →
    exec (.retrainTimeout u) s = .next (settle (portDown u.toNat .link (reach (t.toNat + 100 * msTicks) s)))) ∧
  (∀ (u : BitVec 7) (c : LinkCmd) (cs : List LinkCmd) (s : State), (port s u.toNat).cmds = c :: cs →
    (port s u.toNat).st = .up →
    exec (.portCommandComplete u) s =
      .next (settle (finishTicket c.ticket ok (setPort u.toNat { port s u.toNat with cmds := cs } s)))) ∧
  (∀ (u : BitVec 7) (s : State), ((port s u.toNat).st = .detect ∨ (port s u.toNat).st = .down) →
    portReady s u.toNat = true →
    exec (.receiverDetect u) s =
      .next (settle (equalise 0 (lanesOf s u.toNat) (setPortSt u.toNat .training s)))) ∧
  (∀ (u : BitVec 7) (d : BitVec 4) (o : BitVec 8) (v : BitVec 32) (s : State),
    exec (.hdmDecoderWrite u d o v) s = .next (settle s))

/-- The 0x04 Nib family on a half that exists. Rests on R248. The model's own choices in it: log entries 10, 12. -/
def Obligations.PortCommandsAct : Prop :=
  (∀ (r : Req) (p h : BitVec 8) (s : State), serves 0x0401 false r (wBytes 1 p ++ wBytes 1 h) s → h.toNat ≤ 1 →
    halfExists s p.toNat h.toNat = true → (port s (2 * p.toNat + h.toNat)).idDiffers = false →
    exec (.portStatus r p h) s = .next (settle (respond r 0x0401 (wBytes 1 p ++ wBytes 1 h)
      (ok (wBytes 8 (portStatusWord (port s (2 * p.toNat + h.toNat)))
        ++ wBytes 8 (portLinkWord (port s (2 * p.toNat + h.toNat)))
        ++ wBytes 8 (port s (2 * p.toNat + h.toNat)).ident ++ wBytes 8 (port s (2 * p.toNat + h.toNat)).ldMap
        ++ wBytes 8 (0 : BitVec 64)
        ++ ((List.range 8).map fun k => wBytes 8 (tabGet 0 (port s (2 * p.toNat + h.toNat)).cnt k)).flatten)) s))) ∧
  (∀ (r : Req) (p h : BitVec 8) (s : State), serves 0x0402 false r (wBytes 1 p ++ wBytes 1 h) s → h.toNat ≤ 1 →
    halfExists s p.toNat h.toNat = true → (port s (2 * p.toNat + h.toNat)).st = .confirm →
    (port s (2 * p.toNat + h.toNat)).idDiffers = true → (port s (2 * p.toNat + h.toNat)).inL0 = true →
    exec (.portAcceptIdentity r p h) s = .next (settle (respond r 0x0402 (wBytes 1 p ++ wBytes 1 h)
      (ok (wBytes 8 (port s (2 * p.toNat + h.toNat)).pendingIdent))
      (portUp (2 * p.toNat + h.toNat) (recordIdent (2 * p.toNat + h.toNat)
        (port s (2 * p.toNat + h.toNat)).pendingIdent (port s (2 * p.toNat + h.toNat)).pendingLdMap
        (setPort (2 * p.toNat + h.toNat) { port s (2 * p.toNat + h.toNat) with idDiffers := false } s)))))) ∧
  (∀ (r : Req) (p h rate : BitVec 8) (s : State),
    serves 0x0403 false r (wBytes 1 p ++ wBytes 1 h ++ wBytes 1 rate) s → h.toNat ≤ 1 →
    halfExists s p.toNat h.toNat = true → rate.toNat ≤ 6 → rate.toNat ≤ prRate (govRec s (2 * p.toNat + h.toNat)) →
    s.mgmt.tickets.length < 256 →
    exec (.portRetrain r p h rate) s = .next (settle (respond r 0x0403 (wBytes 1 p ++ wBytes 1 h ++ wBytes 1 rate)
      (portPend 0x0403 r (2 * p.toNat + h.toNat) 0 (retrainPort (2 * p.toNat + h.toNat) (some (rate.setWidth 3))) s).1
      (portPend 0x0403 r (2 * p.toNat + h.toNat) 0 (retrainPort (2 * p.toNat + h.toNat) (some (rate.setWidth 3))) s).2)) ∧
    (portPend 0x0403 r (2 * p.toNat + h.toNat) 0 (retrainPort (2 * p.toNat + h.toNat) (some (rate.setWidth 3))) s).1
      = rep 1 (nextTicketNum s).toNat) ∧
  (∀ (r : Req) (p h : BitVec 8) (s : State), serves 0x0404 false r (wBytes 1 p ++ wBytes 1 h) s → h.toNat ≤ 1 →
    halfExists s p.toNat h.toNat = true → s.mgmt.tickets.length < 256 →
    ∃ t : State, t = portStop (2 * p.toNat + h.toNat) (setPort (2 * p.toNat + h.toNat)
        { port s (2 * p.toNat + h.toNat) with disabled := true } (holdTicket 0x0404 r s)) ∧
      exec (.portDisable r p h) s = .next (settle (respond r 0x0404 (wBytes 1 p ++ wBytes 1 h)
        (rep 1 (nextTicketNum s).toNat) (setPort (2 * p.toNat + h.toNat) { port t (2 * p.toNat + h.toNat) with
          cmds := (port t (2 * p.toNat + h.toNat)).cmds ++
            [{ ticket := nextTicketNum s, kind := 1, since := s.tele.time }] } t)))) ∧
  (∀ (r : Req) (p h : BitVec 8) (s : State), serves 0x0405 false r (wBytes 1 p ++ wBytes 1 h) s → h.toNat ≤ 1 →
    halfExists s p.toNat h.toNat = true → s.mgmt.tickets.length < 256 →
    (∀ l, l ∈ lanesOf s (2 * p.toNat + h.toNat) → (lane s l).testing = false) →
    ∃ t : State, t = portRelease (2 * p.toNat + h.toNat) (setPort (2 * p.toNat + h.toNat)
        { port s (2 * p.toNat + h.toNat) with disabled := false } (holdTicket 0x0405 r s)) ∧
      exec (.portEnable r p h) s = .next (settle (respond r 0x0405 (wBytes 1 p ++ wBytes 1 h)
        (rep 1 (nextTicketNum s).toNat) (setPort (2 * p.toNat + h.toNat) { port t (2 * p.toNat + h.toNat) with
          cmds := (port t (2 * p.toNat + h.toNat)).cmds ++
            [{ ticket := nextTicketNum s, kind := 2, since := s.tele.time }] } t)))) ∧
  (∀ (r : Req) (p h : BitVec 8) (s : State), serves 0x0406 false r (wBytes 1 p ++ wBytes 1 h) s → h.toNat ≤ 1 →
    halfExists s p.toNat h.toNat = true →
    exec (.portCountersClear r p h) s = .next (settle (respond r 0x0406 (wBytes 1 p ++ wBytes 1 h) ok
      (setPort (2 * p.toNat + h.toNat) { port s (2 * p.toNat + h.toNat) with cnt := [] } s))))

/-- An input of the reference is lost and returns, a lane loses its signal, its equalisation converges, and a tap
stays at its limit. Rests on R287, R292, R293. The model's own choices in it: log entries 8, 28, 40, 64, 137. -/
def Obligations.LaneSignalEventsAct : Prop :=
  (∀ (input : BitVec 2) (s : State),
    input.toNat ≤ 2 → bit s.lane.present input.toNat = true →
    exec (.refLost input) s = .next (settle ((quadsOf s input.toNat).foldl (fun s q => quadUnlock q s)
      (raiseFreeCond 2 0x30 (source 0 0)
      { s with lane := { s.lane with present := s.lane.present &&& ~~~ (1#3 <<< input.toNat) } })))) ∧
  (∀ (input : BitVec 2) (t : State) (s : State),
    input.toNat ≤ 2 → bit s.lane.present input.toNat = false →
    t = (quadsOf s input.toNat).foldl (fun s q => quadTouch q (condGone 2 0x31 (source 10 q) s))
    { s with lane := { s.lane with present := s.lane.present ||| (1#3 <<< input.toNat) } } →
    exec (.refRestored input) s = .next (settle (if t.lane.present = 7 then condGone 2 0x30 (source 0 0) t else
      t))) ∧
  (∀ (l : BitVec 9) (s : State),
    l.toNat < 416 →
    exec (.laneLossOfSignal l) s = .next (settle (signalLost l.toNat s))) ∧
  (∀ (l : BitVec 9) (ctle : BitVec 5) (h a : BitVec 8) (fp : BitVec 24) (inv : Bool) (p : BitVec 128)
      (s : State),
    l.toNat < 416 → (lane s l.toNat).preset = some p → (lane s l.toNat).st = .l0 ∨ (lane s l.toNat).st = .test →
    (lane s l.toNat).converged = false → psUnused p = false → convergeOk p ctle h a fp = true →
    exec (.laneConverged l ctle h a fp inv) s = .next (settle (setLane l.toNat { lane s l.toNat with
        converged := true, ctle := ctle, h1 := h, h2 := a, floatPos := fp, rxInv := inv, adaptAt := s.tele.time }
      s))) ∧
  (∀ (l : BitVec 9) (t : State) (s : State),
    l.toNat < 416 → (lane s l.toNat).st = .l0 →
    t = setLane l.toNat
    { lane s l.toNat with limitHits := satAdd (lane s l.toNat).limitHits 1, limitRaised := true } s →
    exec (.adaptAtLimit l) s = .next (settle (if (lane s l.toNat).limitRaised then t else raiseFree 2 0x10
      (source 10 (l.toNat / 4)) t)))

/-- L0p narrowing, its request, widening, its failure and retry, and ASPM L1 entry and exit. Rests on R295 to R299.
The model's own choices in it: log entries 8, 39, 40. -/
def Obligations.LanePowerEventsAct : Prop :=
  (∀ (u : BitVec 7) (acc : Bool) (t : State) (s : State),
    (port s u.toNat).l0p = false → mayNarrow s u.toNat = true →
    t = reach ((l0pOf s u.toNat).lastUse.toNat + (l0pOf s u.toNat).idleUs.toNat * usTicks) s →
    exec (.l0pNarrow u acc) s = .next (settle (if acc then l0pWidth u.toNat 1 (emit (.portAction u 4) (setL0p
      u.toNat { l0pOf s u.toNat with lastUse := t.tele.time, widenAt := none, failAt := none } t)) else setL0p
      u.toNat { l0pOf s u.toNat with lastUse := t.tele.time, widenAt := none, failAt := none } t))) ∧
  (∀ (u : BitVec 7) (s : State),
    (port s u.toNat).st = .up → (port s u.toNat).l0p = false → mayNarrow s u.toNat = true →
    exec (.l0pNarrowRequest u) s = .next (settle (l0pWidth u.toNat 1 (emit (.portAction u 5) s)))) ∧
  (∀ (u : BitVec 7) (s : State),
    (port s u.toNat).st = .up → (port s u.toNat).l0p = false → mayNarrow s u.toNat = false →
    exec (.l0pNarrowRequest u) s = .next (settle (emit (.portAction u 6) s))) ∧
  (∀ (u : BitVec 7) (partner : Bool) (s : State),
    (port s u.toNat).l0p = true → (port s u.toNat).st = .up → partner = true ∨ egressQueued s u.toNat = true →
    exec (.l0pWiden u partner) s = .next (settle (widen u.toNat s))) ∧
  (∀ (u : BitVec 7) (k : BitVec 5) (w : BitVec 64) (t : State) (s : State),
    (l0pOf s u.toNat).widenAt = some w → 0 < k.toNat → k.toNat < (port s u.toNat).trained.toNat →
    (port s u.toNat).st = .up → now s ≤ w.toNat + 5 * usTicks →
    t = l0pWidth u.toNat k.toNat (reach (w.toNat + 5 * usTicks) s) →
    exec (.widenFail u k) s = .next (settle (raiseFree 2 0x20 (source 1 u.toNat) (setL0p u.toNat
      { l0pOf s u.toNat with widenAt := none, failAt := some t.tele.time } t)))) ∧
  (∀ (u : BitVec 7) (t : BitVec 64) (s : State),
    (l0pOf s u.toNat).failAt = some t → (port s u.toNat).st = .up →
    exec (.widenRetry u) s = .next (settle (widen u.toNat (reach (t.toNat + msTicks) s)))) ∧
  (∀ (u : BitVec 7) (off : Bool) (t v : State) (ls : List Nat) (s : State),
    (port s u.toNat).st = .up → (port s u.toNat).inL0 = true → (port s u.toNat).role = 2 →
    prFlag (govRec s u.toNat) 2 = true → ls = (lanesOf s u.toNat).take (port s u.toNat).trained.toNat →
    t = lanesTo .l1Pll (port s u.toNat).rate.toNat ls (leaveL0 u.toNat s) →
    (v = if off && quadsRest t ls then lanesTo .l1NoPll (port s u.toNat).rate.toNat ls t else t) →
    exec (.aspmL1Entry u off) s = .next (settle (setL0p u.toNat { l0pOf v u.toNat with l1 := true } v))) ∧
  (∀ (u : BitVec 7) (t : State) (s : State),
    (l0pOf s u.toNat).l1 = true → (port s u.toNat).st = .up →
    t = enterL0 u.toNat (lanesTo .l0 (port s u.toNat).rate.toNat ((lanesOf s u.toNat).take (port s
    u.toNat).trained.toNat) s) →
    exec (.aspmL1Exit u) s = .next (settle (setL0p u.toNat
      { l0pOf t u.toNat with l1 := false, lastUse := t.tele.time } (setPort u.toNat
      { port t u.toNat with l0p := false, width := (port s u.toNat).trained } t))))

/-- An injected bit, the checker's lock and its loss, and the end of a margin scan. Rests on R300, R301, R302. The
model's own choices in it: log entries 38, 40. -/
def Obligations.LaneTestsAct : Prop :=
  (∀ (l : BitVec 9) (s : State),
    l.toNat < 416 → (lane s l.toNat).testing = true → (lane s l.toNat).mode = 1 →
    exec (.testInject l) s = .next (settle s)) ∧
  (∀ (l : BitVec 9) (s : State),
    l.toNat < 416 → (lane s l.toNat).testing = false → (lane s l.toNat).st = .off →
    exec (.testInject l) s = .next (settle (setLane l.toNat { lane s l.toNat with inject := true } s))) ∧
  (∀ (l : BitVec 9) (s : State),
    (lane s l.toNat).testing = true → checks (lane s l.toNat).mode.toNat = true →
    (lane s l.toNat).locked = false → (lane s l.toNat).refLost = false →
    exec (.testCheckerLock l) s = .next (settle (setLane l.toNat
      { lane s l.toNat with locked := true, countAt := s.tele.time } s))) ∧
  (∀ (l : BitVec 9) (errs : BitVec 16) (s : State),
    (lane s l.toNat).testing = true → (lane s l.toNat).locked = true → 256 < errs.toNat → errs.toNat ≤ 4096 →
    exec (.testCheckerLockLost l errs) s = .next (settle (setLane l.toNat
      { lane (testSync l.toNat s) l.toNat with
        locked := false, lockLost := satAdd (lane (testSync l.toNat s) l.toNat).lockLost 1,
        bits := (lane (testSync l.toNat s) l.toNat).bits + 4096,
        errs := (lane (testSync l.toNat s) l.toNat).errs + errs.setWidth 64 } (testSync l.toNat s)))) ∧
  (∀ (l : BitVec 9) (left right down up : BitVec 8) (pts : BitVec 16) (m : Margin) (s : State),
    s.lane.margins.find? (fun m => decide (m.lane = l.toNat)) = some m → stepMag left ≤ 32 → stepMag right ≤ 32 →
    stepMag down ≤ 64 → stepMag up ≤ 64 → pts.toNat ≤ 192 → m.aborted = false → marginable s l.toNat = true →
    exec (.laneMarginDone l left right down up pts) s = .next (settle (finishTicket m.ticket (ok (leBytes 1 0 ++
      leBytes 1 0 ++ wBytes 1 left ++ wBytes 1 right ++ wBytes 1 down ++ wBytes 1 up ++ wBytes 2 pts))
      { s with lane := { s.lane with margins := s.lane.margins.erase m } })))

/-- The 0x06 Nib family on operands in range and lanes in the state that each command asks for. Rests on R291,
R287, R300 to R303. The model's own choices in it: log entries 10, 13, 56, 137. -/
def Obligations.LaneCommandsAct : Prop :=
  (∀ (r : Req) (l : BitVec 16) (t : State) (p : BitVec 128) (s : State),
    serves 0x0601 false r (wBytes 2 l) s → l.toNat ≤ 415 → t = adaptSync l.toNat s →
    p = (lane t l.toNat).preset.getD (presetOf t l.toNat (lane t l.toNat).rate.toNat) →
    exec (.laneStatus r l) s = .next (settle (respond r 0x0601 (wBytes 2 l) (ok (wBytes 8 (laneStatusWord (lane
      t l.toNat)) ++ wBytes 8 (laneAdaptWord (lane t l.toNat)) ++ wBytes 16 p)) t))) ∧
  (∀ (r : Req) (p : BitVec 128) (s : State),
    serves 0x0602 false r (wBytes 16 p) s → psLane p ≤ 415 → presetBad p = none →
    exec (.lanePresetSet r p) s = .next (settle (respond r 0x0602 (wBytes 16 p) ok ({ s with
        lane := { s.lane with presets := tabSet none s.lane.presets (psLane p * 8 + psRate p) (some p) } })))) ∧
  (∀ (r : Req) (l c : BitVec 16) (mode pat rate : BitVec 8) (s : State),
    serves 0x0603 false r (wBytes 2 l ++ wBytes 2 c ++ wBytes 1 mode ++ wBytes 1 pat ++ wBytes 1 rate ++ zeros 1)
    s →
    1 ≤ c.toNat → c.toNat ≤ 32 → mode.toNat ≤ 5 → pat.toNat ≤ 2 → rate.toNat ≤ 7 → l.toNat + c.toNat ≤ 416 →
    (laneRun l c).any (fun k => !laneFree s k) = false →
    (laneRun l c).any (fun k => !testRateOk s (laneRun l c) rate.toNat pat.toNat k) = false →
    exec (.laneTestStart r l c mode pat rate) s = .next (settle (respond r 0x0603 (wBytes 2 l ++ wBytes 2 c ++
      wBytes 1 mode ++ wBytes 1 pat ++ wBytes 1 rate ++ zeros 1) ok ((laneRun l c).foldl (testStart mode.toNat
      pat.toNat rate.toNat) s)))) ∧
  (∀ (r : Req) (l c : BitVec 16) (t : State) (s : State),
    serves 0x0604 false r (wBytes 2 l ++ wBytes 2 c) s → 1 ≤ c.toNat → c.toNat ≤ 32 → l.toNat + c.toNat ≤ 416 →
    (laneRun l c).any (fun k => !laneFree s k) = false → t = (laneRun l c).foldl (fun s k => testSync k s) s →
    exec (.laneTestStop r l c) s = .next (settle (respond r 0x0604 (wBytes 2 l ++ wBytes 2 c) (ok ((laneRun l
      c).map (testCounts t)).flatten) (((laneRun l c).filter fun k => (lane t k).testing).foldl testStop t)))) ∧
  (∀ (r : Req) (l : BitVec 16) (eye dw : BitVec 8) (lim : BitVec 32) (s : State),
    serves 0x0605 false r (wBytes 2 l ++ wBytes 1 eye ++ wBytes 1 dw ++ wBytes 4 lim) s → l.toNat ≤ 415 →
    eye.toNat ≤ 2 → ((lane s l.toNat).rate.toNat ≤ 4 → eye = 0) → 16 ≤ dw.toNat → dw.toNat ≤ 30 →
    s.mgmt.tickets.length < 256 →
    exec (.laneMargin r l eye dw lim) s = .next (settle (respond r 0x0605 (wBytes 2 l ++ wBytes 1 eye ++ wBytes
      1 dw ++ wBytes 4 lim) (rep 1 (nextTicketNum s).toNat) ({ holdTicket 0x0605 r s with
        lane := { s.lane with
            margins := s.lane.margins ++ [{
                ticket := nextTicketNum s, lane := l.toNat, eye := eye, dwell := dw, errLimit := lim,
                aborted := !marginable s l.toNat }] } })))) ∧
  (∀ (r : Req) (p h : BitVec 8) (idle : BitVec 16) (s : State),
    serves 0x0606 false r (wBytes 1 p ++ wBytes 1 h ++ wBytes 2 idle) s → p.toNat ≤ 47 → h.toNat ≤ 1 →
    halfExists s p.toNat h.toNat = true → 1 ≤ idle.toNat → idle.toNat ≤ 1000 →
    exec (.lanePowerCfg r p h idle) s = .next (settle (respond r 0x0606 (wBytes 1 p ++ wBytes 1 h ++ wBytes 2
      idle) ok (setL0p (2 * p.toNat + h.toNat) { l0pOf s (2 * p.toNat + h.toNat) with idleUs := idle } s)))) ∧
  (∀ (r : Req) (n ref : BitVec 8) (s : State),
    serves 0x0607 false r (wBytes 1 n ++ wBytes 1 ref) s → n.toNat ≤ 7 → ref.toNat ≤ 1 →
    (List.range 12).any (fun i => decide ((port s (12 * n.toNat + i)).st ≠ .off)) = false →
    exec (.laneRefSelect r n ref) s = .next (settle (respond r 0x0607 (wBytes 1 n ++ wBytes 1 ref) ok
      ((List.range 12).foldl (fun s i => quadTouch (12 * n.toNat + i) s) { s with
        lane := { s.lane with
            refSel := (s.lane.refSel &&& ~~~ (1#8 <<< n.toNat)) ||| (if ref = 1 then 1#8 <<< n.toNat else 0) } }))))

/-- What a link sends next, and what a flit does that it receives while it is UP or in PARAM. Rests on R257, R266,
R256, R274, R275, R278. The model's own choices in it: log entries 29, 36, 56, 59, 124, 135, 136. -/
def Obligations.WeftFlitsAct : Prop :=
  (∀ (link : BitVec 3) (s : State),
    (weft s link.toNat).st = .up →
    exec (.weftFlitSend link) s = .next (settle (sendUp link.toNat s))) ∧
  (∀ (link : BitVec 3) (s : State),
    (weft s link.toNat).st = .param →
    exec (.weftFlitSend link) s = .next (settle (sendTrain link.toNat s))) ∧
  (∀ (link : BitVec 3) (fs : BitVec 16) (fb : BitVec 8) (f : WFlit) (t : State) (s : State),
    (weft s link.toNat).st = .up →
    (t = if fecNow (weft s link.toNat) then weftCnt link.toNat 1 fb.toNat (weftCnt link.toNat 0 fs.toNat s) else
    s) →
    exec (.weftFlitReceive link fs fb (.flit f)) s = .next (settle (flitIn link.toNat f t))) ∧
  (∀ (link : BitVec 3) (fs : BitVec 16) (fb : BitVec 8) (t : State) (s : State),
    (weft s link.toNat).st = .up →
    (t = if fecNow (weft s link.toNat) then weftCnt link.toNat 1 fb.toNat (weftCnt link.toNat 0 fs.toNat s) else
    s) →
    exec (.weftFlitReceive link fs fb .bad) s = .next (settle (nakWanted link.toNat (countErr (48 + link.toNat)
      (weftCnt link.toNat 2 1 t))))) ∧
  (∀ (link : BitVec 3) (fs : BitVec 16) (fb : BitVec 8) (p : WeftPeer) (seen : Bool) (t : State) (s : State),
    (weft s link.toNat).st = .up →
    (t = if fecNow (weft s link.toNat) then weftCnt link.toNat 1 fb.toNat (weftCnt link.toNat 0 fs.toNat s) else
    s) →
    exec (.weftFlitReceive link fs fb (.train p seen)) s = .next (settle (weftDown link.toNat .partner t))) ∧
  (∀ (link : BitVec 3) (fs : BitVec 16) (fb : BitVec 8) (p : WeftPeer) (seen : Bool) (t : State) (s : State),
    (weft s link.toNat).st = .param →
    (t = if fecNow (weft s link.toNat) then weftCnt link.toNat 1 fb.toNat (weftCnt link.toNat 0 fs.toNat s) else
    s) →
    exec (.weftFlitReceive link fs fb (.train p seen)) s = .next (settle (trainIn link.toNat p seen t))) ∧
  (∀ (link : BitVec 3) (fs : BitVec 16) (fb : BitVec 8) (t : State) (s : State),
    (weft s link.toNat).st = .param →
    (t = if fecNow (weft s link.toNat) then weftCnt link.toNat 1 fb.toNat (weftCnt link.toNat 0 fs.toNat s) else
    s) →
    exec (.weftFlitReceive link fs fb .bad) s = .next (settle (trainBreak link.toNat (weftCnt link.toNat 2 1
      t)))) ∧
  (∀ (link : BitVec 3) (fs : BitVec 16) (fb : BitVec 8) (p : WeftPeer) (seen : Bool) (s : State),
    (weft s link.toNat).st = .relock →
    exec (.weftFlitReceive link fs fb (.train p seen)) s = .next (settle (weftDown link.toNat .partner s))) ∧
  (∀ (link : BitVec 3) (fs : BitVec 16) (fb : BitVec 8) (sym : List (List (BitVec 10))) (ms : List Msg)
      (v : ((Nat × Nat) × List (List Byte × Bool)) × WeftRecv) (t u : State) (s : State),
    (weft s link.toNat).st = .up → (weft s link.toNat).recv.locked = true →
    v = rxSymbols (fecNow (weft s link.toNat)) sym (weft s link.toNat).recv →
    t = fecCount link.toNat v.1.1.1 v.1.1.2 (setWeft link.toNat { weft s link.toNat with recv := v.2 } s) →
    u = (readFlits v.1.2 ms).foldl (fun s x => flitPosition link.toNat x s) t →
    exec (.weftFlitReceive link fs fb (.line sym ms)) s = .next (settle (if recvSymptom (weft u link.toNat).recv
      then weftSymptom link.toNat u else u)))

/-- The timers of a link and what falls due with each. Rests on R268, R271, R272, R340, R281, R283. The model's own
choices in it: log entries 8, 23, 63. -/
def Obligations.WeftTimersAct : Prop :=
  (∀ (link : BitVec 3) (t : BitVec 64) (s : State),
    (weft s link.toNat).timerAt = some t → (weft s link.toNat).st = .up → (weft s link.toNat).replay ≠ [] →
    (weft s link.toNat).stuckRounds < 4 →
    exec (.replayTimeout link) s = .next (settle (replayRound link.toNat none (reach (t.toNat + (weft s
      link.toNat).replayTimeout.toNat * usTicks) s)))) ∧
  (∀ (link : BitVec 3) (t : BitVec 64) (s : State),
    (weft s link.toNat).timerAt = some t → (weft s link.toNat).st = .up → (weft s link.toNat).replay ≠ [] →
    4 ≤ (weft s link.toNat).stuckRounds →
    exec (.replayTimeout link) s = .next (settle (weftDown link.toNat .replay (reach (t.toNat + (weft s
      link.toNat).replayTimeout.toNat * usTicks) s)))) ∧
  (∀ (link : BitVec 3) (t : BitVec 64) (s : State),
    (weft s link.toNat).stuckSince = some t → (weft s link.toNat).st = .up ∨ (weft s link.toNat).st = .relock →
    (weft s link.toNat).replay ≠ [] →
    exec (.replayWaitLimit link) s = .next (settle (weftDown link.toNat .replay (reach (t.toNat + 36 * usTicks)
      s)))) ∧
  (∀ (link : BitVec 3) (t : State) (s : State),
    (weft s link.toNat).st = .up →
    t = reach ((weft s link.toNat).snapAt.toNat + (weft s link.toNat).resyncUs.toNat * usTicks) s →
    exec (.snapSend link) s = .next (settle (setWeft link.toNat
      { ((List.range (weft s link.toNat).vcCount.toNat).foldl (fun w v => setVc v { weftVc w v with snapDue := true } w) (weft t link.toNat)) with
        snapAt := t.tele.time } t))) ∧
  (∀ (link : BitVec 3) (t : State) (s : State),
    (weft s link.toNat).st = .up →
    t = reach (multipleFrom ((weft s link.toNat).tsyncUs.toNat * usTicks) (now s)) s →
    exec (.tsyncTimeSend link) s = .next (settle (setWeft link.toNat { weft t link.toNat with timeDue := true }
      t))) ∧
  (∀ (s : State),
    exec .timeInfoSend s = .next (settle (sendVc0 (vc0Msg .timeInfo 0 32 (timeInfoData s)) none s))) ∧
  (∀ (link : BitVec 3) (tag : BitVec 16) (e : TagUse) (s : State),
    tabGet none (weft s link.toNat).tags tag.toNat = some e → e.msg.mclass ≠ 3 → (weft s link.toNat).st = .up →
    exec (.weftTagTimeout link tag) s = .next (settle (raiseFree 1 0x20 (source 2 link.toNat) (weftCnt
      link.toNat 11 1 (weftResolve link.toNat e.msg (setWeft link.toNat
      { weft s link.toNat with tags := tabSet none (weft s link.toNat).tags tag.toNat none } (reach (e.since.toNat
      + (weft s link.toNat).tagTimeout.toNat * msTicks) s))))))) ∧
  (∀ (link : BitVec 3) (c : LinkCmd) (cs : List LinkCmd) (s : State),
    (weft s link.toNat).cmds = c :: cs → (weft s link.toNat).st = .up ∨ (weft s link.toNat).st = .off →
    exec (.weftCommandComplete link) s = .next (settle (finishTicket c.ticket ok (setWeft link.toNat
      { weft s link.toNat with cmds := cs } s))))

/-- Symptom, recovery, declaration, training steps and limits, and the end of PARAM. Rests on R278, R279, R273,
R275, R276. The model's own choices in it: log entries 8, 37, 40, 59. -/
def Obligations.WeftLinkEventsAct : Prop :=
  (∀ (link : BitVec 3) (t : State) (s : State),
    (weft s link.toNat).st = .up →
    t = weftCnt link.toNat 6 1 (setWeftSt link.toNat .relock (weftClock link.toNat s)) →
    exec (.weftSymptom link) s = .next (settle (setWeft link.toNat
      { weft t link.toNat with relockAt := some t.tele.time, recv := WeftRecv.init } t))) ∧
  (∀ (link : BitVec 3) (a : BitVec 64) (t : State) (s : State),
    (weft s link.toNat).st = .relock → (weft s link.toNat).relockAt = some a → now s ≤ a.toNat + 40 * usTicks →
    t = weftClock link.toNat (weftCnt link.toNat 7 1 (setWeftSt link.toNat .up s)) →
    exec (.weftRelockDone link) s = .next (settle (setWeft link.toNat
      { weft t link.toNat with relockAt := none } t))) ∧
  (∀ (link : BitVec 3) (t : BitVec 64) (s : State),
    (weft s link.toNat).relockAt = some t → (weft s link.toNat).st = .relock →
    exec (.weftDownDeclare link) s = .next (settle (weftDown link.toNat .lock (reach (t.toNat + 40 * usTicks)
      s)))) ∧
  (∀ (link : BitVec 3) (s : State),
    weftOn s link.toNat = true → (weft s link.toNat).st = .detect →
    exec (.weftTrainStep link) s = .next (settle (equalise 7 (weftLanes link.toNat) (trainFrom link.toNat
      .equalize s)))) ∧
  (∀ (link : BitVec 3) (s : State),
    weftOn s link.toNat = true → (weft s link.toNat).st = .equalize →
    (weftLanes link.toNat).all (fun l => (lane s l).converged) = true →
    exec (.weftTrainStep link) s = .next (settle (trainFrom link.toNat .align s))) ∧
  (∀ (link : BitVec 3) (s : State),
    weftOn s link.toNat = true → (weft s link.toNat).st = .align →
    exec (.weftTrainStep link) s = .next (settle (trainFrom link.toNat .param s))) ∧
  (∀ (link : BitVec 3) (k : Nat) (st next : WeftSt) (s : State),
    (weft s link.toNat).st = st →
    (st = .equalize ∧ k = 20 ∧ next = .detect) ∨ (st = .param ∧ k = 1 ∧ next = .detect) →
    exec (.trainTimeout link) s = .next (settle (raiseFree 1 3 (source 2 link.toNat) (lanesLost (weftLanes
      link.toNat) (trainFrom link.toNat next (reach ((weft s link.toNat).stateAt.toNat + k * msTicks) s)))))) ∧
  (∀ (link : BitVec 3) (s : State),
    (weft s link.toNat).st = .align →
    exec (.trainTimeout link) s = .next (settle (raiseFree 1 3 (source 2 link.toNat) (equalise 7 (weftLanes
      link.toNat) (trainFrom link.toNat .equalize (reach ((weft s link.toNat).stateAt.toNat + 2 * msTicks) s)))))) ∧
  (∀ (link : BitVec 3) (s : State),
    paramDone (weft s link.toNat) = true →
    exec (.weftParamEnd link) s = .next (settle (weftParamEnd link.toNat s)))

/-- The 0x05 Nib family on a link that exists. Rests on R282, R283. The model's own choices in it: log entries 10,
37. -/
def Obligations.WeftCommandsAct : Prop :=
  (∀ (r : Req) (link : BitVec 8) (s : State),
    serves 0x0501 false r (wBytes 1 link) s → link.toNat ≤ 7 →
    exec (.weftStatus r link) s = .next (settle (respond r 0x0501 (wBytes 1 link) (ok (wBytes 8 (weftStatusWord
      (weft s link.toNat)) ++ wBytes 8 (weft s link.toNat).ident ++ wBytes 8 (weftPeerWord (weft s link.toNat)) ++
      wBytes 8 (weftSeqWord (weft s link.toNat)) ++ ((List.range 8).map fun v => wBytes 8 (weftCreditWord (weftVc
      (weft s link.toNat) v))).flatten ++ ((List.range 12).map fun k => wBytes 8 (tabGet 0 (weft s link.toNat).cnt
      k)).flatten)) s))) ∧
  (∀ (r : Req) (link vc fec : BitVec 8) (sl : BitVec 256) (rt rs ts tg : BitVec 16) (s : State),
    serves 0x0502 false r (wBytes 1 link ++ wBytes 1 vc ++ wBytes 1 fec ++ zeros 1 ++ wBytes 32 sl ++ wBytes 2 rt
    ++ wBytes 2 rs ++ wBytes 2 ts ++ wBytes 2 tg) s →
    link.toNat ≤ 7 → weftCfgBad vc fec sl rt rs ts tg = none → (weft s link.toNat).st = .off →
    exec (.weftConfig r link vc fec sl rt rs ts tg) s = .next (settle (respond r 0x0502 (wBytes 1 link ++ wBytes
      1 vc ++ wBytes 1 fec ++ zeros 1 ++ wBytes 32 sl ++ wBytes 2 rt ++ wBytes 2 rs ++ wBytes 2 ts ++ wBytes 2 tg)
      ok (setWeft link.toNat (weftConfigure vc fec sl rt rs ts tg (weft s link.toNat)) s)))) ∧
  (∀ (r : Req) (link : BitVec 8) (p : WeftPeer) (s : State),
    serves 0x0503 false r (wBytes 1 link) s → link.toNat ≤ 7 → (weft s link.toNat).peer = some p →
    (weft s link.toNat).idDiffers = true →
    exec (.weftAcceptIdentity r link) s = .next (settle (respond r 0x0503 (wBytes 1 link) (ok (wBytes 8 p.serial
      ++ leBytes 1 p.link.toNat)) (weftUp link.toNat p .new s)))) ∧
  (∀ (r : Req) (link : BitVec 8) (t : State) (s : State),
    serves 0x0504 false r (wBytes 1 link) s → link.toNat ≤ 7 → s.mgmt.tickets.length < 256 →
    t = weftRetrain link.toNat (holdTicket 0x0504 r s) →
    exec (.weftRetrain r link) s = .next (settle (respond r 0x0504 (wBytes 1 link) (rep 1 (nextTicketNum
      s).toNat) (setWeft link.toNat { weft t link.toNat with
        cmds := (weft t link.toNat).cmds ++ [{ ticket := nextTicketNum s, kind := 0, since := s.tele.time }] }
      t)))) ∧
  (∀ (r : Req) (link : BitVec 8) (t : State) (s : State),
    serves 0x0505 false r (wBytes 1 link) s → link.toNat ≤ 7 → s.mgmt.tickets.length < 256 →
    t = weftStop link.toNat .command (setWeft link.toNat { weft s link.toNat with disabled := true } (holdTicket
    0x0505 r s)) →
    exec (.weftDisable r link) s = .next (settle (respond r 0x0505 (wBytes 1 link) (rep 1 (nextTicketNum
      s).toNat) (setWeft link.toNat { weft t link.toNat with
        cmds := (weft t link.toNat).cmds ++ [{ ticket := nextTicketNum s, kind := 1, since := s.tele.time }] }
      t)))) ∧
  (∀ (r : Req) (link : BitVec 8) (t : State) (s : State),
    serves 0x0506 false r (wBytes 1 link) s → link.toNat ≤ 7 → s.mgmt.tickets.length < 256 →
    t = weftRelease link.toNat (setWeft link.toNat { weft s link.toNat with disabled := false } (holdTicket 0x0506
    r s)) →
    (weftLanes link.toNat).any (fun l => (lane s l).testing) = false →
    exec (.weftEnable r link) s = .next (settle (respond r 0x0506 (wBytes 1 link) (rep 1 (nextTicketNum
      s).toNat) (setWeft link.toNat { weft t link.toNat with
        cmds := (weft t link.toNat).cmds ++ [{ ticket := nextTicketNum s, kind := 2, since := s.tele.time }] }
      t)))) ∧
  (∀ (r : Req) (link : BitVec 8) (s : State),
    serves 0x0507 false r (wBytes 1 link) s → link.toNat ≤ 7 →
    exec (.weftCountersClear r link) s = .next (settle (respond r 0x0507 (wBytes 1 link) ok (setWeft link.toNat
      { weft s link.toNat with cnt := [] } s))))

/-- An owner mailbox takes a command, answers it and is cleared; firmware's own events. Rests on R313, R504, R310,
R307, R321, R323. The model's own choices in it: log entries 8, 10, 14, 44, 96, 104, 127. -/
def Obligations.MailboxesAct : Prop :=
  (∀ (m : BitVec 2) (h : List Byte) (n : Nat) (p : List Byte) (s : State),
    (mbx s m.toNat).busy = false → (mbx s m.toNat).done = false → h = tabSlice 0 (mbx s m.toNat).req 0 16 →
    n = leAt h 8 4 → n ≤ mailboxMax → p = tabSlice 0 (mbx s m.toNat).req 16 n →
    exec (.mailboxGo m) s = .next (settle (arrive { src := .mailbox m, tag := hdrTag h } h p (setMbx m.toNat
      { mbx s m.toNat with go := true, busy := true, accepted := some (BitVec.ofNat 16 (hdrOp h), hdrTag h, p) }
      s)))) ∧
  (∀ (m : BitVec 2) (op tag : BitVec 16) (q : Reply) (s : State),
    (mbx s m.toNat).answer = some (op, tag, q) →
    exec (.mailboxResponse m) s = .next (settle (mgmtResetDue (mailboxIrq m.toNat (setMbx m.toNat
      { mbx s m.toNat with
        resp := tabWrite 0 (mbx s m.toNat).resp 0 (respHeader op tag q ++ q.payload), busy := false, go := false,
        done := true, doneAt := some s.tele.time, answered := (mbx s m.toNat).answered + 1, answer := none } s))))) ∧
  (∀ (m : BitVec 2) (s : State),
    exec (.mailboxDoneClear m) s = .next (settle (setMbx m.toNat { (mbx s m.toNat) with
        done := decide ((mbx s m.toNat).done = true ∧ (mbx s m.toNat).doneAt = some s.tele.time) } s))) ∧
  (∀ (r : Req) (op : BitVec 16) (s : State),
    s.mgmt.fw ≠ .running → s.fault.safeStop = false → s.pmu.st ≠ .standby → s.boot.stage ≠ 7 →
    s.boot.held = false → inHand r op.toNat [] s = true →
    exec (.hwResponderAnswer r op) s = .next (settle (respond r op.toNat [] (if s.mgmt.fw = .halted then rep
      0x60 else rep 2) s))) ∧
  (∀ (t st : BitVec 16) (d : BitVec 32) (p : List Byte) (s : State),
    exec (.pendingResult t st d p) s = .next (settle (finishTicket t { status := st, detail := d, payload := p }
      s))) ∧
  (∀ (s : State),
    s.mgmt.fw = .running → s.mgmt.noticeDue = true →
    exec .eventNoticeSend s = .next (settle (emitAll (s.mgmt.subs.map fun e => Emit.eventNotice e s.mgmt.head)
      (mgmtIrq 0 { s with mgmt := { s.mgmt with noticeDue := false } })))) ∧
  (∀ (s : State),
    s.mgmt.fw = .running → inHangWindow s = false →
    exec .fwHang s = .next (settle (fwRestart 0 true (raiseFree 13 0x01 (source 13 0) s)))) ∧
  (∀ (s : State),
    s.mgmt.fw = .running → inHangWindow s = true →
    exec .fwHang s = .next (settle (raiseFree 13 0x02 (source 13 0) (fwHalt (raiseFree 13 0x01 (source 13 0)
      s))))) ∧
  (∀ (t : State) (s : State),
    s.mgmt.fw = .restarting →
    (t = queueEvent 6 (BitVec.ofNat 128 (s.mgmt.restarts.toNat + s.mgmt.restartCause.toNat * 2 ^ 16)) { s with
      mgmt := { s.mgmt with
          fw := .running, hangRestart := false,
          hangWindow := if s.mgmt.hangRestart then some (s.aon + BitVec.ofNat 64 (10 * secTicks)) else
            s.mgmt.hangWindow } }) →
    exec .fwRestartDone s = .next (settle (if colophonOn s then beginAppend (mkAppend s 9 0 s.sealu.fwDigest
      [s.mgmt.restartCause]) t else t))) ∧
  (∀ (t : State) (s : State),
    s.mgmt.maker ≠ none → t = reachAon (s.mgmt.makerSince.toNat + 1800 * secTicks) s →
    exec .makerLevelExpiry s = .next (settle ({ t with mgmt := { t.mgmt with maker := none } })))

/-- A packet for this endpoint is reassembled, one for another endpoint is forwarded by the bridge table, and Set
Endpoint ID from a trusted transport takes effect. Rests on R314, R315. The model's own choices in it: log entry
95. -/
def Obligations.MctpMessagesAct : Prop :=
  (∀ (t : Transport) (p : Packet) (s : State),
    deaf t s = false → transportUp s t = true → p.dst = s.mgmt.eid →
    exec (.mctpPacketReceive t p) s = .next (settle (reassemble t p s))) ∧
  (∀ (t : Transport) (p : Packet) (b : Bridge) (s : State),
    deaf t s = false → transportUp s t = true → p.dst ≠ s.mgmt.eid → p.dst ≠ 0xFF → s.boot.stage ≠ 7 →
    bridgeFor s p.dst = some b → transportUp s (bridgeOut b) = true →
    exec (.mctpPacketReceive t p) s = .next (settle (emit (.packet (bridgeOut b) p) s))) ∧
  (∀ (t : Transport) (e x : BitVec 8) (s : State),
    deaf t s = false → transportUp s t = true → trusted s t = true →
    exec (.mctpControl t e (.setEid x)) s = .next (settle (emit (.mctp t e 0 [1, 0, 0, x, 0])
      { s with mgmt := { s.mgmt with eid := x } }))) ∧
  (∀ (t : Transport) (e : BitVec 8) (s : State),
    deaf t s = false → transportUp s t = true →
    exec (.mctpControl t e .getEid) s = .next (settle (emit (.mctp t e 0 [2, 0, s.mgmt.eid]) s)))

/-- The 0x01 Nib family on operands in range. Rests on R321, R325, R329, R330, R315, R482. The model's own choices
in it: log entries 10, 13, 14, 18. -/
def Obligations.ManagementCommandsAct : Prop :=
  (∀ (r : Req) (s : State),
    serves 0x0102 false r [] s →
    exec (.deviceStatus r) s = .next (settle (respond r 0x0102 [] (ok ([BitVec.ofNat 8 (fwNum s.mgmt.fw),
      BitVec.ofNat 8 (degraded s)] ++ leBytes 2 s.mgmt.tickets.length ++ leBytes 8 ((s.aon - s.mgmt.upSince).toNat
      / msTicks) ++ wBytes 8 s.tele.time ++ wBytes 4 s.mgmt.head ++ wBytes 4 (oldestSeq s))) s))) ∧
  (∀ (r : Req) (t : BitVec 16) (k : Ticket) (q : Reply) (s : State),
    serves 0x0103 false r (wBytes 2 t ++ zeros 2) s →
    s.mgmt.tickets.find? (fun k => decide (k.num = t)) = some k → k.result = some q → q.payload.length ≤ 8000 →
    exec (.resultFetch r t) s = .next (settle (respond r 0x0103 (wBytes 2 t ++ zeros 2)
      ({ q with payload := wBytes 2 k.opcode ++ wBytes 2 k.tag ++ q.payload }) (freeTicketNum t s)))) ∧
  (∀ (r : Req) (f : BitVec 32) (k : BitVec 16) (es : List Event) (s : State),
    serves 0x0104 false r (wBytes 4 f ++ wBytes 2 k ++ zeros 2) s → 1 ≤ k.toNat → k.toNat ≤ 64 →
    seqBefore f (oldestSeq s) = false → es = (s.mgmt.events.filter fun e => !seqBefore e.seq f).take k.toNat →
    exec (.eventRead r f k) s = .next (settle (respond r 0x0104 (wBytes 4 f ++ wBytes 2 k ++ zeros 2) (ok
      (leBytes 2 es.length ++ zeros 2 ++ (es.map eventBytes).flatten)) s))) ∧
  (∀ (r : Req) (q : BitVec 32) (t : State) (s : State),
    serves 0x0105 false r (wBytes 4 q) s → seqBefore q s.mgmt.head = true →
    t = { s with mgmt := { s.mgmt with events := s.mgmt.events.filter fun e => seqBefore q e.seq } } →
    exec (.eventAck r q) s = .next (settle (respond r 0x0105 (wBytes 4 q) (ok (wBytes 4 (oldestSeq t))) t))) ∧
  (∀ (r : Req) (e : BitVec 8) (s : State),
    serves 0x0106 false r ([e, 0] ++ zeros 2) s →
    exec (.eventSubscribe r e 0) s = .next (settle (respond r 0x0106 ([e, 0] ++ zeros 2) (ok [BitVec.ofNat 8
      (s.mgmt.subs.filter (· ≠ e)).length])
      ({ s with mgmt := { s.mgmt with subs := s.mgmt.subs.filter (· ≠ e) } })))) ∧
  (∀ (r : Req) (e : BitVec 8) (s : State),
    serves 0x0106 false r ([e, 1] ++ zeros 2) s → s.mgmt.subs.contains e = false → s.mgmt.subs.length < 8 →
    exec (.eventSubscribe r e 1) s = .next (settle (respond r 0x0106 ([e, 1] ++ zeros 2) (ok [BitVec.ofNat 8
      (s.mgmt.subs.length + 1)]) ({ s with mgmt := { s.mgmt with subs := s.mgmt.subs ++ [e] } })))) ∧
  (∀ (r : Req) (o : BitVec 32) (k : BitVec 16) (s : State),
    serves 0x0107 false r (wBytes 4 o ++ wBytes 2 k ++ zeros 2) s → dcwBad o.toNat 1 = false → 1 ≤ k.toNat →
    k.toNat ≤ 512 → dcwBad o.toNat k.toNat = false →
    exec (.dcwRead r o k) s = .next (settle (respond r 0x0107 (wBytes 4 o ++ wBytes 2 k ++ zeros 2) (ok (dcwTake
      k.toNat o.toNat s).1) ((dcwTake k.toNat o.toNat s).2)))) ∧
  (∀ (r : Req) (o : BitVec 32) (vs : List (BitVec 64)) (s : State),
    serves 0x0108 false r (wBytes 4 o ++ leBytes 2 vs.length ++ zeros 2 ++ (vs.map fun v => wBytes 8 v).flatten)
    s →
    dcwBad o.toNat 1 = false → 1 ≤ vs.length → vs.length ≤ 512 → dcwBad o.toNat vs.length = false →
    exec (.dcwWrite r o vs) s = .next (settle (respond r 0x0108 (wBytes 4 o ++ leBytes 2 vs.length ++ zeros 2 ++
      (vs.map fun v => wBytes 8 v).flatten) ok (dcwPut vs o.toNat s)))) ∧
  (∀ (r : Req) (p vf : BitVec 8) (n : BitVec 16) (s : State),
    serves 0x0109 false r ([p, vf] ++ wBytes 2 n) s → p.toNat < 96 → vf.toNat < 64 → n = 0xFFFF →
    (tabGet none s.mgmt.vfs (p.toNat * 64 + vf.toNat)).any (instBusy s) = false →
    exec (.functionExpose r p vf n) s = .next (settle (respond r 0x0109 ([p, vf] ++ wBytes 2 n) ok
      ({ s with mgmt := { s.mgmt with vfs := tabSet none s.mgmt.vfs (p.toNat * 64 + vf.toNat) none } })))) ∧
  (∀ (r : Req) (p vf : BitVec 8) (n : BitVec 16) (s : State),
    serves 0x0109 false r ([p, vf] ++ wBytes 2 n) s → p.toNat < 96 → vf.toNat < 64 → n.toNat < 1024 →
    (tabGet none s.mgmt.vfs (p.toNat * 64 + vf.toNat)).any (instBusy s) = false →
    instBusy s (n.setWidth 10) = false →
    s.mgmt.vfs.any (fun e => decide (e.1 ≠ p.toNat * 64 + vf.toNat) && decide (e.2 = some (n.setWidth 10))) =
    false →
    exec (.functionExpose r p vf n) s = .next (settle (respond r 0x0109 ([p, vf] ++ wBytes 2 n) ok ({ s with
        mgmt := { s.mgmt with vfs := tabSet none s.mgmt.vfs (p.toNat * 64 + vf.toNat) (some (n.setWidth 10)) } })))) ∧
  (∀ (r : Req) (e f l t i : BitVec 8) (s : State),
    serves 0x010A false r ([e, f, l, t, i] ++ zeros 3) s → e.toNat < 64 → t.toNat ≤ 3 →
    i.toNat < transportCount t.toNat →
    exec (.mctpBridgeSet r e f l t i) s = .next (settle (respond r 0x010A ([e, f, l, t, i] ++ zeros 3) ok
      ({ s with
        mgmt := { s.mgmt with
            bridge := tabSet none s.mgmt.bridge e.toNat (if t = 0 then none else some
              { first := f, last := l, kind := t, index := i }) } })))) ∧
  (∀ (r : Req) (type : BitVec 8) (s : State),
    serves 0x010B false r ([type] ++ zeros 3) s → type.toNat ≤ 2 →
    exec (.deviceReset r type) s = .next (settle (mgmtResetDue (respond r 0x010B ([type] ++ zeros 3) ok
      (resetAsked type s))))) ∧
  (∀ (r : Req) (s : State),
    serves 0x0101 false r [] s →
    exec (.deviceIdentify r) s = .next (settle (respond r 0x0101 [] (ok (wBytes 2 Config.vendorId ++ leBytes 2
      0x4860 ++ leBytes 2 0x4860 ++ [s.boot.stepping.setWidth 8, BitVec.ofNat 8 (nb s.boot.hb),
      s.boot.grade.setWidth 8, BitVec.ofNat 8 (lcNum s.sealu.lc), 0, 0] ++ wBytes 8 s.boot.serial ++ leBytes 2
      (hbmGib s 0) ++ leBytes 2 (hbmGib s 1) ++ leBytes 4 (sfNominal s) ++ leBytes 4 (sfAvailable s) ++ leBytes 4
      (resNominal s) ++ leBytes 4 (resAvailable s) ++ (wBytes 4 s.boot.fwVersion ++ wBytes 4 s.boot.fwBuild ++
      wBytes 8 s.plan.planId ++ wBytes 4 s.plan.generation) ++ [s.mgmt.eid, 0, 0, 0])) s)))

/-- The CXL Fabric Manager commands from a trusted component. Rests on R316, R241, R227. The model's own choices in
it: log entries 60, 104, 122. -/
def Obligations.FabricManagerCommandsAct : Prop :=
  (∀ (q : FmSrc) (s : State),
    fmServes q s →
    exec (.fmIdentifySwitchDevice q) s = .next (settle (fmAnswer q .identify .success [BitVec.ofNat 64 (fmPorts
      s).length, BitVec.ofNat 64 ((fmPorts s).filter fun u => decide ((port s u).role = 1)).length, BitVec.ofNat
      64 (s.mgmt.vppbs.filter fun e => e.2.isSome).length] s))) ∧
  (∀ (q : FmSrc) (us : List (BitVec 7)) (s : State),
    fmServes q s → us.all (fun u => decide (u.toNat < 96)) = true →
    exec (.fmGetPhysicalPortState q us) s = .next (settle (fmAnswer q .portState .success (us.map fun u =>
      portStatusWord (port s u.toNat)) s))) ∧
  (∀ (q : FmSrc) (u : BitVec 7) (s : State),
    fmServes q s → fmPort s u.toNat = true →
    exec (.fmPhysicalPortControl q u .resetPpb) s = .next (settle (fmAnswer q .portControl .success []
      (retrainPort u.toNat none s)))) ∧
  (∀ (q : FmSrc) (u : BitVec 7) (s : State),
    fmServes q s → fmPort s u.toNat = true → (port s u.toNat).role = 2 →
    prSlot (portRec s (u.toNat / 2)) (u.toNat % 2) < 24 →
    exec (.fmPhysicalPortControl q u .assertPerst) s = .next (settle (fmAnswer q .portControl .success []
      (holdPerst (prSlot (portRec s (u.toNat / 2)) (u.toNat % 2)) true s)))) ∧
  (∀ (q : FmSrc) (u : BitVec 7) (reg : BitVec 12) (d : BitVec 32) (s : State),
    fmServes q s → fmPort s u.toNat = true →
    exec (.fmSendPpbConfigRequest q u true reg d) s = .next (settle (fmAnswer q .ppbConfig .success [] (emit
      (.fm u none .ppbConfig [reg.setWidth 64, 1, d.setWidth 64] []) s)))) ∧
  (∀ (q : FmSrc) (u : BitVec 7) (s : State),
    fmServes q s → isUsp s u.toNat = true →
    exec (.fmGetVirtualSwitchInfo q u) s = .next (settle (fmAnswer q .switchInfo .success (vcsWords s u.toNat)
      s))) ∧
  (∀ (q : FmSrc) (usp : BitVec 7) (v : BitVec 4) (u : BitVec 7) (ld : Option (BitVec 4)) (c : BindMark)
      (s : State),
    fmServes q s → isUsp s usp.toNat = true → fmPort s u.toNat = true → (port s u.toNat).role = 2 →
    tabGet none s.mgmt.vppbs (usp.toNat * 16 + v.toNat) = none → (c.cache = true → cacheBound s < 16) →
    exec (.fmBindVppb q usp v u ld c) s = .next (settle (fmAnswer q .bind .success [] { s with
        mgmt := { s.mgmt with
            vppbs := tabSet none s.mgmt.vppbs (usp.toNat * 16 + v.toNat) (some
              { port := u.toNat, ld := ld, cache := c.cache, owner := c.owner }) } }))) ∧
  (∀ (q : FmSrc) (usp : BitVec 7) (v : BitVec 4) (b : VppbBind) (t : State) (s : State),
    fmServes q s → tabGet none s.mgmt.vppbs (usp.toNat * 16 + v.toNat) = some b →
    t = vppbResolve (usp.toNat * 16 + v.toNat) b s →
    exec (.fmUnbindVppb q usp v) s = .next (settle (fmAnswer q .unbind .success []
      { t with mgmt := { t.mgmt with vppbs := tabSet none t.mgmt.vppbs (usp.toNat * 16 + v.toNat) none } }))) ∧
  (∀ (q : FmSrc) (u : BitVec 7) (v : BitVec 4) (e : BitVec 32) (hd : BitVec 128) (s : State),
    fmServes q s → isUsp s u.toNat = true →
    exec (.fmGenerateAerEvent q u v e hd) s = .next (settle (fmAnswer q .aer .success [] (emit (.fm u none .aer
      [v.setWidth 64, e.setWidth 64, hd.setWidth 64, (hd >>> 64).setWidth 64] [])
      { s with mgmt := { s.mgmt with aer := tabSet (0, 0) s.mgmt.aer (u.toNat * 16 + v.toNat) (e, hd) } })))) ∧
  (∀ (q : FmSrc) (u : BitVec 7) (zs : List (BitVec 64)) (s : State),
    fmServes q s → mldPort s u.toNat = true →
    exec (.fmTunnelManagementCommand q u (.setLdAllocations zs)) s = .next (settle (fmAnswer q .tunnel .pending
      [] { emit (.fm u none .tunnel (2 :: zs) []) s with
        mgmt := { s.mgmt with tunnels := s.mgmt.tunnels.filter (· ≠ u) ++ [u] } }))) ∧
  (∀ (q : FmSrc) (u : BitVec 7) (ld : BitVec 4) (reg : BitVec 12) (d : BitVec 32) (s : State),
    fmServes q s → mldPort s u.toNat = true →
    exec (.fmSendLdConfigRequest q u ld true reg d) s = .next (settle (fmAnswer q .ldConfig .success [] (emit
      (.fm u (some ld) .ldConfig [reg.setWidth 64, 1, d.setWidth 64] []) s)))) ∧
  (∀ (q : FmSrc) (u : BitVec 7) (ld : BitVec 4) (o : BitVec 64) (d : List Byte) (s : State),
    fmServes q s → mldPort s u.toNat = true →
    exec (.fmSendLdMemoryRequest q u ld true o d) s = .next (settle (fmAnswer q .ldMemory .success [] (emit (.fm
      u (some ld) .ldMemory [o, 1] d) s)))) ∧
  (∀ (u : BitVec 7) (zs : List (BitVec 64)) (t : State) (s : State),
    s.mgmt.tunnels.contains u = true →
    t = { s with mgmt := { s.mgmt with tunnels := s.mgmt.tunnels.filter (· ≠ u) } } →
    exec (.fmSetLdAllocations u true zs) s = .next (settle (setPort u.toNat
      { port t u.toNat with ldMap := ldMapOf zs, mld := decide (zs.length % 32 ≠ 0) } t))) ∧
  (∀ (q : FmSrc) (c : BitVec 16) (s : State),
    fmServes q s →
    exec (.fmUnsupported q c) s = .next (settle (fmAnswer q .unsupported .unsupported [c.setWidth 64] s)))

/-- A plane that is UP runs its next slot; a good cell is acknowledged and resequenced; an acknowledged cell's
buffer is freed; a cell without acknowledgement is due again, up to three times; a starved queue is promoted. Rests
on R95 to R100, R97, R106, R117, R102. The model's own choices in it: log entries 7, 8, 116 to 118. -/
def Obligations.CrossbarSlotsAndCellsAct : Prop :=
  (∀ (pl : BitVec 1) (k : Nat) (t v : State) (s : State),
    s.fault.safeStop = false → (plane s pl.toNat).st = .up →
    k = max (plane s pl.toNat).nextSlot (slotAt (now s)) → t = reach (slotTick k) s →
    (v = if pl = 1 ∧ (plane t 0).st = .up ∧ (plane t 0).nextSlot ≤ k then runSlot 0 k t else t) →
    exec (.slotMatch pl) s = .next (settle (runSlot pl.toNat k v))) ∧
  (∀ (src dst : BitVec 6) (seq : BitVec 12) (u : Unacked) (t : State) (s : State),
    s.fault.safeStop = false →
    (pair s (pairIx src.toNat dst.toNat)).window.find? (fun u => decide (u.seq = seq) && u.flying) = some u →
    (plane s u.plane.toNat).st = .up → u.resends = 0 →
    t = setPair (pairIx src.toNat dst.toNat) { (pair s (pairIx src.toNat dst.toNat)) with
      window := (pair s (pairIx src.toNat dst.toNat)).window.map fun v => if v.seq = seq then
        { v with flying := false, acked := v.acked || true } else v } s →
    exec (.cellArrival src dst seq .ok .ok false) s = .next (settle (reseqIn src.toNat dst.toNat seq (ecellOf u
      false false) (if u.idx + 1 = u.total ∧ u.acked = false then countOut (56 + u.plane.toNat) u.msg t else t)))) ∧
  (∀ (src dst : BitVec 6) (seq : BitVec 12) (u : Unacked) (s : State),
    (pair s (pairIx src.toNat dst.toNat)).window.find? (fun u => decide (u.seq = seq) && u.acked) = some u →
    exec (.cellAckReceive src dst seq) s = .next (settle (freeCell src.toNat dst.toNat u s))) ∧
  (∀ (src dst : BitVec 6) (seq : BitVec 12) (u : Unacked) (t : State) (s : State),
    (pair s (pairIx src.toNat dst.toNat)).window.find? (fun u => decide (u.seq = seq) && !u.due) = some u →
    u.resends < 3 → t = reach (u.sentAt.toNat + 205) s →
    exec (.cellResendTimeout src dst seq) s = .next (settle (setPlane u.plane.toNat
      { plane t u.plane.toNat with resendCount := satAdd (plane t u.plane.toNat).resendCount 1 } (setPair (pairIx
      src.toNat dst.toNat) { pair t (pairIx src.toNat dst.toNat) with
        window := (pair t (pairIx src.toNat dst.toNat)).window.map fun v => if v.seq = seq then
          { v with flying := false, due := true } else v } t)))) ∧
  (∀ (src dst : BitVec 6) (seq : BitVec 12) (u : Unacked) (s : State),
    (pair s (pairIx src.toNat dst.toNat)).window.find? (fun u => decide (u.seq = seq) && !u.due) = some u →
    u.resends = 3 →
    exec (.cellResendTimeout src dst seq) s = .next (settle (raiseFree 3 0x11 (source 5 u.plane.toNat) (reseqIn
      src.toNat dst.toNat seq (ecellOf u false true) (freeCell src.toNat dst.toNat u (reach (u.sentAt.toNat + 205)
      s)))))) ∧
  (∀ (x p : BitVec 6) (c : BitVec 3) (g : Starve) (t : State) (s : State),
    promote (starveTicks s x.toNat) (tabGet Starve.init (output s x.toNat).starve c.toNat) s = some (g, t) →
    exec (.urgentPromotion true x p c) s = .next (settle (setOutput x.toNat
      { output t x.toNat with starve := tabSet Starve.init (output t x.toNat).starve c.toNat g } t))) ∧
  (∀ (x p : BitVec 6) (c : BitVec 3) (g : Starve) (t : State) (s : State),
    promote (starveTicks s x.toNat) (tabGet Starve.init s.xbar.starve (groupIx x.toNat p.toNat c.toNat)) s = some
    (g, t) →
    exec (.urgentPromotion false x p c) s = .next (settle ({ t with
        xbar := { t.xbar with starve := tabSet Starve.init t.xbar.starve (groupIx x.toNat p.toNat c.toNat) g } })))

/-- A plane's symptom, its declaration, its self-check, its check after a reset and its rejoin; a loom link's first
symptom, its recovery within 30 µs, its failure, its retries and its return. Rests on R109 to R113. The model's own
choices in it: log entries 8, 40, 82, 92, 126. -/
def Obligations.PlanesAndLoomLinksAct : Prop :=
  (∀ (pl : BitVec 1) (c : BitVec 2) (s : State),
    exec (.planeSymptom pl c) s = .next (settle (planeSymptom pl.toNat (planeCause c) s))) ∧
  (∀ (pl : BitVec 1) (ok : Bool) (s : State),
    exec (.planeSelfCheck pl ok) s = .next (settle (if ok then s else if (plane s pl.toNat).st = .up then
      planeSymptom pl.toNat .selfCheck s else if (plane s pl.toNat).st = .standby then setPlane pl.toNat
      { plane s pl.toNat with st := .down, checkFail := true, rejoin := false } s else s))) ∧
  (∀ (pl : BitVec 1) (c : PlaneCause) (t : BitVec 64) (s : State),
    (plane s pl.toNat).symptom = some (c, t) →
    exec (.planeDown pl) s = .next (settle (planeDown pl.toNat c s))) ∧
  (∀ (pl : BitVec 1) (ok : Bool) (t v : State) (s : State),
    (plane s pl.toNat).st = .test → (domain s (168 + pl.toNat)).step = 4 →
    t = reach (nextFrame ((plane s pl.toNat).testFrom.toNat - 1) + frameTicks) s →
    v = setDomain (168 + pl.toNat) { domain t (168 + pl.toNat) with st := .on, step := 0 } t →
    (plane v pl.toNat).st = .test → comingBack v pl.toNat = false →
    exec (.planeCheckEnd pl ok) s = .next (settle (exitNext (setPlane pl.toNat
      { plane v pl.toNat with st := if ok then .standby else .down, checkFail := !ok } v)))) ∧
  (∀ (pl : BitVec 1) (ok : Bool) (t v : State) (s : State),
    (plane s pl.toNat).st = .test → (domain s (168 + pl.toNat)).step = 4 →
    t = reach (nextFrame ((plane s pl.toNat).testFrom.toNat - 1) + frameTicks) s →
    v = setDomain (168 + pl.toNat) { domain t (168 + pl.toNat) with st := .on, step := 0 } t →
    (plane v pl.toNat).st = .test → comingBack v pl.toNat = true →
    exec (.planeCheckEnd pl ok) s = .next (settle (exitNext (exitCheck pl.toNat ok v)))) ∧
  (∀ (pl : BitVec 1) (s : State),
    exec (.planeRejoinWrite pl) s = .next (settle (if (plane s pl.toNat).st = .standby then setPlane pl.toNat
      { plane s pl.toNat with rejoin := true } s else s))) ∧
  (∀ (pl : BitVec 1) (t : State) (s : State),
    (plane s pl.toNat).st = .standby → (plane s pl.toNat).rejoin = true → t = reach (nextFrame (now s)) s →
    exec (.planeRejoined pl) s = .next (settle (raiseFree 3 2 (source 5 pl.toNat) (triggerGone 3 pl.toNat
      (condGone 3 1 (source 5 pl.toNat) (setPlane pl.toNat
      { plane t pl.toNat with st := .up, rejoin := false, checkFail := false, symptom := none } t)))))) ∧
  (∀ (lm : BitVec 3) (s : State),
    (loom s lm.toNat).st = .up → (loom s lm.toNat).symptomAt = none →
    exec (.loomLinkSymptom lm) s = .next (settle (setLoom lm.toNat
      { loom s lm.toNat with symptomAt := some s.tele.time } s))) ∧
  (∀ (lm : BitVec 3) (t : BitVec 64) (s : State),
    (loom s lm.toNat).symptomAt = some t → now s < t.toNat + 30 * usTicks →
    exec (.loomLinkRecovery lm) s = .next (settle (setLoom lm.toNat
      { loom s lm.toNat with symptomAt := none, recoveries := (loom s lm.toNat).recoveries + 1 } s))) ∧
  (∀ (lm : BitVec 3) (t : BitVec 64) (s : State),
    (loom s lm.toNat).symptomAt = some t →
    exec (.loomLinkDown lm) s = .next (settle (loomDown lm.toNat (reach (t.toNat + 30 * usTicks) s)))) ∧
  (∀ (lm : BitVec 3) (t : State) (s : State),
    (loom s lm.toNat).st ≠ .up → t = reach ((loom s lm.toNat).lastTry.toNat + msTicks) s →
    exec (.loomLinkRetry lm) s = .next (settle (setLoom lm.toNat
      { loom s lm.toNat with st := .retraining, lastTry := t.tele.time } t))) ∧
  (∀ (lm : BitVec 3) (t v : State) (s : State),
    (loom s lm.toNat).st ≠ .up →
    t = (loomXps lm.toNat).foldl (fun s x => if x < 48 then expireDue x (2 * x + 1) (expireDue x (2 * x) s) else
    s) (setLoom lm.toNat { loom s lm.toNat with st := .up } s) →
    v = (loomXps lm.toNat).foldl (fun s x => if linkLive s x && decide ((output s x).st = .held) then resumeOutput
    x s else s) t →
    exec (.loomLinkUp lm) s = .next (settle (unblock (raiseFree 3 0x21 (source 12 lm.toNat) (triggerGone 2
      lm.toNat (condGone 3 0x20 (source 12 lm.toNat) ((loomXps lm.toNat).foldl (fun s x => if x < 48 then
      stopHolds x s else s) v)))))))

/-- Waiting messages, refills, the audit, age discards and held upstream traffic. Rests on R118, R122, R127, R131
to R135, Table 5-3. The model's own choices in it: log entries 8, 9, 22, 31, 40, 83, 119. -/
def Obligations.CellBufferAndReservoirAct : Prop :=
  (∀ (i : BitVec 6) (c : BitVec 3) (w : Waiting) (l : List Waiting) (v : State) (s : State),
    s.fault.safeStop = false → tabGet [] s.xbar.rx (i.toNat * 8 + c.toNat) = w :: l →
    (tryPlace w.outXp.toNat w.msg s).1 = some v →
    exec (.waitingMessageAdmit i c) s = .next (settle (countIn 82 w.msg (creditBack w.msg
      { v with xbar := { v.xbar with rx := tabSet [] v.xbar.rx (i.toNat * 8 + c.toNat) l } })))) ∧
  (∀ (x : BitVec 6) (s : State),
    (output s x.toNat).st = .resuming → marksDone s x.toNat = true → (output s x.toNat).stagedMark = 0 →
    exec (.resumeComplete x) s = .next (settle (setOutSt x.toNat .up s))) ∧
  (∀ (i o : BitVec 6) (mc sc : BitVec 3) (pl : CellPlace) (c : Chunk) (l : List Chunk) (k : Nat) (s : State),
    s.fault.safeStop = false → k = voqIx i.toNat o.toNat mc.toNat sc.toNat → (voq s k).chunks = c :: l →
    segCells (voq s k) < 51 →
    exec (.reservoirRefill i o mc sc .ok .ok pl) s = .next (settle (refill k (voq s k).res.length c.cells s))) ∧
  (∀ (i o : BitVec 6) (mc sc : BitVec 3) (pl : CellPlace) (w : BitVec 64) (c : Chunk) (l : List Chunk) (k : Nat)
      (s : State),
    s.fault.safeStop = false → k = voqIx i.toNat o.toNat mc.toNat sc.toNat → (voq s k).chunks = c :: l →
    segCells (voq s k) < 51 →
    exec (.reservoirRefill i o mc sc (.ue w) .ok pl) s = .next (settle (raiseFree 5 0x11 (srcOfXp (voqOut k))
      (loseChunks k (fun j _ => j == 0) (memRead (8 + nb c.stackB) (.ue w) s)).2))) ∧
  (∀ (s : State),
    s.xbar.auditPhase = .idle →
    exec .auditPassStart s = .next (settle (startPass (reach (s.xbar.auditStart.toNat + bfAudit (bufRec s 64) *
      usTicks) s)))) ∧
  (∀ (s : State),
    s.xbar.auditPhase = .idle →
    exec .auditRun s = .next (settle (startPass s))) ∧
  (∀ (bs : List BrokenList) (t v : State) (s : State),
    s.xbar.auditPhase = .walk → t = bs.foldl breakList s → v = (listed t).foldl colourCell t →
    exec (.auditWalkDone bs) s = .next (settle ({ v with xbar := { v.xbar with auditPhase := .sweep } }))) ∧
  (∀ (l : List Nat) (k : Nat) (t v : State) (s : State),
    s.xbar.auditPhase = .sweep → l = leaked s → k = l.length + (s.xbar.cutFree.map (·.2)).sum →
    t = ownAll l .free s →
    (v = { t with
      xbar := { t.xbar with
          auditPhase := .idle, passes := t.xbar.passes + 1, lastLeaked := BitVec.ofNat 20 k, cutFree := [],
          repairPasses := if k = 0 then t.xbar.repairPasses else satAdd t.xbar.repairPasses 1 } }) →
    exec .auditSweepDone s = .next (settle (if k = 0 then v else raise 4 0x20 (source 0 0) (BitVec.ofNat 64 k)
      v))) ∧
  (∀ (s : State),
    exec .ageCheck s = .next (settle ((tabKeys s.xbar.voqs).foldl (fun s k => if overAge s k then ageDiscard k s
      else s) s))) ∧
  (∀ (u : BitVec 7) (x : Nat) (t : BitVec 64) (v : State) (s : State),
    x = queueXp s (u.toNat / 2) → tabGet none (output s x).upHold (u.toNat % 2) = some t → upHoldEnds s = true →
    v = reach (t.toNat + bfUpHold (bufRec s 64) * usTicks) s →
    exec (.upHoldExpired u) s = .next (settle (depart u.toNat (purge (fun m => decide (outPort s x m = u.toNat))
      x (setOutput x { output v x with upHold := tabSet none (output v x).upHold (u.toNat % 2) none } v)))))

/-- Refills, accepted records, the shaper, samples and sample windows. Rests on R195, R200 to R202, R207. The
model's own choices in it: log entries 8, 35, 56. -/
def Obligations.TrafficEventsAct : Prop :=
  (∀ (ue : Option (BitVec 13 × BitVec 64)) (t : State) (s : State),
    t = trafSync (reach (nextFrame (now s)) s) →
    exec (.bucketRefill ue) s = .next (settle (match ue with | none => t | some p => meterUe p.1.toNat p.2 t))) ∧
  (∀ (k : Nat) (s : State),
    firstSet s = some k →
    exec .trafSetApply s = .next (settle (trafSync (reach k s)))) ∧
  (∀ (b : BitVec 13) (w : Waiting) (l : List Waiting) (t : State) (s : State),
    t = trafSync s → (meter t b.toNat).list = w :: l → tfShape (traf t b.toNat) = false →
    exec (.shaperPass b) s = .next (settle (enqueue w.outXp.toNat w.msg (setMeter b.toNat
      { meter t b.toNat with list := l } t)))) ∧
  (∀ (b : BitVec 13) (w : Waiting) (l : List Waiting) (t v : State) (k : Nat) (s : State),
    t = trafSync s → (meter t b.toNat).list = w :: l → tfShape (traf t b.toNat) = true →
    tfSr (traf t b.toNat) ≠ 0 → k = framesFor (bucketS t b.toNat) (debit t w.msg * 256) (tfSr (traf t b.toNat)) →
    v = (if 0 < k then trafSync (reach ((now t / frameTicks + k) * frameTicks) t) else t) →
    tfShape (traf v b.toNat) = true → debit t w.msg * 256 ≤ bucketS v b.toNat →
    exec (.shaperPass b) s = .next (settle (enqueue w.outXp.toNat w.msg (setMeter b.toNat { meter v b.toNat with
        list := l, ts := (meter v b.toNat).ts.map fun x => x - BitVec.ofNat 32 (debit t w.msg * 256) } v)))) ∧
  (∀ (x : BitVec 6) (w k : Nat) (v t : State) (s : State),
    w = 256 * samplePeriod s x.toNat →
    k = multipleFrom (samplePeriod s x.toNat) (max (now s) (tabGet 0 s.traffic.sampled x.toNat).toNat) →
    (v = if tabGet 0 s.traffic.sampled x.toNat ≠ 0 ∧ lastSample s x.toNat / w < k / w ∧ windowLatched s x.toNat =
    false then windowEnd x.toNat s else s) →
    t = (List.range 8).foldl (sampleClass x.toNat) (reach k v) →
    exec (.queueSample x) s = .next (settle ({ t with
        traffic := { t.traffic with sampled := tabSet 0 t.traffic.sampled x.toNat (BitVec.ofNat 64 (k + 1)) } }))) ∧
  (∀ (x : BitVec 6) (w k : Nat) (t : State) (s : State),
    w = 256 * samplePeriod s x.toNat → k = (lastSample s x.toNat / w + 1) * w →
    t = (List.range 8).foldl (latchClass x.toNat) (reach k s) →
    exec (.sampleWindowEnd x) s = .next (settle ({ t with
        traffic := { t.traffic with
            win := tabSet 0 t.traffic.win x.toNat (BitVec.ofNat 64 ((k - w) % 2 ^ 48 + (fnat (tabGet 0
              t.traffic.win x.toNat) 48 16 + 1) % 2 ^ 16 * 2 ^ 48)) } })))

/-- The 0x08 Nib family on operands in range. Rests on R202, R210. The model's own choices in it: log entries 10,
13, 112. -/
def Obligations.TrafficCommandsAct : Prop :=
  (∀ (r : Req) (b : BitVec 16) (t : State) (s : State),
    serves 0x0801 false r (wBytes 2 b) s → b.toNat < 8192 → t = trafSync s →
    exec (.trafBindingRead r b) s = .next (settle (respond r 0x0801 (wBytes 2 b) (ok (wBytes 64 (traf t b.toNat)
      ++ leBytes 4 (bucketC t b.toNat) ++ leBytes 4 (bucketP t b.toNat) ++ leBytes 4 (bucketS t b.toNat) ++ wBytes
      4 (meter t b.toNat).shaped ++ wBytes 8 (meter t b.toNat).green ++ wBytes 8 (meter t b.toNat).yellow ++
      wBytes 8 (meter t b.toNat).red ++ wBytes 8 (meter t b.toNat).refused)) t))) ∧
  (∀ (r : Req) (b : BitVec 16) (rec_ : BitVec 512) (s : State),
    serves 0x0802 false r (wBytes 2 b ++ zeros 2 ++ wBytes 64 rec_) s → b.toNat < 8192 →
    trafBindOk rec_ (ctxKind (ctx s b.toNat)) (ctxClass (ctx s b.toNat)) = true → planBusy s = false →
    (planWeaves s).any (fun w => overWoven (withSets s b.toNat rec_) w b.toNat) = false →
    exec (.trafBindingSet r b rec_) s = .next (settle (respond r 0x0802 (wBytes 2 b ++ zeros 2 ++ wBytes 64
      rec_) ((acceptSet b.toNat rec_ s).1) ((acceptSet b.toNat rec_ s).2)))) ∧
  (∀ (r : Req) (x : BitVec 8) (t : State) (s : State),
    serves 0x0803 false r (wBytes 1 x) s → x.toNat < 64 → t = trafSync s →
    exec (.trafXpRead r x) s = .next (settle (respond r 0x0803 (wBytes 1 x) (ok (wBytes 64 (traf t (8192 +
      x.toNat)) ++ wBytes 4 (output t x.toNat).promoteIn ++ wBytes 4 (output t x.toNat).promoteOut)) t))) ∧
  (∀ (r : Req) (x : BitVec 8) (rec_ : BitVec 512) (s : State),
    serves 0x0804 false r (wBytes 1 x ++ zeros 3 ++ wBytes 64 rec_) s → x.toNat < 64 → trafXpOk rec_ = true →
    planBusy s = false →
    exec (.trafXpSet r x rec_) s = .next (settle (respond r 0x0804 (wBytes 1 x ++ zeros 3 ++ wBytes 64 rec_)
      ((acceptSet (8192 + x.toNat) rec_ s).1) ((acceptSet (8192 + x.toNat) rec_ s).2)))) ∧
  (∀ (r : Req) (b : BitVec 16) (s : State),
    serves 0x0805 false r (wBytes 2 b) s → b.toNat < 8192 →
    exec (.trafCountersClear r b) s = .next (settle (respond r 0x0805 (wBytes 2 b) ok (setMeter b.toNat
      { meter s b.toNat with shaped := 0, green := 0, yellow := 0, red := 0, refused := 0 } s))))

/-- Entries, locks, fences, the violation record and a reload. Rests on R217, R219, R221 to R224. The model's own
choices in it: log entries 10, 25, 112, 127. -/
def Obligations.ProtectionCommandsAct : Prop :=
  (∀ (r : Req) (i n : BitVec 16) (s : State),
    serves 0x0901 false r (wBytes 2 i ++ wBytes 2 n) s → 1 ≤ n.toNat → n.toNat ≤ 64 → i.toNat + n.toNat ≤ 16384 →
    exec (.protEntryRead r i n) s = .next (settle (respond r 0x0901 (wBytes 2 i ++ wBytes 2 n) (ok ((List.range
      n.toNat).map fun j => wBytes 32 (protEntry s (i.toNat + j))).flatten) s))) ∧
  (∀ (r : Req) (i : BitVec 16) (e : BitVec 256) (s : State),
    serves 0x0902 false r (wBytes 2 i ++ zeros 2 ++ wBytes 32 e) s → i.toNat < 16384 → protOk e = true →
    planBusy s = false → ptLock (protEntry s i.toNat) = false →
    exec (.protEntrySet r i e) s = .next (settle (respond r 0x0902 (wBytes 2 i ++ zeros 2 ++ wBytes 32 e) (ok
      (wBytes 4 (s.prot.epoch + 1))) (newEpoch (setProt i.toNat e s))))) ∧
  (∀ (r : Req) (i n : BitVec 16) (s : State),
    serves 0x0903 false r (wBytes 2 i ++ wBytes 2 n) s → 1 ≤ n.toNat → i.toNat + n.toNat ≤ 16384 →
    planBusy s = false →
    exec (.protLock r i n) s = .next (settle (respond r 0x0903 (wBytes 2 i ++ wBytes 2 n) ok ((List.range
      n.toNat).foldl (fun s j => setProt (i.toNat + j) (ptWithLock (protEntry s (i.toNat + j))) s) s)))) ∧
  (∀ (r : Req) (us : BitVec 32) (t : State) (s : State),
    serves 0x0904 false r (wBytes 4 us) s → s.mgmt.tickets.length < 256 → t = holdTicket 0x0904 r s →
    exec (.protFence r us) s = .next (settle (respond r 0x0904 (wBytes 4 us) (rep 1 (nextTicketNum s).toNat)
      (fencesDone { t with
        prot := { t.prot with
            fences := t.prot.fences ++
              [{ ticket := nextTicketNum s, epoch := t.prot.epoch, since := t.tele.time, limit := us }] } })))) ∧
  (∀ (k : BitVec 16) (f : Fence) (t : State) (s : State),
    s.prot.fences.find? (fun f => decide (f.ticket = k)) = some f → f.limit ≠ 0 →
    t = reach (f.since.toNat + f.limit.toNat * usTicks) s →
    exec (.protFenceTimeout k) s = .next (settle (finishTicket k (fenceReply 0x70 f.epoch (t.prot.prior.setWidth
      32)) { t with prot := { t.prot with fences := t.prot.fences.filter fun g => !decide (g.ticket = k) } }))) ∧
  (∀ (r : Req) (s : State),
    serves 0x0905 false r [] s →
    exec (.protViolRead r) s = .next (settle (respond r 0x0905 [] (ok (violBytes s.prot.viol)) s))) ∧
  (∀ (r : Req) (s : State),
    serves 0x0906 false r [] s →
    exec (.protViolClear r) s = .next (settle (respond r 0x0906 [] (ok (wBytes 2 s.prot.viol.later)) (violClear
      s)))) ∧
  (∀ (s : State),
    s.prot.fresh = none → violNow s.prot.viol s = false →
    exec .violValidClear s = .next (settle
      ({ s with prot := { s.prot with viol := ViolRec.init, fresh := none } }))) ∧
  (∀ (s : State),
    s.prot.fresh = none → violNow s.prot.viol s = true →
    exec .violValidClear s = .next (settle s)) ∧
  (∀ (f : ViolRec) (s : State),
    s.prot.fresh = some f → violNow f s = true →
    exec .violValidClear s = .next (settle (raise 10 1 (violRecSource f) (f.dev.setWidth 64)
      { s with prot := { s.prot with viol := f, fresh := none } }))) ∧
  (∀ (i : BitVec 14) (t : State) (s : State),
    t = tableMend 9 i.toNat s →
    exec (.protEntryReloaded i) s = .next (settle
      ({ t with prot := { t.prot with badEntries := t.prot.badEntries.filter fun j => !decide (j = i.toNat) } })))

/-- A slice takes its oldest request, a holder's write, a BIConflict, a parked message, a directory fill, an answer
of its round and a backing response. Rests on R148 to R152. The model's own choices in it: log entries 8, 32, 33,
84, 132 to 134. -/
def Obligations.ProxyRequestsAct : Prop :=
  (∀ (k : BitVec 3) (e : EMsg) (t : State) (s : State),
    s.fault.safeStop = false → sliceHead s k.toNat = some e → t = sliceTake k.toNat e s →
    exec (.proxyRequest k) s = .next (settle (pumpSlice k.toNat (if (delivered e).op = .biConflict then
      conflictAck k.toNat (delivered e) t else takeIn (delivered e) t)))) ∧
  (∀ (k : BitVec 3) (e : EMsg) (s : State),
    s.fault.safeStop = false → sliceHead s k.toNat = some e → holderWrites s (delivered e) = true →
    exec (.holderWriteback k) s = .next (settle (pumpSlice k.toNat (takeIn (delivered e) (sliceTake k.toNat e
      s))))) ∧
  (∀ (k : BitVec 3) (e : EMsg) (s : State),
    s.fault.safeStop = false → sliceHead s k.toNat = some e → (delivered e).op = .biConflict →
    exec (.biconflict k) s = .next (settle (conflictAck k.toNat (delivered e) (sliceTake k.toNat e s)))) ∧
  (∀ (k : BitVec 3) (q : Parked) (t : State) (s : State),
    s.fault.safeStop = false →
    (slice s k.toNat).park.find? (fun q => kindFree s k.toNat (holderWrites s q.msg)) = some q →
    t = uncharge (keyIx (56 + k.toNat / 2) 1) (cellsOf q.msg) (ownAll q.cells .free (setSlice k.toNat
    { slice s k.toNat with park := (slice s k.toNat).park.erase q } s)) →
    exec (.parkedTakeTracker k) s = .next (settle (pumpSlice k.toNat (admitMsg q.msg t)))) ∧
  (∀ (sa : BitVec 48) (x : Tracker) (s : State),
    s.fault.safeStop = false → trackerOf s sa = some x → x.stage = .fill →
    exec (.directoryFill sa .ok) s = .next (settle (pumpSlice (saSlice sa) (act { x with known := true }
      (mapTracker sa (fun t => { t with known := true }) s))))) ∧
  (∀ (k : BitVec 3) (e : EMsg) (t v : State) (s : State),
    s.fault.safeStop = false →
    stagedFirst s (56 + k.toNat / 2) 4 (fun m => decide (m.req = .slice k m.sa)) = some e →
    answerNo (delivered e).op ≠ 0 → t = unstage (56 + k.toNat / 2) e s →
    countAnswer (delivered e).sa (delivered e).feid.toNat (answerNo (delivered e).op) t = some v →
    exec (.birspReceive k) s = .next (settle (pumpSlice k.toNat v))) ∧
  (∀ (k : BitVec 3) (c : Msg) (x : Tracker) (b : Bool) (t : State) (s : State),
    s.fault.safeStop = false → nextBacking k.toNat s = some (c, b, t) → c.tag = 0 → trackerOf t c.sa = some x →
    x.stage = .backing →
    exec (.proxyBackingResponse k) s = .next (settle (pumpSlice k.toNat (trackerDone x c b t)))) ∧
  (∀ (k : BitVec 3) (c m : Msg) (b : Bool) (t : State) (g : PxEvent) (s : State),
    s.fault.safeStop = false → nextBacking k.toNat s = some (c, b, t) → c.tag = 1 →
    (slice t k.toNat).wbs.find? (fun m => decide (lineNo m.sa = lineNo c.sa)) = some m →
    (g = if b then .wrI else (pxEvent t m).getD .wrI) →
    exec (.proxyBackingResponse k) s = .next (settle (pumpSlice k.toNat (dirSettle m.sa (pxComplete m (pxReply m
      g { c with data := 0, poison := false }) b (setSlice k.toNat
      { slice t k.toNat with wbs := (slice t k.toNat).wbs.erase m } t)))))) ∧
  (∀ (sa : BitVec 48) (u : BitVec 7) (k : BitVec 64) (s : State),
    s.fault.safeStop = false → snoopSince s sa u.toNat = some k → (port s u.toNat).st = .up →
    exec (.biTimeout sa u) s = .next (settle (pumpAll (depart u.toNat (raiseFree 7 0x10 (source 1 u.toNat)
      (reach (k.toNat + biTicks s) s)))))) ∧
  (∀ (u : Nat) (l : List Nat) (s : State),
    s.fault.safeStop = false → s.proxy.sweeps = u :: l →
    exec .sweepDone s = .next (settle (raiseFree 7 0x12 (source 1 u) (sweep u
      { s with proxy := { s.proxy with sweeps := l } }))))

/-- Doorbells, queue configuration, a reset and the two mailboxes of an instance page. Rests on R170, R182, R188,
R189. The model's own choices in it: log entries 65, 66, 127. -/
def Obligations.InstancePageWritesAct : Prop :=
  (∀ (i : BitVec 10) (q : BitVec 2) (p : BitVec 16) (s : State),
    exec (.doorbell i q p) s = .next (settle (if (inst s i.toNat).st = .disabled then s else takeProducer
      i.toNat q.toNat p s))) ∧
  (∀ (i : BitVec 10) (q : BitVec 2) (v : BitVec 32) (t : State) (s : State),
    t = cfgQueue i.toNat q.toNat v s →
    exec (.queueEnableWrite i q v) s = .next (settle (if (queueOf (inst s i.toNat) q.toNat).enable = false ∧ bit
      v 0 = true ∧ (inst s i.toNat).st ≠ .disabled then takeProducer i.toNat q.toNat (queueOf (inst t i.toNat)
      q.toNat).producer t else pumpQueue i.toNat q.toNat t))) ∧
  (∀ (i : BitVec 10) (s : State),
    (inst s i.toNat).st = .ready ∨ (inst s i.toNat).st = .freezing ∨ (inst s i.toNat).st = .frozen →
    exec (.instanceResetWrite i) s = .next (settle (startReset i.toNat false s))) ∧
  (∀ (i : BitVec 10) (s : State),
    (inst s i.toNat).st = .disabled →
    exec (.instanceResetWrite i) s = .next (settle s)) ∧
  (∀ (i : BitVec 10) (s : State),
    (inst s i.toNat).st = .resetting →
    exec (.instanceResetWrite i) s = .next (settle (setInst i.toNat
      { inst s i.toNat with resetAt := some s.tele.time } s))) ∧
  (∀ (i : BitVec 10) (k : BitVec 9) (s : State),
    (inst s i.toNat).t2oFull = false → (inst s i.toNat).st ≠ .resetting →
    exec (.mboxT2oSend i k) s = .next (settle (queueEvent 3 (BitVec.ofNat 128 i.toNat) (setInst i.toNat
      { inst s i.toNat with t2oLen := BitVec.ofNat 9 (min k.toNat 256), t2oFull := true } s)))) ∧
  (∀ (i : BitVec 10) (s : State),
    (inst s i.toNat).o2tAt = some s.tele.time →
    exec (.mboxO2tAck i) s = .next (settle s)) ∧
  (∀ (i : BitVec 10) (s : State),
    (inst s i.toNat).st ≠ .resetting → (inst s i.toNat).o2tAt ≠ some s.tele.time →
    exec (.mboxO2tAck i) s = .next (settle (setInst i.toNat { inst s i.toNat with o2tFull := false } s)))

/-- Fetches, dispatch, lines, an engine's fault, token refills and migration spans. Rests on R161 to R163, R171 to
R178, R84. The model's own choices in it: log entries 8, 65, 66, 68. -/
def Obligations.ScribeEnginesAct : Prop :=
  (∀ (h : BitVec 1) (m : Msg) (e : Bool) (t : State) (s : State),
    s.fault.safeStop = false → takeBack true h s = some ((m, e), t) →
    exec (.descriptorFetchDone h) s = .next (settle (fetchBack m e t))) ∧
  (∀ (h : BitVec 1) (m : Msg) (e : Bool) (t : State) (s : State),
    s.fault.safeStop = false → takeBack false h s = some ((m, e), t) →
    exec (.lineComplete h) s = .next (settle (lineBack m e t))) ∧
  (∀ (d : Desc) (e : Nat) (s : State),
    s.fault.safeStop = false → s.scribe.descs = [d] → d.stage = .ready → (inst s d.inst.toNat).st = .ready →
    pickEngine s d.inst.toNat = some e →
    exec .descriptorDispatch s = .next (settle (dispatch d e s))) ∧
  (∀ (e : BitVec 4) (ue : DecodeUe) (d : Desc) (t : State) (s : State),
    s.fault.safeStop = false → t = scribeSync (reach (((engine s e.toNat).nextIssue + 4) / 5) s) →
    engineRuns t e.toNat = true → nextChannel t e.toNat = some d →
    exec (.lineIssue e ue) s = .next (settle (issueLine d ue (setEngine e.toNat
      { engine t e.toNat with rotor := d.order, nextIssue := max (engine t e.toNat).nextIssue (5 * now t) + 128 }
      t)))) ∧
  (∀ (e : BitVec 4) (s : State),
    exec (.engineFault e) s = .next (settle (raiseFree 8 0x20 (source 8 e.toNat) (engineFail e.toNat s)))) ∧
  (∀ (s : State),
    exec .tokenRefill s = .next (settle (scribeSync (reach ((s.scribe.refilled.toNat + 1) * refillTicks) s)))) ∧
  (∀ (k : BitVec 4) (d : Desc) (s : State),
    s.fault.safeStop = false → (migDesc s k.toNat) = some d → (migSlot s k.toNat).st = .copying →
    (migSlot s k.toNat).span = 0 → (inst s d.inst.toNat).st = .ready → engineRuns s d.engine.toNat = true →
    inTurn s d = true →
    exec (.migrationSpanOpen k) s = .next (settle (setMig k.toNat { migSlot s k.toNat with
        span := BitVec.ofNat 8 (min 64 (32768 - (migSlot s k.toNat).watermark.toNat)),
        phase := !(migSlot s k.toNat).phase } s))) ∧
  (∀ (k : BitVec 4) (d : Desc) (w : Nat) (s : State),
    s.fault.safeStop = false → (migDesc s k.toNat) = some d →
    w = (migSlot s k.toNat).watermark.toNat + (migSlot s k.toNat).span.toNat → (migSlot s k.toNat).span ≠ 0 →
    d.next = w → d.flight = [] → w < 32768 →
    exec (.migrationSpanClose k) s = .next (settle (releaseStall true k.toNat (setMig k.toNat
      { migSlot s k.toNat with watermark := BitVec.ofNat 16 w, span := 0 } s)))) ∧
  (∀ (k : BitVec 4) (d : Desc) (t v : State) (s : State),
    s.fault.safeStop = false → (migDesc s k.toNat) = some d →
    (migSlot s k.toNat).watermark.toNat + (migSlot s k.toNat).span.toNat = 32768 → (migSlot s k.toNat).span ≠ 0 →
    d.next = 32768 → d.flight = [] →
    t = releaseStall true k.toNat (setMig k.toNat { migSlot s k.toNat with watermark := 32768, span := 0 } s) →
    v = setMig k.toNat { migSlot t k.toNat with st := .idle, watermark := 0 } (setPage (migSlot s
    k.toNat).page.toNat (pgMoved (pageEntry t (migSlot s k.toNat).page.toNat)) t) →
    exec (.migrationSpanClose k) s = .next (settle (settleDesc { d with slot := none } (putDesc d
      { d with slot := none } v)))) ∧
  (∀ (i : BitVec 10) (s : State),
    (inst s i.toNat).st = .freezing → quiet s i.toNat = true →
    exec (.freezeComplete i) s = .next (settle (finishAll (inst s i.toNat).freezeTickets ok (setInst i.toNat
      { inst s i.toNat with st := .frozen, freezeTickets := [] } s)))) ∧
  (∀ (i : BitVec 10) (t : State) (s : State),
    (inst s i.toNat).st = .resetting → liveLines s i.toNat = 0 → t = endReset i.toNat (scribeSync s) →
    exec (.instanceResetComplete i) s = .next (settle (if (inst s i.toNat).resetAt = some s.tele.time ∧ (inst t
      i.toNat).st = .ready then startReset i.toNat false t else t)))

/-- The 0x07 Nib family on operands in range and instances in the states each command asks for. Rests on R166,
R167, R171, R174, R175, R179 to R183, R188 to R190. The model's own choices in it: log entries 10, 13, 66, 67. -/
def Obligations.ScribeCommandsAct : Prop :=
  (∀ (r : Req) (i f em dq sh bu : BitVec 16) (bs : BitVec 128) (s : State),
    serves 0x0701 false r (wBytes 2 i ++ wBytes 2 f ++ wBytes 2 em ++ wBytes 2 dq ++ wBytes 2 sh ++ wBytes 2 bu ++
    wBytes 16 bs) s →
    i.toNat < 1024 → f.toNat < 2 → dq.toNat ≤ 4096 → sh.toNat ≤ 20000 →
    (List.range 8).find? (fun k => decide (8192 ≤ fnat bs (16 * k) 16 ∧ fnat bs (16 * k) 16 ≠ 0xFFFF)) = none →
    (inst s i.toNat).st = .disabled →
    (List.range 8).any (fun k => decide (fnat bs (16 * k) 16 < 8192) && decide (ctxKind (ctx s (fnat bs (16 * k)
    16)) ≠ 1)) = false →
    s.scribe.insts.foldl (fun t p => if p.1 = i.toNat then t else t + p.2.descQuota.toNat) 0 + dq.toNat ≤ 65536 →
    exec (.instanceConfig r i f em dq sh bu bs) s = .next (settle (respond r 0x0701 (wBytes 2 i ++ wBytes 2 f ++
      wBytes 2 em ++ wBytes 2 dq ++ wBytes 2 sh ++ wBytes 2 bu ++ wBytes 16 bs) ok (setInst i.toNat
      { inst s i.toNat with
        migrateOk := bit f 0, engineMask := em, descQuota := dq, share := sh, burst := bu, newShare := none,
        bslots := (List.range 8).foldl (fun t k => tabSet 0xFFFF t k (fld bs (16 * k) 16)) [] } (scribeSync s))))) ∧
  (∀ (r : Req) (i : BitVec 16) (t : State) (v : Inst) (s : State),
    serves 0x0702 false r (wBytes 2 i) s → i.toNat < 1024 → t = scribeSync s → v = inst t i.toNat →
    exec (.instanceRead r i) s = .next (settle (respond r 0x0702 (wBytes 2 i) (ok (wBytes 2 i ++ leBytes 2 (nb
      v.migrateOk) ++ wBytes 2 v.engineMask ++ wBytes 2 v.descQuota ++ wBytes 2 v.share ++ wBytes 2 v.burst ++
      ((List.range 8).map fun k => wBytes 2 (tabGet 0xFFFF v.bslots k)).flatten ++ leBytes 1 (instNum v.st) ++
      leBytes 1 (causeNum v) ++ wBytes 2 v.tokens ++ ((List.range 4).map fun q => wBytes 2 (queueOf v q).producer
      ++ wBytes 2 (queueOf v q).consumer ++ leBytes 1 (qerrNum (queueOf v q).err) ++ [0]).flatten ++ wBytes 8
      v.cntLines ++ wBytes 8 v.cntDescs)) t))) ∧
  (∀ (r : Req) (i : BitVec 16) (s : State),
    serves 0x0703 false r (wBytes 2 i) s → i.toNat < 1024 → (inst s i.toNat).st = .disabled →
    exec (.instanceEnable r i) s = .next (settle (respond r 0x0703 (wBytes 2 i) ok (fetchAll i.toNat (setInst
      i.toNat { inst s i.toNat with st := .ready } s))))) ∧
  (∀ (r : Req) (i f : BitVec 16) (t : State) (s : State),
    serves 0x0704 false r (wBytes 2 i ++ wBytes 2 f) s → i.toNat < 1024 → f.toNat < 2 →
    (inst s i.toNat).st = .ready ∨ (inst s i.toNat).st = .freezing ∨ (inst s i.toNat).st = .frozen →
    s.mgmt.tickets.length < 256 → t = startReset i.toNat (bit f 0) (holdTicket 0x0704 r s) →
    exec (.instanceReset r i f) s = .next (settle (respond r 0x0704 (wBytes 2 i ++ wBytes 2 f) (rep 1
      (nextTicketNum s).toNat) (setInst i.toNat
      { inst t i.toNat with resetTickets := (inst t i.toNat).resetTickets ++ [nextTicketNum s] } t)))) ∧
  (∀ (r : Req) (i : BitVec 16) (t : State) (s : State),
    serves 0x0705 false r (wBytes 2 i) s → i.toNat < 1024 →
    (inst s i.toNat).st = .ready ∨ (inst s i.toNat).st = .freezing → s.mgmt.tickets.length < 256 →
    t = freezeInst i.toNat false (holdTicket 0x0705 r s) →
    exec (.instanceFreeze r i) s = .next (settle (respond r 0x0705 (wBytes 2 i) (rep 1 (nextTicketNum s).toNat)
      (setInst i.toNat
      { inst t i.toNat with freezeTickets := (inst t i.toNat).freezeTickets ++ [nextTicketNum s] } t)))) ∧
  (∀ (r : Req) (i : BitVec 16) (s : State),
    serves 0x0705 false r (wBytes 2 i) s → i.toNat < 1024 → (inst s i.toNat).st = .frozen →
    s.mgmt.tickets.length < 256 →
    exec (.instanceFreeze r i) s = .next (settle (respond r 0x0705 (wBytes 2 i) (rep 1 (nextTicketNum s).toNat)
      (finishTicket (nextTicketNum s) ok (freezeInst i.toNat false (holdTicket 0x0705 r s)))))) ∧
  (∀ (r : Req) (i c : BitVec 16) (s : State),
    serves 0x0706 false r (wBytes 2 i ++ wBytes 2 c) s → i.toNat < 1024 → c.toNat < 4 →
    (inst s i.toNat).st = .freezing ∨ (inst s i.toNat).st = .frozen →
    ((inst s i.toNat).causeProt && !bit c 0 || (inst s i.toNat).causeOwner && !bit c 1) = true →
    exec (.instanceThaw r i c) s = .next (settle (respond r 0x0706 (wBytes 2 i ++ wBytes 2 c) ok (setInst
      i.toNat { inst s i.toNat with
        causeProt := (inst s i.toNat).causeProt && !bit c 0, causeOwner := (inst s i.toNat).causeOwner && !bit c 1 }
      s)))) ∧
  (∀ (r : Req) (i c : BitVec 16) (s : State),
    serves 0x0706 false r (wBytes 2 i ++ wBytes 2 c) s → i.toNat < 1024 → c.toNat < 4 →
    (inst s i.toNat).st = .freezing ∨ (inst s i.toNat).st = .frozen →
    ((inst s i.toNat).causeProt && !bit c 0 || (inst s i.toNat).causeOwner && !bit c 1) = false →
    exec (.instanceThaw r i c) s = .next (settle (respond r 0x0706 (wBytes 2 i ++ wBytes 2 c) ok (fetchAll
      i.toNat (finishAll (inst s i.toNat).freezeTickets (rep 0x0701) (setInst i.toNat
      { inst s i.toNat with st := .ready, freezeTickets := [], causeProt := false, causeOwner := false } s)))))) ∧
  (∀ (r : Req) (i : BitVec 16) (s : State),
    serves 0x0707 false r (wBytes 2 i) s → i.toNat < 1024 → (inst s i.toNat).st = .frozen →
    s.scribe.descs.any (fun d => decide (d.inst.toNat = i.toNat) && d.slot.isSome) = false →
    exec (.instanceSave r i) s = .next (settle (respond r 0x0707 (wBytes 2 i) (ok (blobBody (scribeSync s)
      i.toNat ++ wBytes 4 (crc32 (blobBody (scribeSync s) i.toNat)))) (scribeSync s)))) ∧
  (∀ (r : Req) (i : BitVec 16) (b : List Byte) (t : State) (s : State),
    serves 0x0708 false r (wBytes 2 i ++ zeros 2 ++ b) s → b.length = 4096 → i.toNat < 1024 →
    (inst s i.toNat).st = .disabled → blobOk b = true →
    (List.range 8).any (fun k => decide (leAt b (0x20 + 4 * k) 4 ≠ (slotCookie s (inst s i.toNat) k).toNat)) =
    false →
    t = scribeSync s →
    exec (.instanceRestore r i b) s = .next (settle (respond r 0x0708 (wBytes 2 i ++ zeros 2 ++ b) ok (setInst
      i.toNat (restoreInst b (inst t i.toNat)) t)))) ∧
  (∀ (r : Req) (i sh bu : BitVec 16) (t : State) (s : State),
    serves 0x0709 false r (wBytes 2 i ++ wBytes 2 sh ++ wBytes 2 bu) s → i.toNat < 1024 → sh.toNat ≤ 20000 →
    t = scribeSync s →
    exec (.instanceSetShare r i sh bu) s = .next (settle (respond r 0x0709 (wBytes 2 i ++ wBytes 2 sh ++ wBytes
      2 bu) ok (setInst i.toNat { inst t i.toNat with newShare := some (sh, bu) } t)))) ∧
  (∀ (r : Req) (i : BitVec 16) (s : State),
    serves 0x070A false r (wBytes 2 i) s → i.toNat < 1024 → (inst s i.toNat).st ≠ .resetting →
    (inst s i.toNat).t2oFull = true →
    exec (.mboxRead r i) s = .next (settle (respond r 0x070A (wBytes 2 i) (ok (leBytes 2 (inst s
      i.toNat).t2oLen.toNat ++ (mailBytes (inst s i.toNat).t2oData).take (inst s i.toNat).t2oLen.toNat)) (setInst
      i.toNat { inst s i.toNat with t2oFull := false } s)))) ∧
  (∀ (r : Req) (i k : BitVec 16) (d : List Byte) (t : State) (s : State),
    serves 0x070B false r (wBytes 2 i ++ wBytes 2 k ++ d) s → i.toNat < 1024 → k.toNat ≤ 256 →
    d.length = k.toNat → (inst s i.toNat).st ≠ .resetting → (inst s i.toNat).o2tFull = false →
    t = setInst i.toNat { inst s i.toNat with
      o2tLen := k.setWidth 9, o2tFull := true, o2tAt := some s.tele.time,
      o2tData := tabWrite 0 (inst s i.toNat).o2tData 0 d } s →
    exec (.mboxSend r i k d) s = .next (settle (respond r 0x070B (wBytes 2 i ++ wBytes 2 k ++ d) ok (if (inst s
      i.toNat).o2tIrq then instIrq i.toNat 4 t else t)))) ∧
  (∀ (r : Req) (e : BitVec 8) (s : State),
    serves 0x070C false r (wBytes 1 e) s → e.toNat < 16 →
    exec (.engineStatus r e) s = .next (settle (respond r 0x070C (wBytes 1 e) (ok (leBytes 1 (nb (engine s
      e.toNat).resetting) ++ leBytes 1 (channels s e.toNat).length ++ leBytes 2 (engineFlight s e.toNat) ++ wBytes
      8 (engine s e.toNat).lines)) s)))

/-- Loading, committing, aborting, activating and persisting a plan, its status and reading its tables. Rests on
R43 to R50, R503, R479. The model's own choices in it: log entries 10, 27, 70 to 74, 77 to 80, 129. -/
def Obligations.PlanLoadingActs : Prop :=
  (∀ (r : Req) (k : BitVec 16) (n : BitVec 64) (s : State),
    serves 0x0201 false r (wBytes 2 k ++ zeros 2 ++ wBytes 8 n) s → k.toNat < 2 → s.plan.shadowState = .empty →
    exec (.planLoadBegin r k n) s = .next (settle (respond r 0x0201 (wBytes 2 k ++ zeros 2 ++ wBytes 8 n) ok
      ({ dropLoad s with
        plan := { (dropLoad s).plan with
            shadowState := .loading, loadKind := k, loadLength := n, loadOwner := some r.src,
            loadActivated := false } })))) ∧
  (∀ (r : Req) (o : BitVec 64) (d : List Byte) (s : State),
    serves 0x0202 false r (wBytes 8 o ++ leBytes 4 d.length ++ d) s → 1 ≤ d.length → d.length ≤ 4096 →
    s.plan.shadowState = .loading → s.plan.loadOwner = some r.src → o.toNat = s.plan.loadBytes.length →
    s.plan.loadBytes.length + d.length ≤ s.plan.loadLength.toNat →
    exec (.planLoadData r o d) s = .next (settle (respond r 0x0202 (wBytes 8 o ++ leBytes 4 d.length ++ d) (ok
      (leBytes 8 (s.plan.loadBytes.length + d.length))) (loadPages 16384
      { s with plan := { s.plan with loadBytes := s.plan.loadBytes ++ d } })))) ∧
  (∀ (r : Req) (f : BitVec 32) (t : State) (s : State),
    serves 0x0203 false r (wBytes 4 f) s → f.toNat < 2 → s.plan.shadowState = .loading →
    s.plan.loadOwner = some r.src → s.sealu.ringFault = false → s.mgmt.tickets.length < 256 →
    t = holdTicket 0x0203 r s →
    exec (.planCommit r f) s = .next (settle (respond r 0x0203 (wBytes 4 f) (rep 1 (nextTicketNum s).toNat)
      ({ t with
        plan :=
          { t.plan with shadowState := .validating, commitTicket := some (nextTicketNum s), persist := bit f 0 } })))) ∧
  (∀ (k : BitVec 64) (env : Env) (s : State),
    s.plan.shadowState = .validating →
    exec (.planCommitComplete k env) s = .next (settle (validate env.append true (leAt s.plan.loadBytes 0x28 8)
      (reach k.toNat s)))) ∧
  (∀ (r : Req) (env : Env) (s : State),
    serves 0x0204 false r [] s → s.plan.shadowState = .loading → s.plan.loadOwner = some r.src →
    s.plan.commitTicket = none →
    exec (.planAbort r env) s = .next (settle (respond r 0x0204 [] ok (dropLoad s)))) ∧
  (∀ (r : Req) (env : Env) (t : State) (s : State),
    serves 0x0204 false r [] s → s.plan.shadowState = .armed → s.plan.loadOwner = some r.src →
    now s < s.plan.boundary.toNat → appendNow env.append (planAppend s true s.plan.loadBytes) s = (true, t) →
    exec (.planAbort r env) s = .next (settle (respond r 0x0204 [] ok (dropLoad t)))) ∧
  (∀ (r : Req) (s : State),
    serves 0x0205 false r [] s → s.plan.chain.length ≤ 15 →
    exec (.planStatus r) s = .next (settle (respond r 0x0205 [] (ok (wBytes 8 s.plan.planId ++ wBytes 4
      s.plan.generation ++ leBytes 1 (shadowNum s.plan.shadowState) ++ leBytes 1 s.plan.chain.length ++ leBytes 2
      (currentSet s) ++ wBytes 8 s.plan.boundary ++ wBytes 2 s.plan.lastStatus ++ wBytes 4 s.plan.lastDetail ++
      wBytes 1 s.plan.unforeseen ++ (s.plan.chain.map fun c => wBytes 2 c.set ++ wBytes 1 c.cls ++ wBytes 1
      c.index).flatten)) s))) ∧
  (∀ (s : State),
    s.plan.shadowState = .armed →
    exec .planActivation s = .next (settle (activatePlan (reach s.plan.boundary.toNat s)))) ∧
  (∀ (s : State),
    s.plan.persistDue = true →
    exec .planPersist s = .next (settle (persistChain s))) ∧
  (∀ (r : Req) (ty : BitVec 16) (i : BitVec 32) (n : BitVec 16) (p : List Byte) (s : State),
    serves 0x0208 false r (wBytes 2 ty ++ zeros 2 ++ wBytes 4 i ++ wBytes 2 n) s → 1 ≤ ty.toNat → ty.toNat ≤ 12 →
    1 ≤ n.toNat → n.toNat ≤ 64 → i.toNat + n.toNat ≤ heddleLimit s ty.toNat →
    p = ((List.range n.toNat).map fun k => (heddleRecord s ty.toNat (i.toNat + k)).getD []).flatten →
    16 + p.length ≤ maxResponse r.src →
    exec (.heddleRead r ty i n) s = .next (settle (respond r 0x0208 (wBytes 2 ty ++ zeros 2 ++ wBytes 4 i ++
      wBytes 2 n) (ok p) s)))

/-- Applying and restoring alternates by command, trigger, notice and stable period, the weave switch and a word's
reload. Rests on R51 to R60, R367, R370. The model's own choices in it: log entries 8, 10, 72, 75, 81, 131. -/
def Obligations.AlternatesAct : Prop :=
  (∀ (r : Req) (k : BitVec 16) (s : State),
    serves 0x0206 false r (wBytes 2 k) s → 1 ≤ k.toNat → k.toNat < setCount s →
    dParent (altSet s k.toNat).desc = currentSet s → s.plan.work = .idle → s.plan.restoreWant = none →
    exec (.planApplyAlternate r k) s = .next (settle (respond r 0x0206 (wBytes 2 k) ok (enterSet
      { set := k, cls := 0xFF, index := 0, notice := none, byCommand := true, upSince := none } none
      { s with plan := { s.plan with unforeseen := 0 } })))) ∧
  (∀ (r : Req) (k : BitVec 16) (s : State),
    serves 0x0207 false r (wBytes 2 k) s → k ≠ 0 →
    s.plan.chain.dropLast.any (fun c => decide (c.set = k)) = true →
    exec (.planRestore r k) s = .next (settle (respond r 0x0207 (wBytes 2 k) ok (wantRestore k s)))) ∧
  (∀ (r : Req) (s : State),
    serves 0x0207 false r (wBytes 2 0#16) s →
    exec (.planRestore r 0) s = .next (settle (respond r 0x0207 (wBytes 2 0#16) ok (if s.plan.chain = [] then s
      else wantRestore 0 s)))) ∧
  (∀ (s : State),
    exec .triggerLookup s = .next (settle (heddleNextN 1 s))) ∧
  (∀ (s : State),
    exec .patchApplyDone s = .next (settle (patchesDone s))) ∧
  (∀ (s : State),
    s.plan.weaveDue.isSome = true →
    exec .alternateWeaveSwitch s = .next (settle (switchWeave (reach (nextFrame (now s)) s)))) ∧
  (∀ (l : BitVec 3) (id : BitVec 8) (t : State) (s : State),
    takeHeard l.toNat .apply id s = some t →
    exec (.applyNoticeReceive l id) s = .next (settle (noticeIn id t))) ∧
  (∀ (l : BitVec 3) (id : BitVec 8) (t : State) (s : State),
    takeHeard l.toNat .restore id s = some t →
    exec (.restoreNoticeReceive l id) s = .next (settle (restoreIn id t))) ∧
  (∀ (c : ChainLink) (k : BitVec 64) (s : State),
    s.plan.chain.getLast? = some c → c.upSince = some k → currentMode s = 1 → stablePeriod s ≠ 0 →
    exec .stablePeriodExpiry s = .next (settle (wantRestore (parentOf s) (reach (k.toNat + stablePeriod s *
      msTicks) s)))) ∧
  (∀ (k : BitVec 16) (s : State),
    s.plan.work = .idle → s.plan.restoreWant = some k →
    exec .alternateRestored s = .next (settle (restoreTo k { reach (nextFrame (now s)) s with
        plan := { (reach (nextFrame (now s)) s).plan with restoreWant := none } }))) ∧
  (∀ (s : State),
    s.plan.work = .rewriting →
    exec .restorationRewriteDone s = .next (settle (heddleNext
      { s with plan := { s.plan with work := .idle } }))) ∧
  (∀ (se : BitVec 16) (i : BitVec 32) (o : BitVec 28) (a b : Ecc) (t : State) (bad : Bool) (s : State),
    tableBad s se.toNat i.toNat = true → mirrorRead o.toNat a b s = (bad, t) →
    exec (.heddleWordReload se i o a b) s = .next (settle (if bad then raiseFree 6 0x25 (source 0 0) t else
      heddleNext (unblock (tableMend se.toNat i.toNat t)))))

/-- The pins of a bay, the debounce, a ramp, power-good and PERST. Rests on R423, R425, R427. The model's own
choices in it: log entries 8, 51. -/
def Obligations.SlotInsertionActs : Prop :=
  (∀ (n : BitVec 5) (b : Bool) (s : State),
    n.toNat ≤ 23 → (slotCh s n.toNat).prsntL ≠ b →
    exec (.longPinChange n b) s = .next (settle (wakeBy 4 n.toNat (slotSts n.toNat 3 (setSlot n.toNat
      { slotCh s n.toNat with prsntL := b } s))))) ∧
  (∀ (n : BitVec 5) (t : State) (s : State),
    n.toNat ≤ 23 → (slotCh s n.toNat).shortPin = false →
    t = setSlot n.toNat { slotCh s n.toNat with shortPin := true, closeAt := some s.aon, openAt := none } s →
    exec (.shortPinClose n) s = .next (settle (if (slotCh s n.toNat).st = .empty then slotTo n.toNat .debounce t
      else t))) ∧
  (∀ (n : BitVec 5) (k : BitVec 64) (t v w : State) (s : State),
    (slotCh s n.toNat).closeAt = some k → t = reachAon (k.toNat + 20 * msTicks) s →
    v = setSlot n.toNat
    { slotCh t n.toNat with closeAt := none, prsntS := true, insertions := (slotCh t n.toNat).insertions + 1 } t →
    w = (if ctlAuto (slotCh t n.toNat) then setOn n.toNat true v else v) →
    exec (.debounceEnd n) s = .next (settle (wakeBy 4 n.toNat (if (slotCh t n.toNat).st = .debounce then slotTo
      n.toNat .wait w else w)))) ∧
  (∀ (n : BitVec 5) (s : State),
    (slotCh s n.toNat).st = .wait → ctlOn (slotCh s n.toNat) = true → (slotCh s n.toNat).retryActive = false →
    s.slot.busUv = false → s.slot.busOv = false → s.slot.vselLost = false →
    exec (.rampStart n) s = .next (settle (slotTo n.toNat .ramp (setSlot n.toNat
      { slotCh s n.toNat with gateOn := true, gateOffAt := none, rampAt := some s.aon } s)))) ∧
  (∀ (n : BitVec 5) (v : BitVec 16) (s : State),
    (slotCh s n.toNat).st = .ramp → pgLevel s ≤ v.toNat →
    exec (.pgQualify n v) s = .next (settle (slotTo n.toNat .pgDelay (setSlot n.toNat { slotCh s n.toNat with
        vout := v, pgFrom := if (slotCh s n.toNat).breakerAt.isNone then some s.aon else none } s)))) ∧
  (∀ (n : BitVec 5) (k : BitVec 64) (t : State) (s : State),
    (slotCh s n.toNat).pgFrom = some k → (slotCh s n.toNat).st = .pgDelay →
    t = reachAon (k.toNat + pgDelay (slotCh s n.toNat) * usTicks) s →
    exec (.pgAssert n) s = .next (settle (slotTo n.toNat .on (setSlot n.toNat
      { slotCh s n.toNat with pg := true, pgFrom := none, rampAt := none, perstFrom := some t.aon } t)))) ∧
  (∀ (n : BitVec 5) (k : BitVec 64) (s : State),
    (slotCh s n.toNat).perstFrom = some k → (slotCh s n.toNat).pg = true → (slotCh s n.toNat).perstHold = false →
    exec (.perstRelease n) s = .next (settle (setPerst n.toNat false (reachAon (k.toNat + perstDelay (slotCh s
      n.toNat) * msTicks) s)))) ∧
  (∀ (n : BitVec 5) (v : BitVec 16) (s : State),
    (slotCh s n.toNat).st = .pgDelay →
    exec (.powerGoodDrop n v) s = .next (settle (slotTo n.toNat .ramp (setSlot n.toNat
      { slotCh s n.toNat with vout := v, pgFrom := none } s)))) ∧
  (∀ (n : BitVec 5) (v : BitVec 16) (s : State),
    (slotCh s n.toNat).st = .on →
    exec (.powerGoodDrop n v) s = .next (settle (slotTo n.toNat .ramp (setPerst n.toNat true (setSlot n.toNat
      { slotCh s n.toNat with vout := v, pg := false, perstFrom := none, rampAt := some s.aon } s)))))

/-- Current limit, breaker and fast trips, a ramp that fails, retries, removal, power-off, damage and the bay bus.
Rests on R426, R428 to R437. The model's own choices in it: log entries 8, 40, 51, 85. -/
def Obligations.SlotOverloadAndRemovalAct : Prop :=
  (∀ (n : BitVec 5) (i : BitVec 16) (s : State),
    (slotCh s n.toNat).gateOn = true → gcIlimit (slotCh s n.toNat).gateCtl * 100 ≤ i.toNat →
    exec (.currentLimit n i) s = .next (settle (setSlot n.toNat { slotCh s n.toNat with
        iout := i, pgFrom := none,
        breakerAt := if (slotCh s n.toNat).breakerAt.isSome then (slotCh s n.toNat).breakerAt else some s.aon }
      s))) ∧
  (∀ (n : BitVec 5) (i : BitVec 16) (s : State),
    (slotCh s n.toNat).breakerAt.isSome = true → i.toNat < gcIlimit (slotCh s n.toNat).gateCtl * 100 →
    exec (.breakerTimerClear n i) s = .next (settle (setSlot n.toNat { slotCh s n.toNat with
        iout := i, breakerAt := none,
        pgFrom := if (slotCh s n.toNat).st = .pgDelay then some s.aon else (slotCh s n.toNat).pgFrom } s))) ∧
  (∀ (n : BitVec 5) (k : BitVec 64) (s : State),
    (slotCh s n.toNat).breakerAt = some k →
    exec (.breakerTrip n) s = .next (settle (slotTrip n.toNat .breaker (reachAon (k.toNat + gcBrk (slotCh s
      n.toNat).gateCtl * usTicks) s)))) ∧
  (∀ (n : BitVec 5) (i : BitVec 16) (s : State),
    (slotCh s n.toNat).gateOn = true → gcFast (slotCh s n.toNat).gateCtl * 1000 ≤ i.toNat →
    exec (.fastTrip n i) s = .next (settle (slotTrip n.toNat .fast (setSlot n.toNat
      { slotCh s n.toNat with iout := i } s)))) ∧
  (∀ (n : BitVec 5) (k : BitVec 64) (s : State),
    (slotCh s n.toNat).rampAt = some k → (slotCh s n.toNat).st = .ramp →
    exec (.rampFail n) s = .next (settle (slotTrip n.toNat .ramp (reachAon (k.toNat + gcRamp (slotCh s
      n.toNat).gateCtl * msTicks) s)))) ∧
  (∀ (n : BitVec 5) (s : State),
    (slotCh s n.toNat).retryActive = true →
    exec (.retryTimerExpiry n) s = .next (settle (setSlot n.toNat { slotCh s n.toNat with retryActive := false }
      (reachAon (slotCh s n.toNat).retryEnd.toNat s)))) ∧
  (∀ (n : BitVec 5) (t : State) (s : State),
    n.toNat ≤ 23 → (slotCh s n.toNat).shortPin = true →
    t = setSlot n.toNat { slotCh s n.toNat with shortPin := false, closeAt := none, openAt := some s.aon } s →
    exec (.shortPinOpen n) s = .next (settle (if (slotCh s n.toNat).prsntS then removed n.toNat t else if
      (slotCh s n.toNat).st = .debounce then slotTo n.toNat .empty t else t))) ∧
  (∀ (n : BitVec 5) (k : BitVec 64) (t v : State) (s : State),
    (slotCh s n.toNat).openAt = some k → t = reachAon (k.toNat + 1000 * msTicks) s →
    v = setSlot n.toNat { slotCh t n.toNat with retryCount := 0, openAt := none } t →
    exec (.retryCountClear n) s = .next (settle (if (slotCh t n.toNat).st = .latched then slotTo n.toNat
      (offState (slotCh t n.toNat)) v else v))) ∧
  (∀ (n : BitVec 5) (k : BitVec 64) (s : State),
    (slotCh s n.toNat).offAt = some k →
    exec (.gateOffDelay n) s = .next (settle (slotTo n.toNat .decay (slotDown n.toNat .link (gateOff n.toNat
      (reachAon (k.toNat + 100 * usTicks) s)))))) ∧
  (∀ (n : BitVec 5) (v : BitVec 16) (s : State),
    v.toNat < 2000 → (slotCh s n.toNat).st = .decay →
    exec (.decayEnd n v) s = .next (settle (slotTo n.toNat (offState { slotCh s n.toNat with vout := v })
      (setSlot n.toNat { slotCh s n.toNat with vout := v } s)))) ∧
  (∀ (n : BitVec 5) (v : BitVec 16) (k : BitVec 64) (t : State) (s : State),
    n.toNat ≤ 23 → (slotCh s n.toNat).gateOn = false → (slotCh s n.toNat).st ≠ .damaged → 2000 ≤ v.toNat →
    (slotCh s n.toNat).gateOffAt = some k →
    t = reachAon (k.toNat + (dmgDelay (slotCh s n.toNat) + 10) * msTicks) s →
    exec (.fetDamage n v) s = .next (settle (slotReply n.toNat true (rep 0x0D07) (raiseFree 17 0x10 (source 9
      n.toNat) (slotTo n.toNat .damaged (setPerst n.toNat true (setSlot n.toNat
      { slotCh s n.toNat with vout := v } t))))))) ∧
  (∀ (n : BitVec 5) (v : BitVec 16) (s : State),
    n.toNat ≤ 23 → (slotCh s n.toNat).gateOn = false → (slotCh s n.toNat).st ≠ .damaged → 2000 ≤ v.toNat →
    (slotCh s n.toNat).gateOffAt = none →
    exec (.fetDamage n v) s = .next (settle (slotReply n.toNat true (rep 0x0D07) (raiseFree 17 0x10 (source 9
      n.toNat) (slotTo n.toNat .damaged (setPerst n.toNat true (setSlot n.toNat
      { slotCh s n.toNat with vout := v } s))))))) ∧
  (∀ (v : BitVec 16) (t : State) (s : State),
    14400 ≤ v.toNat → s.slot.busOv = false →
    t = raiseFreeCond 17 0x30 (source 0 0) { s with slot := { s.slot with vbus := v, busOv := true } } →
    exec (.busOv v) s = .next (settle ((List.range 24).foldl (fun s n => if (slotCh s n).gateOn then slotTo n
      .decay (slotDown n .link (gateOff n s)) else s) t))) ∧
  (∀ (v : BitVec 16) (s : State),
    v.toNat < 13800 → s.slot.busOv = true →
    exec (.busOvRecover v) s = .next (settle (condGone 17 0x30 (source 0 0)
      { s with slot := { s.slot with vbus := v, busOv := false } }))) ∧
  (∀ (v : BitVec 16) (s : State),
    v.toNat < 10200 → s.slot.busUv = false →
    exec (.busUv v) s = .next (settle (raiseFreeCond 17 0x31 (source 0 0)
      { s with slot := { s.slot with vbus := v, busUv := true } }))) ∧
  (∀ (v : BitVec 16) (s : State),
    10200 ≤ v.toNat → s.slot.busUv = true →
    exec (.busUvRecover v) s = .next (settle (condGone 17 0x31 (source 0 0)
      { s with slot := { s.slot with vbus := v, busUv := false } })))

/-- The button, the wake pin, a host's Slot Control, gate_ctl and its lock, and the selvedge supply. Rests on R246,
R439, R442, R494. The model's own choices in it: log entries 8, 34, 51. -/
def Obligations.SlotControlsAct : Prop :=
  (∀ (n : BitVec 5) (t : State) (s : State),
    n.toNat ≤ 23 → t = raiseFree 17 0x21 (source 9 n.toNat) (slotSts n.toNat 0 s) →
    (hostHp s n.toNat || !ctlToggle (slotCh t n.toNat) || decide ((slotCh t n.toNat).st = .latched) || decide
    ((slotCh t n.toNat).st = .damaged)) = true →
    exec (.buttonPressed n) s = .next (settle (wakeBy 5 n.toNat t))) ∧
  (∀ (n : BitVec 5) (t : State) (s : State),
    n.toNat ≤ 23 → t = raiseFree 17 0x21 (source 9 n.toNat) (slotSts n.toNat 0 s) →
    (hostHp s n.toNat || !ctlToggle (slotCh t n.toNat) || decide ((slotCh t n.toNat).st = .latched) || decide
    ((slotCh t n.toNat).st = .damaged)) = false →
    (slotCh t n.toNat).toggleAt = none →
    exec (.buttonPressed n) s = .next (settle (wakeBy 5 n.toNat (setSlot n.toNat
      { slotCh t n.toNat with toggleAt := some s.aon } t)))) ∧
  (∀ (n : BitVec 5) (k : BitVec 64) (t : State) (s : State),
    n.toNat ≤ 23 → t = raiseFree 17 0x21 (source 9 n.toNat) (slotSts n.toNat 0 s) →
    (hostHp s n.toNat || !ctlToggle (slotCh t n.toNat) || decide ((slotCh t n.toNat).st = .latched) || decide
    ((slotCh t n.toNat).st = .damaged)) = false →
    (slotCh t n.toNat).toggleAt = some k →
    exec (.buttonPressed n) s = .next (settle (wakeBy 5 n.toNat (setSlot n.toNat
      { slotCh t n.toNat with toggleAt := if s.aon.toNat < k.toNat + 5000 * msTicks then none else some s.aon }
      t)))) ∧
  (∀ (n : BitVec 5) (k : BitVec 64) (t v : State) (s : State),
    (slotCh s n.toNat).toggleAt = some k → t = reachAon (k.toNat + 5000 * msTicks) s →
    v = setSlot n.toNat { slotCh t n.toNat with toggleAt := none } t →
    exec (.buttonToggleExpiry n) s = .next (settle (if ctlOn (slotCh s n.toNat) then powerOff n.toNat v else
      powerOn n.toNat v))) ∧
  (∀ (n : BitVec 5) (b : Bool) (s : State),
    n.toNat ≤ 23 →
    exec (.bayWakeChange n b) s = .next (settle (setSlot n.toNat { slotCh s n.toNat with wake := b } s))) ∧
  (∀ (u : BitVec 7) (via : BitVec 11) (v : BitVec 16) (k : Nat) (l : List Nat) (s : State),
    k = prSlot (portRec s (u.toNat / 2)) (u.toNat % 2) → l = vppbsOf u.toNat s → k ≤ 23 →
    l.contains via.toNat = true →
    exec (.slotControlWrite u via v) s = .next (settle (if hostHp s k = true ∧ slotOwner u.toNat via.toNat s =
      true then slotEvent u.toNat 4 (hostControl k v s) else slotEvent u.toNat 4 s))) ∧
  (∀ (n : BitVec 5) (v : BitVec 64) (s : State),
    n.toNat ≤ 23 →
    exec (.gateCtlWrite n v) s = .next (settle (gateWrite n.toNat v s))) ∧
  (∀ (n : BitVec 5) (s : State),
    n.toNat ≤ 23 →
    exec (.slotLockWrite n) s = .next (settle (setSlot n.toNat { slotCh s n.toNat with lock := true } s))) ∧
  (∀ (t : State) (s : State),
    s.slot.vselLost = false →
    t = raiseFree 17 0x32 (source 0 0) { s with slot := { s.slot with vselLost := true } } →
    exec .vselLost s = .next (settle ((List.range 24).foldl (fun s n => if (slotCh (if (slotCh s n).prsntS then
      slotDown n .link s else s) n).gateOn then slotTo n .decay (gateOff n (if (slotCh s n).prsntS then slotDown n
      .link s else s)) else if (slotCh s n).prsntS then slotDown n .link s else s) t))) ∧
  (∀ (m : BitVec 24) (s : State),
    s.slot.vselLost = true →
    exec (.vselRestored m) s = .next (settle (slotsReset m s)))

/-- The 0x0D Nib family on an existing slot with operands in range. Rests on R427, R432, R435, R436, R438, R440,
R442, R443. The model's own choices in it: log entries 10, 51, 85. -/
def Obligations.SlotCommandsAct : Prop :=
  (∀ (r : Req) (n : BitVec 8) (s : State),
    serves 0x0D01 false r (wBytes 1 n) s → n.toNat ≤ 23 →
    exec (.slotStatus r n) s = .next (settle (respond r 0x0D01 (wBytes 1 n) (ok (wBytes 8 (slotStatusWord
      (slotCh s n.toNat)) ++ wBytes 8 (slotMeasWord s (slotCh s n.toNat)) ++ wBytes 8 (slotCh s n.toNat).gateCtl
      ++ wBytes 8 (slotCh s n.toNat).ctl ++ wBytes 8 (slotCh s n.toNat).pgCfg ++ wBytes 8 (slotCountsWord (slotCh
      s n.toNat)))) s))) ∧
  (∀ (r : Req) (n : BitVec 8) (f : BitVec 8) (s : State),
    serves 0x0D02 false r (wBytes 1 n ++ wBytes 1 1#8 ++ wBytes 1 f) s → n.toNat ≤ 23 → f.toNat ≤ 1 →
    (slotCh s n.toNat).prsntS = true → (slotCh s n.toNat).st ≠ .latched → ¬(hostHp s n.toNat = true ∧ f = 0) →
    (slotCh s n.toNat).st ≠ .damaged → (slotCh s n.toNat).cmds = [] →
    exec (.slotPower r n 1 f) s = .next (settle (respond r 0x0D02 (wBytes 1 n ++ wBytes 1 1#8 ++ wBytes 1 f)
      ((slotPend r n.toNat true s).1) ((slotPend r n.toNat true s).2)))) ∧
  (∀ (r : Req) (n : BitVec 8) (f : BitVec 8) (s : State),
    serves 0x0D02 false r (wBytes 1 n ++ wBytes 1 0#8 ++ wBytes 1 f) s → n.toNat ≤ 23 → f.toNat ≤ 1 →
    ¬(hostHp s n.toNat = true ∧ f = 0) → (slotCh s n.toNat).cmds = [] →
    exec (.slotPower r n 0 f) s = .next (settle (respond r 0x0D02 (wBytes 1 n ++ wBytes 1 0#8 ++ wBytes 1 f)
      ((slotPend r n.toNat false s).1) ((slotPend r n.toNat false s).2)))) ∧
  (∀ (r : Req) (n : BitVec 8) (g k p : BitVec 64) (s : State),
    serves 0x0D03 false r (wBytes 1 n ++ zeros 7 ++ wBytes 8 g ++ wBytes 8 k ++ wBytes 8 p) s → n.toNat ≤ 23 →
    gateOk g = true → ¬((slotCh s n.toNat).lock = true ∧ gateMask g ≠ (slotCh s n.toNat).gateCtl) →
    exec (.slotConfig r n g k p) s = .next (settle (respond r 0x0D03 (wBytes 1 n ++ zeros 7 ++ wBytes 8 g ++
      wBytes 8 k ++ wBytes 8 p) ok (ctlWrite n.toNat k (setSlot n.toNat
      { slotCh (gateWrite n.toNat g s) n.toNat with pgCfg := pgMask p } (gateWrite n.toNat g s)))))) ∧
  (∀ (r : Req) (n : BitVec 8) (a p f : BitVec 8) (s : State),
    serves 0x0D04 false r (wBytes 1 n ++ wBytes 1 a ++ wBytes 1 p ++ wBytes 1 f) s → n.toNat ≤ 23 → a.toNat ≤ 3 →
    p.toNat ≤ 3 → f.toNat ≤ 1 → ¬(hostHp s n.toNat = true ∧ f = 0) →
    exec (.slotIndicator r n a p f) s = .next (settle (respond r 0x0D04 (wBytes 1 n ++ wBytes 1 a ++ wBytes 1 p
      ++ wBytes 1 f) ok (setSlot n.toNat { slotCh s n.toNat with
        ctl := setFld (setFld (slotCh s n.toNat).ctl 3 2 (a.setWidth 2)) 5 2 (p.setWidth 2) } s)))) ∧
  (∀ (r : Req) (n : BitVec 8) (w : BitVec 8) (t : State) (s : State),
    serves 0x0D05 false r (wBytes 1 n ++ wBytes 1 w) s → n.toNat ≤ 23 → w.toNat ≤ 3 →
    ¬(bit w 1 = true ∧ (slotCh s n.toNat).st = .damaged ∧ 2000 ≤ (slotCh s n.toNat).vout.toNat) →
    t = (if bit w 0 then clearLatch n.toNat s else s) →
    exec (.slotClear r n w) s = .next (settle (respond r 0x0D05 (wBytes 1 n ++ wBytes 1 w) ok (if bit w 1 then
      clearDamage n.toNat t else t)))) ∧
  (∀ (r : Req) (n : BitVec 8) (h : BitVec 8) (s : State),
    serves 0x0D06 false r (wBytes 1 n ++ wBytes 1 h) s → n.toNat ≤ 23 → h.toNat ≤ 1 →
    exec (.slotPerst r n h) s = .next (settle (respond r 0x0D06 (wBytes 1 n ++ wBytes 1 h) ok (holdPerst n.toNat
      (decide (h = 1)) s))))

/-- Nonces, the life cycle, the owner's and the maker's commands, plan-signing keys, debug flags and reading the
colophon and certificates; a command that needs a token is stated for a token that passes. Rests on R446, R447,
R449 to R452, R455, R464, R466. The model's own choices in it: log entries 6, 10, 97, 98, 101, 139. -/
def Obligations.SealCommandsAct : Prop :=
  (∀ (r : Req) (s : State),
    serves 0x0E01 false r [] s →
    exec (.sealStatus r) s = .next (settle (respond r 0x0E01 [] (ok (wBytes 8 (sealStatus s) ++ wBytes 8
      s.sealu.headSeq ++ wBytes 48 s.sealu.headDigest)) s))) ∧
  (∀ (r : Req) (env : Env) (s : State),
    serves 0x0E02 false r [] s → s.sealu.entropyFail = false →
    exec (.sealNonce r env) s = .next (settle (respond r 0x0E02 [] (ok (wBytes 48 env.random)) ({ s with
        sealu := { s.sealu with nonce := some (env.random, s.aon + BitVec.ofNat 64 (600000 * msTicks)) } })))) ∧
  (∀ (k : BitVec 384) (e : BitVec 64) (t : State) (s : State),
    s.sealu.nonce = some (k, e) → t = reachAon e.toNat s →
    exec .nonceExpiry s = .next (settle ({ t with sealu := { t.sealu with nonce := none } }))) ∧
  (∀ (r : Req) (g : BitVec 8) (l : Lc) (tok_ : Token) (env : Env) (t v : State) (x : Reply × State)
      (after : State) (s : State),
    serves 0x0E03 false r (wBytes 1 g ++ zeros 3 ++ tokenBody tok_) s → lcOf g.toNat = some l →
    lcRow s.sealu.lc l tok_.kind.toNat = true → planBusy s = false →
    t = { s with sealu := { s.sealu with nonce := none } } → after = burnTransition l tok_.kind.toNat t →
    appendNow env.append (lcAppend t { after with sealu := { after.sealu with lc := l } } l tok_) t = (true, v) →
    env.fuse = 0 →
    x = (tokenFault [1, 3, 4, 5] tok_ s).elim (ok, burnTransition l tok_.kind.toNat v) (fun e => (rep e.1 e.2,
    raiseFree 14 1 (source 0 0) t)) →
    exec (.lcTransition r g tok_ env) s = .next (settle (respond r 0x0E03 (wBytes 1 g ++ zeros 3 ++ tokenBody
      tok_) x.1 x.2))) ∧
  (∀ (r : Req) (key : BitVec 776) (tok_ : Token) (env : Env) (i : Nat) (t v : State) (x : Reply × State)
      (s : State),
    serves 0x0E04 false r (zeros 4 ++ wBytes 97 key ++ zeros 3 ++ tokenBody tok_) s →
    tok_.arg.setWidth 384 = Config.sha384 (wBytes 97 key) →
    t = { s with sealu := { s.sealu with nonce := none } } → freeOwnerSlot s = some i →
    appendNow env.append (lcAppend t (burnClaim i (Config.sha384 (wBytes 97 key)) t) .owned tok_) t = (true, v) →
    env.fuse = 0 →
    x = (tokenFault [2] tok_ s).elim (ok [BitVec.ofNat 8 i], burnClaim i (Config.sha384 (wBytes 97 key)) v) (fun e
    => (rep e.1 e.2, raiseFree 14 1 (source 0 0) t)) →
    exec (.ownerClaim r key tok_ env) s = .next (settle (respond r 0x0E04 (zeros 4 ++ wBytes 97 key ++ zeros 3
      ++ tokenBody tok_) x.1 x.2))) ∧
  (∀ (r : Req) (ch : List Byte) (env : Env) (s : State),
    serves 0x0E0D true r (leBytes 2 ch.length ++ zeros 2 ++ ch) s → s.sealu.entropyFail = false → env.fuse = 0 →
    exec (.makerProvision r ch env) s = .next (settle (respond r 0x0E0D (leBytes 2 ch.length ++ zeros 2 ++ ch)
      ok ({ makerTouch true s with
        sealu := { s.sealu with
            uds := env.random.setWidth 256, udsBurned := true, lcFuse := .maker, cert := ch,
            lcReset := some (s.aon + BitVec.ofNat 64 (100 * msTicks)) } })))) ∧
  (∀ (r : Req) (ch : List Byte) (s : State),
    serves 0x0E0E true r (leBytes 2 ch.length ++ zeros 2 ++ ch) s →
    exec (.deviceCertInstall r ch) s = .next (settle (respond r 0x0E0E (leBytes 2 ch.length ++ zeros 2 ++ ch) ok
      ({ makerTouch true s with sealu := { s.sealu with cert := ch } })))) ∧
  (∀ (r : Req) (tok_ : Token) (env : Env) (t v : State) (x : Reply × State) (s : State),
    serves 0x0E05 false r (tokenBody tok_) s → s.mgmt.maker = none ∨ s.mgmt.maker = some r.src →
    t = { s with sealu := { s.sealu with nonce := none } } →
    appendNow env.append (mkAppend t 12 0 0 (requesterBytes r.src)) t = (true, v) →
    x = (tokenFault [6] tok_ s).elim (ok,
    { v with mgmt := { v.mgmt with maker := some r.src, makerSince := v.aon } }) (fun e => (rep e.1 e.2, raiseFree
    14 1 (source 0 0) t)) →
    exec (.makerUnlock r tok_ env) s = .next (settle (respond r 0x0E05 (tokenBody tok_) x.1 x.2))) ∧
  (∀ (r : Req) (s : State),
    serves 0x0E06 true r [] s →
    exec (.makerRelinquish r) s = .next (settle (respond r 0x0E06 [] ok
      ({ makerTouch true s with mgmt := { (makerTouch true s).mgmt with maker := none } })))) ∧
  (∀ (r : Req) (k : BitVec 8) (key : BitVec 776) (tok_ : Token) (env : Env) (t : State) (x : Reply × State)
      (s : State),
    serves 0x0E07 false r (wBytes 1 k ++ zeros 3 ++ wBytes 97 key ++ zeros 3 ++ tokenBody tok_) s →
    tok_.arg = keyArg k 1 (Config.sha384 (wBytes 97 key)) → k.toNat < 4 → keyPoint key = true →
    t = { s with sealu := { s.sealu with nonce := none } } →
    x = (tokenFault [7] tok_ s).elim ((keyChange env k 1 (some key) t).1, (keyChange env k 1 (some key) t).2) (fun
    e => (rep e.1 e.2, raiseFree 14 1 (source 0 0) t)) →
    exec (.planKeyInstall r k key tok_ env) s = .next (settle (respond r 0x0E07 (wBytes 1 k ++ zeros 3 ++ wBytes
      97 key ++ zeros 3 ++ tokenBody tok_) x.1 x.2))) ∧
  (∀ (r : Req) (k : BitVec 8) (tok_ : Token) (env : Env) (t : State) (x : Reply × State) (s : State),
    serves 0x0E08 false r (wBytes 1 k ++ zeros 3 ++ tokenBody tok_) s → tok_.arg = keyArg k 2 0 → k.toNat < 4 →
    t = { s with sealu := { s.sealu with nonce := none } } →
    x = (tokenFault [7] tok_ s).elim ((keyChange env k 2 none t).1, (keyChange env k 2 none t).2) (fun e => (rep
    e.1 e.2, raiseFree 14 1 (source 0 0) t)) →
    exec (.planKeyRevoke r k tok_ env) s = .next (settle (respond r 0x0E08 (wBytes 1 k ++ zeros 3 ++ tokenBody
      tok_) x.1 x.2))) ∧
  (∀ (r : Req) (tok_ : Token) (f : BitVec 8) (t : State) (x : Reply × State) (s : State),
    serves 0x0E09 false r (tokenBody tok_) s → f = tok_.arg.setWidth 8 →
    f &&& ~~~ (debugMask s.sealu.lc).setWidth 8 = 0 → t = { s with sealu := { s.sealu with nonce := none } } →
    x = (tokenFault [8] tok_ s).elim (ok [f],
    { t with sealu := { t.sealu with staged := f.setWidth 4, isStaged := true } }) (fun e => (rep e.1 e.2,
    raiseFree 14 1 (source 0 0) t)) →
    exec (.debugConfig r tok_) s = .next (settle (respond r 0x0E09 (tokenBody tok_) x.1 x.2))) ∧
  (∀ (r : Req) (q : BitVec 64) (k : BitVec 16) (rs : List ColoRec) (p : List Byte) (s : State),
    serves 0x0E0A false r (wBytes 8 q ++ wBytes 2 k) s → 1 ≤ k.toNat → k.toNat ≤ 15 →
    (List.range k.toNat).map (fun i => ringRecord s (q.toNat + i)) = rs.map some →
    p = (rs.map (·.bytes)).flatten → 16 + p.length ≤ maxResponse r.src →
    exec (.colophonRead r q k) s = .next (settle (respond r 0x0E0A (wBytes 8 q ++ wBytes 2 k) (ok p) s))) ∧
  (∀ (r : Req) (n : BitVec 384) (s : State),
    serves 0x0E0B false r (wBytes 48 n) s →
    exec (.colophonQuote r n) s = .next (settle (respond r 0x0E0B (wBytes 48 n) (ok (wBytes 4 s.sealu.boot ++
      zeros 4 ++ wBytes 8 s.sealu.headSeq ++ wBytes 48 s.sealu.headDigest ++ wBytes 96 (Config.sign (aliasKey s)
      (wBytes 48 n ++ (wBytes 4 s.sealu.boot ++ wBytes 8 s.sealu.headSeq ++ wBytes 48 s.sealu.headDigest))))) s))) ∧
  (∀ (r : Req) (w : BitVec 8) (o : BitVec 32) (n : BitVec 16) (s : State),
    serves 0x0E0C false r (wBytes 1 w ++ zeros 3 ++ wBytes 4 o ++ wBytes 2 n) s → w.toNat ≤ 1 →
    o.toNat + n.toNat ≤ (if w = 0 then s.sealu.cert else s.sealu.aliasCert).length → 1 ≤ n.toNat →
    n.toNat ≤ 4096 →
    exec (.certRead r w o n) s = .next (settle (respond r 0x0E0C (wBytes 1 w ++ zeros 3 ++ wBytes 4 o ++ wBytes
      2 n) (ok (((if w = 0 then s.sealu.cert else s.sealu.aliasCert).drop o.toNat).take n.toNat)) s)))

/-- A colophon append ends, the entropy source fails, an attached device is measured and its record appended, and
the SPDM responder answers. Rests on R454, R458, R462, R463. The model's own choices in it: log entries 6, 99, 101,
138. -/
def Obligations.AttestationEventsAct : Prop :=
  (∀ (g : Bool) (s : State),
    exec (.colophonAppendDone g) s = .next (settle (endAppend g s))) ∧
  (∀ (s : State),
    exec .entropyFail s = .next (settle (raiseFree 14 0x30 (source 0 0)
      { s with sealu := { s.sealu with entropyFail := true } }))) ∧
  (∀ (u : BitVec 7) (t : State) (s : State),
    s.mgmt.fw = .running → s.sealu.spdm = [] → s.mgmt.attachQ.head? = some u.toNat →
    t = { s with
      mgmt := { s.mgmt with attachQ := s.mgmt.attachQ.drop 1 },
      sealu := { s.sealu with spdm := [{ port := u.toNat, since := s.tele.time }] } } →
    exec (.deviceMeasurement u) s = .next (settle ((spdmAsk (freeVal 256 t)).foldl (fun s bs => emit (.mctp
      (.vdm u) 0 5 bs) s) (tookFree t)))) ∧
  (∀ (u : BitVec 7) (m : Measured) (env : Env) (x : Spdm) (f : BitVec 32) (t v w : State) (s : State),
    s.sealu.spdm.find? (fun x => decide (x.port = u.toNat)) = some x →
    f = measFlags m (!m.timely || decide (x.since.toNat + 2000 * msTicks < now s)) →
    t = { s with sealu := { s.sealu with spdm := s.sealu.spdm.filter fun y => !decide (y.port = u.toNat) } } →
    v = (if m.spdm && !m.sigOk && !(!m.timely || decide (x.since.toNat + 2000 * msTicks < now s)) then raiseFree
    14 0x20 (source 1 u.toNat) t else t) →
    tabGet none s.sealu.devRecs u.toNat = none →
    appendNow env.append (mkAppend v 6 f (measSubject m (port s u.toNat).ident) (measPayload v u.toNat m)) v =
    (true, w) →
    exec (.deviceMeasurementDone u m env) s = .next (settle ({ w with
        sealu := { w.sealu with
            devRecs := tabSet none w.sealu.devRecs u.toNat (some {
                subject := measSubject m (port s u.toNat).ident, cert := m.cert, flags := f,
                serial := (port s u.toNat).ident }) } }))) ∧
  (∀ (tr : Transport) (e : BitVec 8) (s : State),
    s.sealu.lc ≠ .blank → s.sealu.lc ≠ .spent → s.mgmt.fw = .running →
    exec (.spdmRequest tr e .version) s = .next (settle (emit (.mctp tr e 5 ([0x10, 0x04, 0, 0, 0, 1, 0, 0x13]))
      s))) ∧
  (∀ (tr : Transport) (e : BitVec 8) (s : State),
    s.sealu.lc ≠ .blank → s.sealu.lc ≠ .spent → s.mgmt.fw = .running →
    exec (.spdmRequest tr e .capabilities) s = .next (settle (emit (.mctp tr e 5 (spdmHead 0x61 0 0 ++ wBytes 4
      spdmCaps)) s))) ∧
  (∀ (tr : Transport) (e : BitVec 8) (s : State),
    s.sealu.lc ≠ .blank → s.sealu.lc ≠ .spent → s.mgmt.fw = .running →
    exec (.spdmRequest tr e .algorithms) s = .next (settle (emit (.mctp tr e 5 (spdmHead 0x63 0 0 ++ spdmAlgs))
      s))) ∧
  (∀ (tr : Transport) (e : BitVec 8) (s : State),
    s.sealu.lc ≠ .blank → s.sealu.lc ≠ .spent → s.mgmt.fw = .running →
    exec (.spdmRequest tr e .digests) s = .next (settle (emit (.mctp tr e 5 (spdmHead 0x01 0 1 ++ wBytes 48
      (Config.sha384 (spdmChain s)))) s))) ∧
  (∀ (tr : Transport) (e : BitVec 8) (o n : BitVec 16) (p : List Byte) (s : State),
    s.sealu.lc ≠ .blank → s.sealu.lc ≠ .spent → s.mgmt.fw = .running →
    p = ((spdmChain s).drop o.toNat).take n.toNat →
    exec (.spdmRequest tr e (.certificate o n)) s = .next (settle (emit (.mctp tr e 5 (spdmHead 0x02 0 0 ++
      leBytes 2 p.length ++ leBytes 2 ((spdmChain s).length - o.toNat - p.length) ++ p)) s))) ∧
  (∀ (tr : Transport) (e : BitVec 8) (n : BitVec 256) (p : List Byte) (s : State),
    s.sealu.lc ≠ .blank → s.sealu.lc ≠ .spent → s.mgmt.fw = .running →
    p = spdmHead 0x03 0 1 ++ wBytes 48 (Config.sha384 (spdmChain s)) →
    exec (.spdmRequest tr e (.challenge n)) s = .next (settle (emit (.mctp tr e 5 (p ++ wBytes 96 (Config.sign
      (aliasKey s) (wBytes 32 n ++ p)))) s))) ∧
  (∀ (tr : Transport) (e : BitVec 8) (k : BitVec 8) (n : BitVec 256) (p : List Byte) (s : State),
    s.sealu.lc ≠ .blank → s.sealu.lc ≠ .spent → s.mgmt.fw = .running →
    p = spdmHead 0x60 0 0 ++ leBytes 3 (spdmBlocks s k.toNat).length ++ spdmBlocks s k.toNat →
    exec (.spdmRequest tr e (.measurements k n)) s = .next (settle (emit (.mctp tr e 5 (p ++ wBytes 96
      (Config.sign (aliasKey s) (wBytes 32 n ++ p)))) s))) ∧
  (∀ (tr : Transport) (e : BitVec 8) (n : BitVec 256) (p : List Byte) (s : State),
    s.sealu.lc ≠ .blank → s.sealu.lc ≠ .spent → s.mgmt.fw = .running →
    p = spdmHead 0x64 0 0 ++ wBytes 48 (Config.sha384 (spdmChain s)) → s.sealu.entropyFail = false →
    exec (.spdmRequest tr e (.keyExchange n)) s = .next (settle (emit (.mctp tr e 5 (p ++ wBytes 96 (Config.sign
      (aliasKey s) (wBytes 32 n ++ p)))) { s with sealu := { s.sealu with sessions := s.sealu.sessions + 1 } }))) ∧
  (∀ (tr : Transport) (e : BitVec 8) (n : BitVec 256) (s : State),
    s.sealu.lc ≠ .blank → s.sealu.lc ≠ .spent → s.mgmt.fw = .running → s.sealu.entropyFail = true →
    exec (.spdmRequest tr e (.keyExchange n)) s = .next (settle (emit (.mctp tr e 5 (spdmHead 0x7F 0x60 0)) s))) ∧
  (∀ (tr : Transport) (e : BitVec 8) (u : BitVec 7) (k : IdeKm) (s : State),
    s.sealu.lc ≠ .blank → s.sealu.lc ≠ .spent → s.mgmt.fw = .running → s.sealu.entropyFail = false →
    exec (.spdmRequest tr e (.ideKm u k)) s = .next (settle (emit (.mctp tr e 5 (spdmHead 0x7E 0 0)) (ideKm
      u.toNat k s)))) ∧
  (∀ (tr : Transport) (e : BitVec 8) (s : State),
    s.sealu.lc ≠ .blank → s.sealu.lc ≠ .spent → s.mgmt.fw = .running →
    exec (.spdmRequest tr e .endSession) s = .next (settle (emit (.mctp tr e 5 (spdmHead 0x6C 0 0))
      { s with sealu := { s.sealu with sessions := s.sealu.sessions - 1 } })))

/-- Cold and warm resets, the loss and return of VAON, HBM ready, the persisted plan and its wait. Rests on R478,
R481 to R484, R447, R494. The model's own choices in it: log entries 2, 8, 73, 104, 107 to 109, 128. -/
def Obligations.ResetsAndBootAct : Prop :=
  (∀ (b : BootIn) (s : State),
    s.boot.held = false → b.pin = true →
    exec (.coldReset b) s = .next (settle (coldBoot (if b.powerOn then 0 else 1) b s))) ∧
  (∀ (b : BootIn) (s : State),
    s.boot.held = false → b.pin = false → s.boot.resetDue = some 0 → resetReady s = true →
    exec (.coldReset b) s = .next (settle (coldBoot 2 b s))) ∧
  (∀ (b : BootIn) (s : State),
    s.boot.held = false → s.boot.resetDue ≠ some 0 → b.pin = true →
    exec (.warmReset b) s = .next (settle (warmBoot 3 b s))) ∧
  (∀ (b : BootIn) (s : State),
    s.boot.held = false → b.pin = false → s.boot.resetDue = some 1 → resetReady s = true →
    exec (.warmReset b) s = .next (settle (warmBoot 4 b s))) ∧
  (∀ (b : BootIn) (k : BitVec 64) (s : State),
    s.sealu.lcReset = some k → s.boot.held = false →
    exec (.lifecycleReset b) s = .next (settle (coldBoot 5 b (reachAon k.toNat s)))) ∧
  (∀ (t : State) (s : State),
    s.boot.held = false → t = coldClear s →
    exec .vaonLoss s = .next (settle ({ t with boot := { t.boot with held := true } }))) ∧
  (∀ (b : BootIn) (s : State),
    s.boot.held = true →
    exec (.vaonRestored b) s = .next (settle (coldBoot 0 b s))) ∧
  (∀ (m : BitVec 2) (t : State) (l : List (List Byte × BitVec 384)) (s : State),
    s.mgmt.fw = .running → s.boot.stage = 4 → t = [0, 1].foldl (bootStack m) (applyRemaps s) →
    l = (if s.boot.planHold then [] else persistedChain s) →
    exec (.hbmReady m) s = .next (settle ({ t with
        proxy := { t.proxy with sf := [], unkSets := [], coarseA := [], coarseB := [] },
        boot := { t.boot with
            stage := 5, step := 8, chainLeft := l, waitFrom := if l = [] then none else some t.tele.time } }))) ∧
  (∀ (k : BitVec 64) (t : State) (s : State),
    s.boot.waitFrom = some k → timeReady s = false → s.boot.stage = 5 →
    t = reach (k.toNat + s.boot.board.timeWait.toNat * msTicks) s →
    exec .bootTimeWaitExpiry s = .next (settle (raiseFree 19 0x12 (source 0 0)
      { t with boot := { t.boot with waitFrom := none } }))) ∧
  (∀ (k : BitVec 64) (env : Env) (img : List Byte) (d : BitVec 384) (l : List (List Byte × BitVec 384))
      (t : State) (s : State),
    s.boot.chainLeft = (img, d) :: l → s.mgmt.fw = .running → 5 ≤ s.boot.stage.toNat →
    s.plan.shadowState = .empty → timeReady s = true ∨ s.boot.waitFrom = none → s.sealu.ringFault = false →
    t = validate env.append false 0 (loadPersisted img (reach k.toNat s)) →
    exec (.persistedPlanCommit k env) s = .next (settle (if (s.plan.hasPlan = false ∧ chainGood ((img, d) :: l)
      s = false) ∨ Config.sha384 img ≠ d then rejectChain s else if t.plan.shadowState = .armed then
      { t with boot := { t.boot with chainLeft := l, waitFrom := none, step := 9 } } else rejectChain t))) ∧
  (∀ (b : BootIn) (s : State),
    s.pmu.exiting = true → s.pmu.st = .doze → exitFront s = [] → railsUp s = true →
    exec (.exitComplete b) s = .next (settle (runReached s))) ∧
  (∀ (b : BootIn) (s : State),
    s.pmu.exiting = true → s.pmu.st = .standby →
    exec (.exitComplete b) s = .next (settle (standbyBoot b s)))

/-- Writing and selecting an image, by firmware and by the boot ROM, and a thermal sample. Rests on R471, R475,
R476, R485, R499. The model's own choices in it: log entries 6, 40, 104, 105, 111. -/
def Obligations.ImagesAndTemperatureAct : Prop :=
  (∀ (r : Req) (g : BitVec 8) (o : BitVec 32) (d : List Byte) (s : State),
    serves 0x0F10 false r (wBytes 1 g ++ zeros 3 ++ wBytes 4 o ++ leBytes 2 d.length ++ zeros 2 ++ d) s →
    regionOk s g = true → 1 ≤ d.length → d.length ≤ 4096 →
    o = 0 ∨ o.toNat = (tabGet [] s.boot.flash.writing g.toNat).length → o.toNat + d.length ≤ regionSize g.toNat →
    exec (.imageWrite r g o d) s = .next (settle (respond r 0x0F10 (wBytes 1 g ++ zeros 3 ++ wBytes 4 o ++
      leBytes 2 d.length ++ zeros 2 ++ d) ok (writeRegion g.toNat ((if o = 0 then [] else tabGet []
      s.boot.flash.writing g.toNat) ++ d) s)))) ∧
  (∀ (r : Req) (o : BitVec 32) (d : List Byte) (s : State),
    s.boot.held = false → s.boot.stage = 7 → romHears r s = true →
    inHand r 0x0F10 (wBytes 1 2#8 ++ zeros 3 ++ wBytes 4 o ++ leBytes 2 d.length ++ zeros 2 ++ d) s = true →
    1 ≤ d.length → d.length ≤ 4096 → o = 0 ∨ o.toNat = (tabGet [] s.boot.flash.writing 2).length →
    o.toNat + d.length ≤ regionSize 2 →
    exec (.imageWrite r 2#8 o d) s = .next (settle (respond r 0x0F10 (wBytes 1 2#8 ++ zeros 3 ++ wBytes 4 o ++
      leBytes 2 d.length ++ zeros 2 ++ d) ok (writeRegion 2 ((if o = 0 then [] else tabGet [] s.boot.flash.writing
      2) ++ d) s)))) ∧
  (∀ (r : Req) (g : BitVec 8) (v : BitVec 24) (s : State),
    serves 0x0F11 false r (wBytes 1 g ++ wBytes 3 v) s → g.toNat < 2 → selectOk s g.toNat = true →
    exec (.imageSelect r g v) s = .next (settle (recoveryBoot (respond r 0x0F11 (wBytes 1 g ++ wBytes 3 v) ok
      (nameActive g.toNat s))))) ∧
  (∀ (r : Req) (g : BitVec 8) (v : BitVec 24) (s : State),
    serves 0x0F11 false r (wBytes 1 g ++ wBytes 3 v) s → g.toNat < 2 →
    exec (.imageSelect r g v) s = .next (settle (recoveryBoot (if selectOk s g.toNat then respond r 0x0F11
      (wBytes 1 g ++ wBytes 3 v) ok (nameActive g.toNat s) else respond r 0x0F11 (wBytes 1 g ++ wBytes 3 v) (rep
      0x0F11) s)))) ∧
  (∀ (r : Req) (v : BitVec 24) (s : State),
    s.boot.held = false → s.boot.stage = 7 → romHears r s = true →
    inHand r 0x0F11 (wBytes 1 2#8 ++ wBytes 3 v) s = true →
    exec (.imageSelect r 2#8 v) s = .next (settle (recoveryBoot (if selectOk s 2 then respond r 0x0F11 (wBytes 1
      2#8 ++ wBytes 3 v) ok { s with boot := { s.boot with step := 5 } } else respond r 0x0F11 (wBytes 1 2#8 ++
      wBytes 3 v) (rep 0x0F11) s)))) ∧
  (∀ (c l a b v : BitVec 8) (t : State) (s : State),
    s.boot.held = false → s.pmu.st ≠ .standby →
    t = { s with boot := { s.boot with thermal := v ++ b ++ a ++ l ++ c } } →
    exec (.thermalSample c l a b v) s = .next (settle (thermalStack 1 b.toInt (thermalStack 0 a.toInt
      (thermalTrip (max c.toInt l.toInt) (thermalWarn (max c.toInt l.toInt) t))))))

/-- An input of the reference is lost and returns, the source in use changes, a Weft source gives a measurement,
pulses come and leave; TIME_STATUS, TIME_CONFIG with fields in range, and TIME_SET before the first activation.
Rests on R333 to R337, R339, R340, R354. The model's own choices in it: log entries 10, 40, 53, 54, 63, 93, 94. -/
def Obligations.TimeSourcesAndCommandsAct : Prop :=
  (∀ (i : BitVec 1) (s : State),
    bit s.tele.refPresent i.toNat = true →
    exec (.refSwitched i) s = .next (settle (refLost i.toNat s))) ∧
  (∀ (i : BitVec 1) (t : State) (s : State),
    bit s.tele.refPresent i.toNat = false →
    t = condGone 18 2 (source 0 0)
    { s with tele := { s.tele with refPresent := setFld s.tele.refPresent i.toNat 1 1 } } →
    bit t.tele.refPresent t.tele.ref.toNat = true →
    exec (.ref25Restored i) s = .next (settle (t))) ∧
  (∀ (i : BitVec 1) (t : State) (s : State),
    bit s.tele.refPresent i.toNat = false →
    t = condGone 18 2 (source 0 0)
    { s with tele := { s.tele with refPresent := setFld s.tele.refPresent i.toNat 1 1 } } →
    bit t.tele.refPresent t.tele.ref.toNat = false →
    exec (.ref25Restored i) s = .next (settle (raiseFree 18 1 (source 0 0)
      { t with tele := { t.tele with ref := i } }))) ∧
  (∀ (t : State) (s : State),
    s.tele.source ≠ 1 → t = untilStale s → bestSource t ≠ t.tele.source.toNat →
    exec .timeSourceChange s = .next (settle (takeSource (bestSource t) t))) ∧
  (∀ (a : BitVec 64) (s : State),
    s.tele.betterSince = some a → better s = true → a.toNat + s.tele.revertS.toNat * secTicks ≤ now s →
    exec .timeSourceRevert s = .next (settle (takeSource (bestSource s) s))) ∧
  (∀ (k : Nat) (f b : Int) (s : State),
    s.tele.source.toNat = k + 16 → k < 8 → (weft s k).forward = some f → (weft s k).back = some b →
    exec .timeOffsetMeasurement s = .next (settle (measure ((f - b).tdiv 2 - asymOf s k) (setWeft k
      { weft s k with back := none }
      { s with tele := { s.tele with path := BitVec.ofInt 32 ((f + b).tdiv 2) } })))) ∧
  (∀ (h : BitVec 32) (t : State) (s : State),
    640000 ≤ h.toNat → h.toNat ≤ 960000 → s.tele.source = 2 →
    t = noteBetter (fun s => { s with tele := { s.tele with tsyncAt := some s.tele.time } }) s →
    t.tele.source = 2 →
    exec (.tsyncInPulse h) s = .next (settle (measure (nearestOffset secTicks (now s) t) (tookFree t)))) ∧
  (∀ (h : BitVec 32) (t : State) (s : State),
    640000 ≤ h.toNat ∧ h.toNat ≤ 960000 ∨ 1920000 ≤ h.toNat ∧ h.toNat ≤ 2880000 → s.tele.source ≠ 2 →
    t = noteBetter (fun s => { s with tele := { s.tele with tsyncAt := some s.tele.time } }) s →
    exec (.tsyncInPulse h) s = .next (settle (t))) ∧
  (∀ (h : BitVec 32) (t : State) (s : State),
    h.toNat < 640000 → t = { s with tele := { s.tele with badPulses := s.tele.badPulses + 1 } } →
    exec (.tsyncInPulse h) s = .next (settle (if s.tele.badPulses = 0 then raiseFree 18 0x13 (source 0 0) t else
      t))) ∧
  (∀ (m k : Nat) (t : State) (s : State),
    s.tele.tsyncOut ≠ 0 → k = secondEdge (max (now s) s.tele.tsyncFall.toNat) →
    m = multipleFrom (2 ^ 33) (max (now s) s.tele.tsyncFall.toNat) → t = reach (min k m) s →
    exec .tsyncOutPulse s = .next (settle (emit (.pin 0 (if m ≤ k then 1 else 0) true) { t with
        tele :=
          { t.tele with tsyncFall := t.tele.time + BitVec.ofNat 64 ((if m ≤ k then 300 else 100) * usTicks) } }))) ∧
  (∀ (r : Req) (d : BitVec 512) (s : State),
    serves 0x0A01 false r [] s → d = timeInfoData s →
    exec (.timeStatus r) s = .next (settle (respond r 0x0A01 [] (ok (wBytes 8 s.tele.time ++ leBytes 1
      (timeStNum s.tele.st) ++ wBytes 1 s.tele.source ++ wBytes 1 s.tele.ref ++ leBytes 1 (fnat d 144 8) ++ wBytes
      4 s.tele.offset ++ wBytes 4 s.tele.path ++ wBytes 4 (BitVec.ofInt 32 (s.tele.rate.tdiv 100)) ++ leBytes 8
      (fnat d 0 64))) s))) ∧
  (∀ (r : Req) (sources_ : BitVec 32) (o ref : BitVec 8) (rv : BitVec 16) (as_ : BitVec 128) (t : TeleState)
      (u : State) (s : State),
    serves 0x0A02 false r (wBytes 4 sources_ ++ wBytes 1 o ++ wBytes 1 ref ++ wBytes 2 rv ++ wBytes 16 as_) s →
    timeConfigBad sources_ o ref rv = none →
    t = { s.tele with
      sources := tabWrite 0 [] 0 ((List.range 4).map fun i => fld sources_ (8 * i) 8), tsyncOut := o,
      ref := ref.setWidth 1, revertS := rv,
      asym := tabWrite 0 [] 0 ((List.range 8).map fun i => fld as_ (16 * i) 16) } →
    u = reSource s.tele.sources { s with tele := { t with betterSince := none } } →
    exec (.timeConfig r sources_ o ref rv as_) s = .next (settle (respond r 0x0A02 (wBytes 4 sources_ ++ wBytes
      1 o ++ wBytes 1 ref ++ wBytes 2 rv ++ wBytes 16 as_) ok (if bit t.refPresent t.ref.toNat = false ∧ bit
      t.refPresent (1 - t.ref.toNat) = true then raiseFree 18 1 (source 0 0)
      { u with tele := { u.tele with ref := BitVec.ofNat 1 (1 - t.ref.toNat) } } else u)))) ∧
  (∀ (r : Req) (x : BitVec 64) (s : State),
    serves 0x0A03 false r (wBytes 8 x) s → s.tele.frozen = false →
    exec (.timeSet r x) s = .next (settle (respond r 0x0A03 (wBytes 8 x) ok (stepTime x s))))

/-- A counter set is cleared, a window ends, a dump is latched, staged and written to a host, and the heat map ages
and clears. Rests on R342, R345, R347, R348, R351. The model's own choices in it: log entries 7, 8, 52, 54, 86,
121, 127. -/
def Obligations.CounterAndDumpEventsAct : Prop :=
  (∀ (b : BitVec 7) (s : State),
    b.toNat ≤ 88 →
    exec (.counterClear b) s = .next (settle (storeCset b.toNat { csNow s b.toNat with cycles := 0, cnt := [] }
      s))) ∧
  (∀ (w : CWindow) (t : State) (s : State),
    s.tele.window = some w → t = reach (w.start.toNat + w.length.toNat) s →
    exec .counterWindowEnd s = .next (settle (finishTicket w.ticket (ok (windowBytes t w))
      { t with tele := { t.tele with window := none } }))) ∧
  (∀ (k : BitVec 64) (t u : State) (s : State),
    s.tele.dumpK ≠ 0 → k = BitVec.ofNat 64 (dumpBoundary s) → t = reach (dumpBoundary s) s →
    u = { t with tele := { t.tele with dumpSeq := t.tele.dumpSeq + 1, dumpFrom := k + 1 } } →
    u.tele.dumpWriting = none ∨ u.tele.edge ≠ none → stagingLost u (t.tele.dumpSeq + 1).toNat = false →
    exec .dumpLatch s = .next (settle (dumpTake k u))) ∧
  (∀ (k : BitVec 64) (s : State),
    dumpTake k s = { s with
        tele := { s.tele with
            dumpWriting := some { seq := s.tele.dumpSeq, bytes := dumpBytes s k s.tele.dumpSeq },
            bind := if s.tele.edge.isSome then s.tele.bind else tabMap BindCnt.init (fun _ c =>
              { c with latMax := 0 }) s.tele.bind, edge := none, dumpAt := k, lostSince := 0 } }) ∧
  (∀ (d : Dump) (s : State),
    s.tele.dumpWriting = some d →
    exec .dumpWriteDone s = .next (settle (hostStaged d.seq { s with
        tele := { s.tele with
            dumpWriting := none,
            dumps := d :: (s.tele.dumps.filter fun x => decide (x.seq.toNat % 1024 ≠ d.seq.toNat % 1024)) } }))) ∧
  (∀ (q : BitVec 32) (l : List (BitVec 32)) (d : Dump) (t : State) (s : State),
    s.tele.hostDue = q :: l → s.tele.hostWriting = none →
    s.tele.dumps.find? (fun d => decide (d.seq = q)) = some d →
    t = { s with tele := { s.tele with hostDue := l } } →
    exec (.dumpHostWrite .ok) s = .next (settle (busWrites s.tele.dumpPort.toNat ((d.bytes.length + 63) / 64)
      (s.tele.dumpBase + BitVec.ofNat 64 (q.toNat % s.tele.dumpSlots.toNat * 2 ^ 20)) d.bytes
      { t with tele := { t.tele with hostWriting := some q } }))) ∧
  (∀ (s : State),
    exec .dumpHostWriteDone s = .next (settle ({ s with tele := { s.tele with hostWriting := none } }))) ∧
  (∀ (t u : State) (s : State),
    s.tele.agePeriod ≠ 0 → t = reach (ageInstant s) s → u = sweepTaken (BitVec.ofNat 64 (ageInstant s)) t →
    exec .heatAgeSweep s = .next (settle (if t.tele.aged = true ∨ t.tele.sweeping = true then u else heatAge u))) ∧
  (∀ (s : State),
    ageInstant s = multipleFrom (s.tele.agePeriod.toNat * msTicks) s.tele.heatFrom.toNat) ∧
  (∀ (s : State) (u : State),
    u = heatDrain s.tele.heatInc.length s →
    heatAge s =
      { u with tele := { u.tele with sweeping := true, heat := tabMap 0 (fun _ v => v >>> 1) u.tele.heat } }) ∧
  (∀ (s : State),
    exec .heatSweepDone s = .next (settle ({ s with tele := { s.tele with sweeping := false } }))) ∧
  (∀ (k : BitVec 16) (i n : BitVec 32) (l : List (BitVec 16 × BitVec 32 × BitVec 32)) (s : State),
    s.tele.heatClears = (k, i, n) :: l →
    exec .heatClearDone s = .next (settle (finishTicket k ok { s with
        tele := { s.tele with
            heatClears := l,
            heat := tabFilter (fun j _ => decide (j < i.toNat ∨ i.toNat + n.toNat ≤ j)) s.tele.heat,
            heatInc := tabFilter (fun j _ => decide (j < i.toNat ∨ i.toNat + n.toNat ≤ j)) s.tele.heatInc } })))

/-- The counter, dump, heat and trace commands with fields in range. Rests on R342 to R345, R347, R350 to R354. The
model's own choices in it: log entries 10, 13, 52, 54, 86. -/
def Obligations.TelemetryCommandsAct : Prop :=
  (∀ (r : Req) (b : BitVec 8) (ctl : BitVec 64) (ev : BitVec 512) (fs fa fc : BitVec 64) (s : State),
    serves 0x0A04 false r (wBytes 1 b ++ zeros 7 ++ wBytes 8 ctl ++ wBytes 64 ev ++ wBytes 8 fs ++ wBytes 8 fa ++
    wBytes 8 fc) s →
    b.toNat ≤ 88 → (List.range 8).all (fun k => eventAllowed b.toNat (fnat (fld ev (64 * k) 64) 0 4)) = true →
    exec (.csConfig r b ctl ev fs fa fc) s = .next (settle (respond r 0x0A04 (wBytes 1 b ++ zeros 7 ++ wBytes 8
      ctl ++ wBytes 64 ev ++ wBytes 8 fs ++ wBytes 8 fa ++ wBytes 8 fc) ok (teleWake (storeCset b.toNat
      { csCtlWrite ctl (csNow s b.toNat) with
        evsel := tabWrite 0 [] 0 ((List.range 8).map fun k => fld ev (64 * k) 64 &&& evselMask),
        fltSrc := fs &&& fltSrcMask, fltAddr := fa &&& fltAddrMask, fltClass := fc &&& fltClassMask } s))))) ∧
  (∀ (r : Req) (b : BitVec 8) (t : State) (s : State),
    serves 0x0A05 false r (wBytes 1 b) s → b.toNat ≤ 88 → t = teleWake s →
    exec (.csRead r b .ok 0) s = .next (settle (respond r 0x0A05 (wBytes 1 b) (ok (csBytes (csNow t b.toNat) ++
      wBytes 1 (csNow t b.toNat).ovf ++ zeros 7 ++ wBytes 8 (csNow t b.toNat).sample)) t))) ∧
  (∀ (r : Req) (b n : BitVec 64) (s : State),
    serves 0x0A06 false r (wBytes 8 b ++ wBytes 8 n) s → now s < b.toNat → 8192 ≤ n.toNat → s.tele.window = none →
    s.mgmt.tickets.length < 256 →
    exec (.teleWindowArm r b n) s = .next (settle (respond r 0x0A06 (wBytes 8 b ++ wBytes 8 n) (rep 1
      (nextTicketNum s).toNat) (teleWake { holdTicket 0x0A06 r s with
        tele := { s.tele with window := some { ticket := nextTicketNum s, start := b, length := n } } })))) ∧
  (∀ (r : Req) (k f p : BitVec 8) (sl : BitVec 16) (a : BitVec 64) (bm : Bool) (s : State),
    serves 0x0A07 false r (wBytes 1 k ++ wBytes 1 f ++ wBytes 1 p ++ zeros 1 ++ wBytes 2 sl ++ zeros 2 ++ wBytes 8
    a) s →
    dumpConfigBad s k f p sl a bm = none →
    exec (.dumpConfig r k f p sl a bm) s = .next (settle (respond r 0x0A07 (wBytes 1 k ++ wBytes 1 f ++ wBytes 1
      p ++ zeros 1 ++ wBytes 2 sl ++ zeros 2 ++ wBytes 8 a) ok (teleWake { s with
        tele := { s.tele with
            dumpK := k, dumpFlags := f, dumpPort := p, dumpSlots := sl, dumpBase := a, edge := none,
            dumpFrom := s.tele.time + 1 } })))) ∧
  (∀ (r : Req) (q o n : BitVec 32) (d : Dump) (s : State),
    serves 0x0A08 false r (wBytes 4 q ++ wBytes 4 o ++ wBytes 4 n) s → 1 ≤ n.toNat → n.toNat ≤ 8000 →
    s.tele.dumps.find? (fun d => decide (d.seq = q)) = some d → stagingLost s q.toNat = false →
    o.toNat + n.toNat ≤ d.bytes.length →
    exec (.dumpRead r q o n .ok) s = .next (settle (respond r 0x0A08 (wBytes 4 q ++ wBytes 4 o ++ wBytes 4 n)
      (ok ((d.bytes.drop o.toNat).take n.toNat)) s))) ∧
  (∀ (r : Req) (en : BitVec 8) (a : BitVec 32) (s : State),
    serves 0x0A09 false r (wBytes 1 en ++ zeros 3 ++ wBytes 4 a) s → en.toNat ≤ 1 →
    a = 0 ∨ 1000 ≤ a.toNat ∧ a.toNat ≤ 3600000 →
    exec (.heatConfig r en a) s = .next (settle (respond r 0x0A09 (wBytes 1 en ++ zeros 3 ++ wBytes 4 a) ok
      (teleWake { s with
        tele := { s.tele with heatOn := decide (en = 1), agePeriod := a, heatFrom := s.tele.time, aged := false } })))) ∧
  (∀ (r : Req) (i : BitVec 32) (n : BitVec 16) (s : State),
    serves 0x0A0A false r (wBytes 4 i ++ wBytes 2 n) s → i.toNat + n.toNat ≤ heatCount s → 1 ≤ n.toNat →
    n.toNat ≤ 2048 →
    exec (.heatRead r i n .ok 0) s = .next (settle (respond r 0x0A0A (wBytes 4 i ++ wBytes 2 n) (ok ((List.range
      n.toNat).flatMap fun k => wBytes 2 (heatValue s (i.toNat + k)))) s))) ∧
  (∀ (r : Req) (i n : BitVec 32) (s : State),
    serves 0x0A0B false r (wBytes 4 i ++ wBytes 4 n) s → i.toNat + n.toNat ≤ heatCount s →
    s.mgmt.tickets.length < 256 →
    exec (.heatClear r i n) s = .next (settle (respond r 0x0A0B (wBytes 4 i ++ wBytes 4 n) (rep 1 (nextTicketNum
      s).toNat) ({ holdTicket 0x0A0B r s with
        tele := { s.tele with heatClears := s.tele.heatClears ++ [(nextTicketNum s, i, n)] } })))) ∧
  (∀ (r : Req) (sz md pt cm : BitVec 8) (xm b n : BitVec 64) (sf pr : BitVec 32) (s : State),
    serves 0x0A0C false r (wBytes 1 1#8 ++ wBytes 1 sz ++ wBytes 1 md ++ wBytes 1 pt ++ wBytes 1 cm ++ zeros 3 ++
    wBytes 8 xm ++ wBytes 8 b ++ wBytes 8 n ++ wBytes 4 sf ++ wBytes 4 pr) s →
    traceConfigBad s 1 sz md pt = none →
    exec (.traceConfig r 1#8 sz md pt cm xm b n sf pr) s = .next (settle (respond r 0x0A0C (wBytes 1 1#8 ++
      wBytes 1 sz ++ wBytes 1 md ++ wBytes 1 pt ++ wBytes 1 cm ++ zeros 3 ++ wBytes 8 xm ++ wBytes 8 b ++ wBytes 8
      n ++ wBytes 4 sf ++ wBytes 4 pr) ok (teleWake { s with
        tele := { s.tele with
            traceOn := true, traceSize := sz, traceMode := md, tracePoints := pt, traceClasses := cm,
            traceXps := xm, traceStart := b, traceLength := n, traceStop := sf, tracePost := pr,
            traceLeft := none, traceWritten := 0, traceStopped := false, traceRaised := false, traceGap := 0,
            traceAt := none, ring := [] } })))) ∧
  (∀ (r : Req) (i : BitVec 64) (n : BitVec 16) (s : State),
    serves 0x0A0D false r (wBytes 8 i ++ wBytes 2 n) s → 1 ≤ n.toNat → n.toNat ≤ 126 →
    traceHas s.tele i.toNat n.toNat = true →
    exec (.traceRead r i n .ok) s = .next (settle (respond r 0x0A0D (wBytes 8 i ++ wBytes 2 n) (ok ((List.range
      n.toNat).flatMap fun k => wBytes 64 (tabGet 0 s.tele.ring ((i.toNat + k) % ringSlots s.tele)))) s)))

/-- A scrub step, a write-back, a row's copy, a remap's log record, the management SRAMs, a retrain of a channel
and a stack's loss. Rests on R357, R362, R364, R365, R368, R369, R372. The model's own choices in it: log entries
7, 40, 41, 88, 89, 109. -/
def Obligations.MemoryIntegrityActs : Prop :=
  (∀ (t : BitVec 4) (check : EccKind) (m : MemType) (w : BitVec 64) (s : State),
    t.toNat ≤ 7 → m = memType s t.toNat → w = Config.scrubWord t.toNat m.scrubPos → m.scrubOn = true →
    domainDark s (wordDomain t.toNat w) = false →
    exec (.patrolScrubStep t check) s = .next (settle (scrubNext t.toNat (memRead t.toNat (foundBy m w check)
      s)))) ∧
  (∀ (stack : BitVec 1) (w : BitVec 64) (l : List (BitVec 64)) (s : State),
    (memType s (8 + stack.toNat)).writebacks = w :: l →
    exec (.hbmWriteback stack) s = .next (settle (setMemType (8 + stack.toNat)
      { memType s (8 + stack.toNat) with
        writebacks := l, injected := gone w (memType s (8 + stack.toNat)).injected } s))) ∧
  (∀ (stack : BitVec 1) (x : Nat × Nat × Nat × Nat) (l : List (Nat × Nat × Nat × Nat)) (m : MemType)
      (keep freed : List (BitVec 64 × Nat)) (t : State) (s : State),
    m = memType s (8 + stack.toNat) → m.rowCopies = x :: l →
    (keep = m.spares.filter fun p => !decide (wordUnit p.1 = x.1 ∧ rowOf p.1 = (x.2.1, x.2.2.1))) →
    (freed = m.spares.filter fun p => decide (wordUnit p.1 = x.1 ∧ rowOf p.1 = (x.2.1, x.2.2.1))) →
    t = setMemType (8 + stack.toNat) { m with
      rowCopies := l, rows := m.rows ++ [x], spares := keep, used := m.used - BitVec.ofNat 16 freed.length } s →
    exec (.rowRemapped stack) s = .next (settle (raiseFree 11 0x10 (source 6 stack.toNat) (setStack stack.toNat
      { stackOf t stack.toNat with
        rows := satAdd (stackOf t stack.toNat).rows 1,
        words := (stackOf t stack.toNat).words - BitVec.ofNat 16 freed.length } t)))) ∧
  (∀ (x : BitVec 256) (l : List (BitVec 256)) (s : State),
    s.mem.remapDue = x :: l → s.boot.flash.remapLog ≠ [] → s.boot.flash.remapLog.length < 16384 →
    exec .remapLogAppend s = .next (settle ({ s with
        mem := { s.mem with remapDue := l },
        boot := { s.boot with flash := { s.boot.flash with remapLog := s.boot.flash.remapLog ++ [x] } } }))) ∧
  (∀ (x : BitVec 256) (l : List (BitVec 256)) (s : State),
    s.mem.remapDue = x :: l → s.boot.flash.remapLog = [] →
    exec .remapLogAppend s = .next (settle ({ s with
        mem := { s.mem with remapDue := l },
        boot :=
          { s.boot with flash := { s.boot.flash with remapLog := [remapHeader s s.boot.flash.remapGen, x] } } }))) ∧
  (∀ (page : BitVec 10) (a : BitVec 4) (addr : BitVec 52) (w : BitVec 64) (t : State) (m : MemType) (s : State),
    s.mgmt.fw = .running → tabGet 0 s.mem.ifetch page.toNat = 0 → w = mgmtWord a addr →
    t = memUe 6 w { s with mem := { s.mem with ifetch := tabSet 0 s.mem.ifetch page.toNat 1 } } →
    m = memType t 6 →
    exec (.ifetchUe page a addr) s = .next (settle (memFault 0x30 6 w (setMemType 6
      { m with bad := gone w m.bad, injected := gone w m.injected } t)))) ∧
  (∀ (page : BitVec 10) (a : BitVec 4) (addr : BitVec 52) (w : BitVec 64) (n : Nat) (s : State),
    s.mgmt.fw = .running → tabGet 0 s.mem.ifetch page.toNat = n + 1 → w = mgmtWord a addr →
    exec (.ifetchUe page a addr) s = .next (settle (fwHalt (memFault 0x31 6 w (memUe 6 w
      { s with mem := { s.mem with ifetch := tabSet 0 s.mem.ifetch page.toNat (n + 2) } }))))) ∧
  (∀ (a : BitVec 4) (addr : BitVec 52) (s : State),
    exec (.dsramUe a addr) s = .next (settle (memFault 0x32 7 (mgmtWord a addr) (memUe 7 (mgmtWord a addr) s)))) ∧
  (∀ (stack : BitVec 1) (ch : BitVec 6) (restored : Bool) (t : State) (s : State),
    (stackOf s stack.toNat).st = .up →
    t = setStack stack.toNat { stackOf s stack.toNat with retrains := satAdd (stackOf s stack.toNat).retrains 1 }
    s →
    exec (.channelRetrain stack ch restored) s = .next (settle (if restored = true then raiseFree 11 2 (source 6
      stack.toNat) t else stackLose stack.toNat 1 t))) ∧
  (∀ (stack : BitVec 1) (s : State),
    exec (.stackLost stack true) s = .next (settle (stackLose stack.toNat 3 s))) ∧
  (∀ (stack : BitVec 1) (s : State),
    4 ≤ ueSpread (stackOf s stack.toNat) (now s) →
    exec (.stackLost stack false) s = .next (settle (stackLose stack.toNat 2 s)))

/-- An occurrence, the flash log, automatic exit, an acknowledgement and an armed injection. Rests on R378, R380,
R383, R384, R386, R387. The model's own choices in it: log entries 8, 21, 40, 42, 46, 127. -/
def Obligations.FaultEventsAct : Prop :=
  (∀ (b : BitVec 5) (c : BitVec 8) (src : BitVec 16) (detail : BitVec 64) (s : State),
    faultTable.any (fun r => r.1 == b.toNat * 256 + c.toNat) = true → b ≠ 15 →
    exec (.faultOccurrence b c src detail) s = .next (settle (raise b.toNat c.toNat (srcOf16 src) detail s))) ∧
  (∀ (x : LogRec) (l : List LogRec) (s : State),
    s.fault.logDue = x :: l → s.fault.log.length < 65536 → lossOf x.data = none →
    exec .faultLogAppend s = .next (settle ({ s with
        fault := { s.fault with logDue := l, log := s.fault.log ++ [{ x with serial := s.boot.serial }] } }))) ∧
  (∀ (b : BitVec 5) (c : BitVec 8) (k : Nat) (t : State) (s : State),
    k = b.toNat * 256 + c.toNat → (faultRec s.fault k).isolated = true → (faultCfg s.fault k).autoExit = true →
    (faultRec s.fault k).sources.any autoKind = true → s.fault.safeStop = false →
    (faultRec s.fault k).recoveries.toNat < (faultCfg s.fault k).maxRecover.toNat →
    t = reach (quietEnd (faultCfg s.fault k) (faultRec s.fault k)) s →
    exec (.autoExit b c) s = .next (settle (exitRec k autoKind { t with
        fault := setFaultRec t.fault k
          { faultRec s.fault k with recoveries := satAdd (faultRec s.fault k).recoveries 1 } }))) ∧
  (∀ (b : BitVec 5) (c : BitVec 8) (k : Nat) (t : State) (s : State),
    k = b.toNat * 256 + c.toNat → (faultRec s.fault k).isolated = true → (faultCfg s.fault k).autoExit = true →
    (faultRec s.fault k).sources.any autoKind = true → s.fault.safeStop = false →
    (faultCfg s.fault k).maxRecover.toNat ≤ (faultRec s.fault k).recoveries.toNat →
    (faultRec s.fault k).exhausted = false → t = reach (quietEnd (faultCfg s.fault k) (faultRec s.fault k)) s →
    exec (.autoExit b c) s = .next (settle (raise 15 1 (srcOf16 (faultRec s.fault k).source) (BitVec.ofNat 64 k)
      { t with fault := setFaultRec t.fault k { faultRec s.fault k with exhausted := true } }))) ∧
  (∀ (b : BitVec 5) (c : BitVec 8) (s : State),
    b.toNat < 20 → c ≠ 0 →
    exec (.faultAckWrite b c) s = .next (settle (ackRec (b.toNat * 256 + c.toNat) s))) ∧
  (∀ (k : Nat) (x : FaultRec) (s : State),
    x = faultRec s.fault k → x.isolated = false → x.valid = false ∨ x.lastFull ≠ s.tele.time ∨ x.clkCount = 0 →
    ackRec k s = { s with fault := setFaultRec s.fault k { FaultRec.init with conds := x.conds } }) ∧
  (∀ (k : Nat) (x : FaultRec) (s : State),
    x = faultRec s.fault k → x.isolated = false → x.valid = true → x.lastFull = s.tele.time → x.clkCount ≠ 0 →
    ackRec k s = { s with
        fault := setFaultRec s.fault k { FaultRec.init with
            valid := true, injected := x.injected, count := x.clkCount, source := src16 x.clkSource,
            detail := x.clkDetail,
            level := BitVec.ofNat 3 (treatedLevel (faultCfg s.fault k).level.toNat x.clkSource x.clkDetail),
            first := x.last, last := x.last, lastSource := x.lastSource, lastFull := x.lastFull,
            clkCount := x.clkCount, clkSource := x.clkSource, clkDetail := x.clkDetail, conds := x.conds } }) ∧
  (∀ (k : Nat) (s : State),
    (faultRec s.fault k).isolated = true →
    ackRec k s = s) ∧
  (∀ (t : Nat) (m : MemType) (w : BitVec 64) (n : Nat) (s : State),
    s.mem.inj = .armed → now s < s.mem.injUntil.toNat → t = s.mem.injType.toNat → m = memType s t →
    w = injWord s → n = maskCount t s.mem.injMask →
    exec .injectedWrite s = .next (settle (setMemType t { m with
        injected := if n = 0 then gone w m.injected else gone w m.injected ++ [w],
        bad := if injectedUe t n s = true then gone w m.bad ++ [w] else gone w m.bad,
        writebacks := gone w m.writebacks } { tookFree s with mem := { s.mem with inj := .fired } }))) ∧
  (∀ (s : State),
    s.mem.inj = .armed → s.mem.injUntil.toNat ≤ now s →
    exec .injectedWrite s = .next (settle ({ s with mem := { s.mem with inj := .expired } }))) ∧
  (∀ (t : State) (s : State),
    s.mem.inj = .armed → t = reach s.mem.injUntil.toNat s →
    exec .injectExpired s = .next (settle ({ t with mem := { t.mem with inj := .expired } })))

/-- The 0x0B and 0x0F Nib families on records of defined blocks. Rests on R380, R382, R384, R387, R389, R392, Table
16-6. The model's own choices in it: log entries 10, 20, 42, 46, 47, 127. -/
def Obligations.FaultCommandsAct : Prop :=
  (∀ (r : Req) (b c : BitVec 8) (x : FaultRec) (s : State),
    serves 0x0B01 false r (wBytes 1 b ++ wBytes 1 c) s → b.toNat ≤ 19 → c ≠ 0 →
    x = faultRec s.fault (b.toNat * 256 + c.toNat) →
    exec (.faultRead r b c) s = .next (settle (respond r 0x0B01 (wBytes 1 b ++ wBytes 1 c) (ok (wBytes 8
      (recStatus (b.toNat * 256 + c.toNat) x) ++ wBytes 6 x.first ++ zeros 2 ++ wBytes 8 x.detail ++ wBytes 8
      (recLast x) ++ wBytes 8 (cfgWord (faultCfg s.fault (b.toNat * 256 + c.toNat))))) s))) ∧
  (∀ (r : Req) (f n : BitVec 16) (l : List Nat × Nat) (s : State),
    serves 0x0B02 false r (wBytes 2 f ++ wBytes 2 n) s → 1 ≤ n.toNat → n.toNat ≤ 256 →
    l = listFrom s n.toNat f.toNat →
    exec (.faultList r f n) s = .next (settle (respond r 0x0B02 (wBytes 2 f ++ wBytes 2 n) (ok (leBytes 2
      l.1.length ++ leBytes 2 l.2 ++ l.1.flatMap fun k => leBytes 2 k ++ wBytes 8 (recStatus k (faultRec s.fault
      k)))) s))) ∧
  (∀ (r : Req) (b c : BitVec 8) (s : State),
    serves 0x0B03 false r (wBytes 1 b ++ wBytes 1 c) s → b.toNat ≤ 19 → c ≠ 0 →
    (faultRec s.fault (b.toNat * 256 + c.toNat)).isolated = false →
    exec (.faultAck r b c) s = .next (settle (respond r 0x0B03 (wBytes 1 b ++ wBytes 1 c) (ok (wBytes 4
      ((faultRec s.fault (b.toNat * 256 + c.toNat)).count - (ackedRec (b.toNat * 256 + c.toNat) s).count)))
      (ackRec (b.toNat * 256 + c.toNat) s)))) ∧
  (∀ (r : Req) (b c : BitVec 8) (s : State),
    serves 0x0B04 false r (wBytes 1 b ++ wBytes 1 c) s → b.toNat ≤ 19 → c ≠ 0 →
    (faultRec s.fault (b.toNat * 256 + c.toNat)).isolated = true →
    exec (.faultRelease r b c) s = .next (settle (respond r 0x0B04 (wBytes 1 b ++ wBytes 1 c) ok (exitRec
      (b.toNat * 256 + c.toNat) (fun _ => true) s)))) ∧
  (∀ (r : Req) (b c : BitVec 8) (w : BitVec 64) (s : State),
    serves 0x0B05 false r (wBytes 1 b ++ wBytes 1 c ++ zeros 2 ++ wBytes 8 w) s → b.toNat ≤ 19 → c ≠ 0 →
    w.toNat % 8 ≤ 4 → w.toNat / 8 % 8 ≤ 4 →
    exec (.faultConfig r b c w) s = .next (settle (respond r 0x0B05 (wBytes 1 b ++ wBytes 1 c ++ zeros 2 ++
      wBytes 8 w) (ok (wBytes 8 (cfgWord (cfgWrite (b.toNat * 256 + c.toNat) w (faultCfg s.fault (b.toNat * 256 +
      c.toNat)))))) ({ s with
        fault := setFaultCfg s.fault (b.toNat * 256 + c.toNat) (cfgWrite (b.toNat * 256 + c.toNat) w (faultCfg
          s.fault (b.toNat * 256 + c.toNat))) })))) ∧
  (∀ (r : Req) (i : BitVec 32) (n : BitVec 16) (s : State),
    serves 0x0B06 false r (wBytes 4 i ++ wBytes 2 n) s → i.toNat + n.toNat ≤ s.fault.log.length → 1 ≤ n.toNat →
    n.toNat ≤ 64 →
    exec (.faultLogRead r i n) s = .next (settle (respond r 0x0B06 (wBytes 4 i ++ wBytes 2 n) (ok
      (((s.fault.log.drop i.toNat).take n.toNat).flatMap fun x => wBytes 8 x.stamp ++ wBytes 16 x.data)) s))) ∧
  (∀ (r : Req) (type mask : BitVec 8) (unit timeout : BitVec 16) (addr : BitVec 64) (s : State),
    serves 0x0F01 false r (wBytes 1 type ++ wBytes 1 mask ++ zeros 2 ++ wBytes 2 unit ++ wBytes 2 timeout ++
    wBytes 8 addr) s →
    type.toNat ≤ 9 → unit.toNat < 4096 → addr.toNat < 2 ^ 52 → s.mem.inj ≠ .armed →
    exec (.injectMem r type mask unit timeout addr) s = .next (settle (respond r 0x0F01 (wBytes 1 type ++ wBytes
      1 mask ++ zeros 2 ++ wBytes 2 unit ++ wBytes 2 timeout ++ wBytes 8 addr) (if Config.memHolds type.toNat unit
      addr = true then ok else rep 0x0F02) (if Config.memHolds type.toNat unit addr = false then s else
      { s with
        mem := { s.mem with
            inj := .armed, injType := type, injMask := mask, injUnit := unit, injAddr := addr,
            injUntil := s.tele.time + BitVec.ofNat 64 (timeout.toNat * msTicks) } })))) ∧
  (∀ (r : Req) (b c : BitVec 8) (src : BitVec 16) (detail : BitVec 64) (s : State),
    serves 0x0F02 false r (wBytes 1 b ++ wBytes 1 c ++ wBytes 2 src ++ wBytes 8 detail) s → b.toNat ≤ 19 → c ≠ 0 →
    exec (.injectRaise r b c src detail) s = .next (settle (respond r 0x0F02 (wBytes 1 b ++ wBytes 1 c ++ wBytes
      2 src ++ wBytes 8 detail) ok (raiseWith true b.toNat c.toNat (srcOf16 src) detail s)))) ∧
  (∀ (r : Req) (s : State),
    serves 0x0F03 false r [] s →
    exec (.injectStatus r) s = .next (settle (respond r 0x0F03 [] (ok (leBytes 1 (injNum s.mem.inj) ++ wBytes 1
      s.mem.injType ++ wBytes 2 s.mem.injUnit ++ wBytes 8 s.mem.injAddr)) s)))

/-- A write of 4 or 8 bytes reaches the bytes of its register; a misaligned one writes nothing; a read-only
register and an offset without one take nothing; pmu.alarm, mgmt.irq_ctl, a scrub control and a thermal threshold
take theirs. Rests on R9, R312. The model's own choices in it: log entries 15, 17, 55. -/
def Obligations.RegistersAreWritten : Prop :=
  (∀ (o : BitVec 26) (v : BitVec 512) (s : State),
    o.toNat % 8 = 0 →
    exec (.registerWrite o 8#7 v) s = .next (settle (regWrite o.toNat (v.setWidth 64) 0xFFFFFFFFFFFFFFFF s))) ∧
  (∀ (o : BitVec 26) (v : BitVec 512) (s : State),
    o.toNat % 8 = 0 →
    exec (.registerWrite o 4#7 v) s = .next (settle (regWrite o.toNat (v.setWidth 64) 0xFFFFFFFF s))) ∧
  (∀ (o : BitVec 26) (v : BitVec 512) (s : State),
    o.toNat % 8 = 4 →
    exec (.registerWrite o 4#7 v) s = .next (settle (regWrite (o.toNat - 4) (v.setWidth 64 <<< 32)
      0xFFFFFFFF00000000 s))) ∧
  (∀ (o : BitVec 26) (v : BitVec 512) (s : State),
    o.toNat % 8 ≠ 0 →
    exec (.registerWrite o 8#7 v) s = .next (settle s)) ∧
  (∀ (o : BitVec 26) (v : BitVec 512) (s : State),
    o.toNat % 4 ≠ 0 →
    exec (.registerWrite o 4#7 v) s = .next (settle s)) ∧
  (∀ (o : BitVec 26) (k : BitVec 7) (v : BitVec 512) (s : State),
    bufferArea o.toNat = true → k = 1 ∨ k = 2 ∨ k = 16 ∨ k = 32 ∨ k = 64 → o.toNat % k.toNat = 0 →
    exec (.registerWrite o k v) s = .next (settle (bufferWrite o.toNat k.toNat v s))) ∧
  (∀ (o : BitVec 26) (k : BitVec 7) (v : BitVec 512) (s : State),
    bufferArea o.toNat = false ∨ o.toNat % k.toNat ≠ 0 → k ≠ 4 → k ≠ 8 →
    exec (.registerWrite o k v) s = .next (settle s)) ∧
  (∀ (v m : BitVec 64) (s : State),
    regWrite 8 v m s = s ∧ regWrite 0x10 v m s = s ∧ regWrite 0x200000 v m s = s ∧ regWrite 0x900000 v m s = s ∧
      regWrite 0xA00000 v m s = s) ∧
  (∀ (v : BitVec 64) (s : State),
    regWrite 0x500020 v allMask s = { s with pmu := { s.pmu with alarm := v } }) ∧
  (∀ (v : BitVec 64) (s : State),
    regWrite 0x20 v allMask s = { s with mgmt := { s.mgmt with irqEn := bit v 0 } }) ∧
  (∀ (v : BitVec 64) (s : State),
    regWrite 0x180010 v allMask s = setMemType 0 { memType s 0 with period := fld v 0 32, scrubOn := bit v 32 }
      s) ∧
  (∀ (v : BitVec 64) (s : State),
    regWrite 0x300 v allMask s = { s with boot := { s.boot with warn := fld v 40 8 } })

/-- A domain leaves ON, refuses, is woken and restored in steps, and a ready signal missing. Rests on R399, R400,
R402, R404, R407, R410, R411. The model's own choices in it: log entries 30, 48, 49, 126. -/
def Obligations.DomainsAct : Prop :=
  (∀ (d : BitVec 8) (n : Nat) (t : State) (s : State),
    n = d.toNat → n ≤ 219 → running s = true → (domain s n).st = .on → (domain s n).step = 0 →
    (domain s n).auto = true → lowestOf s n ≠ 0 → mayIdle s n = true →
    t = reach ((together n).foldl (fun t x => max t (idleEnd s x)) 0) s →
    exec (.domainIdleEntry d false) s = .next (settle ((together n).foldl (fun u x => sleepTo x (domStOf
      (lowestOf u n)) u) t))) ∧
  (∀ (d : BitVec 8) (n : Nat) (t u : State) (s : State),
    n = d.toNat → n ≤ 219 → running s = true → (domain s n).st = .on → (domain s n).step = 0 →
    (domain s n).auto = true → lowestOf s n ≠ 0 → mayIdle s n = true →
    t = reach ((together n).foldl (fun t x => max t (idleEnd s x)) 0) s → u = doubleMult (groupOf n) t →
    exec (.domainIdleEntry d true) s = .next (settle (raiseFree 16 1 (source 0 0)
      { u with pmu := { u.pmu with lastAbort := abortWord 0 0 n 0 (stamp u) } }))) ∧
  (∀ (d : BitVec 8) (s : State),
    d.toNat ≤ 219 → running s = true →
    exec (.domainWake d) s = .next (settle ((together d.toNat).foldl (fun s x => restore x s) s))) ∧
  (∀ (d : Nat) (s : State),
    (domain s d).st ≠ .on → (domain s d).step = 0 → (domain s d).dead = false → groupOf d ≠ 6 → groupOf d ≠ 4 →
    restore d s = setDomain d { domain s d with
        step := 1, fromRet := decide ((domain s d).st = .ret), misses := 0, wakes := (domain s d).wakes + 1,
        lastUse := s.tele.time } s) ∧
  (∀ (b : Nat) (s : State),
    running s = true → freeIn s (banksOn s) < 32768 →
    (List.range 16).find? (fun b => decide ((domain s (170 + b)).st = .off)) = some b →
    exec (.bankWake false) s = .next (settle (restore (170 + b) s))) ∧
  (∀ (d : BitVec 8) (bad : BitVec 16) (s : State),
    d.toNat ≤ 219 → (domain s d.toNat).step = 1 →
    exec (.domainRestoreStep d bad) s = .next (settle (setDomain d.toNat { domain s d.toNat with step := 2 } s))) ∧
  (∀ (d : BitVec 8) (bad : BitVec 16) (s : State),
    d.toNat ≤ 219 → (domain s d.toNat).step = 2 →
    exec (.domainRestoreStep d bad) s = .next (settle (setDomain d.toNat { domain s d.toNat with step := 3 } s))) ∧
  (∀ (d : BitVec 8) (bad : BitVec 16) (t : State) (s : State),
    d.toNat ≤ 219 → (domain s d.toNat).step = 3 → groupOf d.toNat ≠ 4 →
    (t = if (domain s d.toNat).fromRet = true then checkSigs d.toNat bad s else s) →
    exec (.domainRestoreStep d bad) s = .next (settle (setDomain d.toNat { domain t d.toNat with step := 4 } t))) ∧
  (∀ (d : BitVec 8) (bad : BitVec 16) (s : State),
    d.toNat ≤ 219 → (domain s d.toNat).step = 4 → groupOf d.toNat ≠ 4 →
    exec (.domainRestoreStep d bad) s = .next (settle (domainOn d.toNat s))) ∧
  (∀ (d : BitVec 8) (bad : BitVec 16) (t u : State) (s : State),
    d.toNat ≤ 219 → (domain s d.toNat).step = 3 → groupOf d.toNat = 4 →
    (t = if (domain s d.toNat).fromRet = true then checkSigs d.toNat bad s else s) →
    u = setDomain d.toNat { domain t d.toNat with step := 4 } t →
    exec (.domainRestoreStep d bad) s = .next (settle (setPlane (d.toNat - 168)
      { plane u (d.toNat - 168) with testFrom := u.tele.time } u))) ∧
  (∀ (d : BitVec 8) (bad : BitVec 16) (s : State),
    d.toNat ≤ 219 → (domain s d.toNat).step = 0 →
    exec (.domainRestoreStep d bad) s = .next (settle (planeResetStart d.toNat s))) ∧
  (∀ (d : BitVec 8) (t : State) (s : State),
    (domain s d.toNat).reload = true → (domain s d.toNat).st = .on → d.toNat ≠ 190 →
    t = setDomain d.toNat { domain s d.toNat with reload := false } s →
    exec (.retentionReloadDone d) s = .next (settle (if retained d.toNat = true then unblock t else t))) ∧
  (∀ (d : BitVec 8) (n : Nat) (v : Domain) (s : State),
    n = d.toNat → n ≤ 219 → v = domain s n → v.step ≠ 0 → v.misses = 0 →
    exec (.wakeTimeout d) s = .next (settle (setDomain n
      { v with st := .off, step := 1, fromRet := false, misses := 1, reload := v.reload || retained n } (raiseFree
      16 0x20 (source 0 0) s)))) ∧
  (∀ (d : BitVec 8) (s : State),
    d.toNat ≤ 219 → (domain s d.toNat).step ≠ 0 → (domain s d.toNat).misses ≠ 0 →
    exec (.wakeTimeout d) s = .next (settle (exitNext (domainDead d.toNat (raiseFree 16 0x20 (source 0 0) s))))) ∧
  (∀ (d : BitVec 8) (t u : State) (s : State),
    d = 190 → (domain s 190).reload = true → (domain s 190).st = .on →
    t = trafSync (setDomain 190 { domain s 190 with reload := false } s) →
    u = { t with
      traffic :=
        { t.traffic with meters := tabMap Meter.init (fun b m => fullMeter (traf t b) m) t.traffic.meters } } →
    exec (.retentionReloadDone d) s = .next (settle (if retained 190 = true then unblock u else u)))

/-- An entry begins and goes on stage by stage, and a wake source ends it or starts the exit. Rests on R401, R403,
R405, R415, R420. The model's own choices in it: log entries 8, 30, 48, 50. -/
def Obligations.EntriesAndWakesAct : Prop :=
  (∀ (s : State),
    running s = true → s.pmu.dozeAuto = true →
    exec .dozeAutoAttempt s = .next (settle (beginEntry false none (reach ((List.range 220).foldl (fun t d =>
      max t (idleEnd s d)) 0) s)))) ∧
  (∀ (n : Nat) (s : State),
    s.pmu.entering = true → n = s.pmu.stage.toNat → n ≠ 4 → n ≠ 12 → n ≠ 13 →
    exec .entryStage s = .next (settle (runStage n s))) ∧
  (∀ (s : State),
    s.pmu.entering = true → s.pmu.stage = 13 →
    exec .entryStage s = .next (settle (railStage s))) ∧
  (∀ (s : State),
    s.pmu.entering = true → s.pmu.stage = 4 →
    exec .entryStage s = .next (settle (if s.pmu.toStandby = true then departStage s else runStage 4 s))) ∧
  (∀ (n : Nat) (d : Nat) (s : State),
    (stageDomains n).find? (fun d => refuses s d) = some d →
    runStage n s = abortEntry 0 d s) ∧
  (∀ (n : Nat) (s t : State),
    (stageDomains n).find? (fun d => refuses s d) = none → n ≠ 11 → t = stopStage n s →
    runStage n s = { t with pmu := { t.pmu with stage := BitVec.ofNat 4 (nextStage t.pmu.toStandby n) } }) ∧
  (∀ (e : BitVec 64) (t : State) (s : State),
    s.pmu.stage12 = some e → s.pmu.entering = true → s.pmu.stage = 12 → t = reach e.toNat s →
    exec .standbyFinalStage s = .next (settle (runStage 12
      { t with pmu := { t.pmu with stage12 := none, stage12Ticket := none } }))) ∧
  (∀ (src : BitVec 4) (i : BitVec 6) (s : State),
    src ≠ 2 → src ≠ 3 → wakeState s src.toNat = true →
    exec (.wakeSource src i) s = .next (settle (wakeBy src.toNat i.toNat s))) ∧
  (∀ (i : BitVec 6) (s : State),
    bit s.pmu.detectMask i.toNat = true → wakeState s 3 = true →
    exec (.wakeSource 3 i) s = .next (settle (wakeBy 3 i.toNat s))) ∧
  (∀ (pin : BitVec 4) (level : Bool) (t : State) (s : State),
    bit s.boot.gpioIn pin.toNat ≠ level →
    t = { s with boot := { s.boot with gpioIn := setFld s.boot.gpioIn pin.toNat 1 (b1 level) } } →
    exec (.gpioEdge pin level) s = .next (settle (if bit s.pmu.gpioWake pin.toNat = true ∧ bit s.boot.gpioOe
      pin.toNat = false ∧ bit s.pmu.gpioFall pin.toNat ≠ level then wakeBy 2 pin.toNat t else t))) ∧
  (∀ (s : State),
    s.pmu.alarm ≠ 0 → now s ≤ s.pmu.alarm.toNat →
    exec .alarm s = .next (settle (wakeBy 6 0 (reach s.pmu.alarm.toNat s)))) ∧
  (∀ (src i : Nat) (s : State),
    bit s.pmu.sources src = false →
    wakeBy src i s = s) ∧
  (∀ (src i : Nat) (s : State),
    bit s.pmu.sources src = true → s.pmu.entering = true →
    wakeBy src i s = abortEntry 1 0xFF s) ∧
  (∀ (src i : Nat) (s : State),
    bit s.pmu.sources src = true → s.pmu.entering = false → s.pmu.st = .doze ∨ s.pmu.st = .standby →
    s.pmu.exiting = false →
    wakeBy src i s = exitRails { s with
        pmu := { s.pmu with
            exiting := true, exitFailed := false,
            lastWake := BitVec.ofNat 64 (src % 16 + i % 64 * 16 + devNum s.pmu.st * 2 ^ 10 + (stamp s).toNat * 2 ^
              16) } })

/-- A rail reaches its voltage, its change fails and is tried again, and its monitor raises PMU-0x0012 on the third
reading in a row that is off. Rests on R413, R414. The model's own choices in it: log entries 8, 40, 90, 91. -/
def Obligations.RailsAct : Prop :=
  (∀ (rail : BitVec 2) (s : State),
    (railOf s rail.toNat).change ≠ none → (railOf s rail.toNat).failed = false →
    exec (.avsPoll rail true true) s = .next (settle (railDone rail.toNat s))) ∧
  (∀ (rail : BitVec 2) (v : Bool) (s : State),
    (railOf s rail.toNat).change ≠ none → (railOf s rail.toNat).failed = false →
    exec (.avsPoll rail v false) s = .next (settle (railFailed rail.toNat s))) ∧
  (∀ (k : Nat) (s : State),
    s.pmu.exiting = false →
    railDone k s = setRail k { railOf s k with vdone := true, change := none } s) ∧
  (∀ (rail : BitVec 2) (e : BitVec 64) (n : Nat) (s : State),
    (railOf s rail.toNat).change = some (e, n) → (railOf s rail.toNat).failed = false →
    exec (.avsTimeout rail) s = .next (settle (railFailed rail.toNat (reach (e.toNat + avsTicks s) s)))) ∧
  (∀ (rail : BitVec 2) (e : BitVec 64) (n : Nat) (t : State) (s : State),
    (railOf s rail.toNat).change = some (e, n) → (railOf s rail.toNat).failed = true → s.pmu.exiting = true →
    t = reach (e.toNat + msTicks) s →
    exec (.avsExitRetry rail) s = .next (settle (setRail rail.toNat
      { railOf s rail.toNat with change := some (t.tele.time, n + 1), failed := false } t))) ∧
  (∀ (rail : BitVec 2) (vo io : BitVec 16) (v : Rail) (s : State),
    s.pmu.st = .run → v = railOf s rail.toNat → v.target ≠ 0 →
    100 * (v.target.toNat - vo.toNat + (vo.toNat - v.target.toNat)) ≤ 3 * v.target.toNat →
    exec (.railMonitor rail vo io) s = .next (settle (setRail rail.toNat
      { v with vout := vo, iout := io, off3 := 0 } s))) ∧
  (∀ (rail : BitVec 2) (vo io : BitVec 16) (v : Rail) (s : State),
    s.pmu.st = .run → v = railOf s rail.toNat → v.target ≠ 0 →
    3 * v.target.toNat < 100 * (v.target.toNat - vo.toNat + (vo.toNat - v.target.toNat)) → v.off3 = 2 →
    exec (.railMonitor rail vo io) s = .next (settle (raiseFree 16 0x12 (source 0 0) (setRail rail.toNat
      { v with vout := vo, iout := io, off3 := 0 } s))))

/-- The 0x0C Nib family with fields in range. Rests on R401, R404, R415, R419, R420, Table 17-12. The model's own
choices in it: log entries 10, 13, 50. -/
def Obligations.PowerCommandsAct : Prop :=
  (∀ (r : Req) (s : State),
    serves 0x0C01 false r [] s →
    exec (.powerStatus r) s = .next (settle (respond r 0x0C01 [] (ok (wBytes 8 (pmuStateWord s.pmu) ++ wBytes 8
      s.pmu.lastWake ++ wBytes 6 s.pmu.lastDone ++ zeros 2 ++ wBytes 8 s.pmu.lastAbort ++ (List.range 4).flatMap
      fun k => wBytes 8 (railWord (railOf s k)))) s))) ∧
  (∀ (r : Req) (t : BitVec 8) (s : State),
    serves 0x0C02 false r (wBytes 1 t) s → t = 1 ∨ t = 2 → s.fault.safeStop = false →
    s.mgmt.tickets.length < 256 → s.pmu.rolling = false →
    exec (.powerStateSet r t) s = .next (settle (respond r 0x0C02 (wBytes 1 t) (rep 1 (nextTicketNum s).toNat)
      (beginEntry (decide (t = 2)) (some (nextTicketNum s)) (holdTicket 0x0C02 r s))))) ∧
  (∀ (r : Req) (s : State),
    serves 0x0C02 false r (wBytes 1 0#8) s → s.fault.safeStop = false →
    exec (.powerStateSet r 0#8) s = .next (settle (respond r 0x0C02 (wBytes 1 0#8) (ok (wBytes 8
      s.pmu.lastAbort)) s))) ∧
  (∀ (r : Req) (d : BitVec 16) (s : State),
    serves 0x0C03 false r (wBytes 2 d) s → d.toNat ≤ 219 →
    exec (.powerDomainRead r d) s = .next (settle (respond r 0x0C03 (wBytes 2 d) (ok (wBytes 8 (domainWord s
      d.toNat) ++ leBytes 1 (multOf s (groupOf d.toNat)).toNat)) s))) ∧
  (∀ (r : Req) (d : BitVec 16) (g lowest auto : BitVec 8) (us : BitVec 32) (l : List Nat) (t : State)
      (s : State),
    serves 0x0C04 false r (wBytes 2 d ++ wBytes 1 g ++ wBytes 1 lowest ++ wBytes 1 auto ++ zeros 3 ++ wBytes 4 us)
    s →
    timerDomains d g = some l → (l.any fun d => decide (groupLowest (groupOf d) < lowest.toNat)) = false →
    auto.toNat ≤ 1 → 1 ≤ us.toNat → us.toNat ≤ 10000000 → t = l.foldl (fun s d => setPower d lowest auto us s) s →
    exec (.powerTimerSet r d g lowest auto us) s = .next (settle (respond r 0x0C04 (wBytes 2 d ++ wBytes 1 g ++
      wBytes 1 lowest ++ wBytes 1 auto ++ zeros 3 ++ wBytes 4 us) ok
      ({ t with pmu := { t.pmu with mult := l.foldl (fun u d => tabSet 1 u (groupOf d) 1) t.pmu.mult } })))) ∧
  (∀ (r : Req) (wm dm al : BitVec 64) (da : BitVec 8) (av : BitVec 16) (s : State),
    serves 0x0C05 false r (wBytes 8 wm ++ wBytes 8 dm ++ wBytes 8 al ++ wBytes 1 da ++ zeros 7 ++ wBytes 2 av) s →
    da.toNat ≤ 1 →
    exec (.powerWakeCfg r wm dm al da av) s = .next (settle (respond r 0x0C05 (wBytes 8 wm ++ wBytes 8 dm ++
      wBytes 8 al ++ wBytes 1 da ++ zeros 7 ++ wBytes 2 av) ok ({ s with
        pmu := { s.pmu with
            sources := fld wm 0 8, gpioWake := fld wm 8 16, gpioFall := fld wm 24 16,
            detectMask := dm.setWidth 48, alarm := al, dozeAuto := decide (da = 1), avsTimeout := av } }))))
end

