-- ==== Sys2Proof/Laws/Tab.lean ====
section
/-! SUPPORT. The sparse tables: reading after writing, and the canonical form that every table operation keeps. -/

namespace Sys2Proof.Machine

open Sys2Proof

variable {α : Type}

theorem tabGet_tabPut_same (d v : α) (k : Nat) (t : Tab α) : tabGet d (tabPut k v t) k = v := by
  induction t with
  | nil => simp [tabPut, tabGet]
  | cons p t ih =>
    obtain ⟨j, w⟩ := p
    simp only [tabPut]
    split
    · simp [tabGet]
    · split
      · simp [tabGet]
      · simp [tabGet, *]

theorem tabGet_tabPut_other (d v : α) {k i : Nat} (h : i ≠ k) (t : Tab α) :
    tabGet d (tabPut k v t) i = tabGet d t i := by
  induction t with
  | nil => simp [tabPut, tabGet, h]
  | cons p t ih =>
    obtain ⟨j, w⟩ := p
    simp only [tabPut]
    split
    · simp [tabGet, h]
    · split
      · subst_vars; simp [tabGet, h]
      · simp [tabGet, ih]

theorem tabGet_tabDel_other (d : α) {k i : Nat} (h : i ≠ k) (t : Tab α) :
    tabGet d (tabDel k t) i = tabGet d t i := by
  induction t with
  | nil => rfl
  | cons p t ih =>
    obtain ⟨j, w⟩ := p
    simp only [tabDel]
    split
    · subst_vars; simp [tabGet, h, ih]
    · simp [tabGet, ih]

theorem tabGet_tabDel_same (d : α) (k : Nat) (t : Tab α) : tabGet d (tabDel k t) k = d := by
  induction t with
  | nil => rfl
  | cons p t ih =>
    obtain ⟨j, w⟩ := p
    simp only [tabDel]
    split
    · exact ih
    · rename_i h; simp [tabGet, h, ih]

variable [DecidableEq α]

/-- An index below every listed one reads the default. -/
theorem tabGet_below {d : α} {lo k : Nat} {t : Tab α} (hw : tabWfFrom d lo t = true) (h : k < lo) :
    tabGet d t k = d := by
  induction t generalizing lo with
  | nil => rfl
  | cons p t ih =>
    obtain ⟨j, w⟩ := p
    simp only [tabWfFrom, Bool.and_eq_true, decide_eq_true_eq] at hw
    have hk : k ≠ j := by omega
    simp only [tabGet, hk, if_false]
    exact ih hw.2 (by omega)

/-- A read after a write to another index gives what it gave before. -/
theorem tabGet_tabSet_other (d v : α) {k i : Nat} (h : i ≠ k) (t : Tab α) :
    tabGet d (tabSet d t k v) i = tabGet d t i := by
  unfold tabSet
  split
  · exact tabGet_tabDel_other d h t
  · exact tabGet_tabPut_other d v h t

/-- A read after a write to the same index gives the value written. -/
@[simp] theorem tabGet_tabSet_same (d : α) (t : Tab α) (k : Nat) (v : α) : tabGet d (tabSet d t k v) k = v := by
  unfold tabSet
  split
  · subst_vars; exact tabGet_tabDel_same _ k t
  · exact tabGet_tabPut_same d v k t

theorem tabWfFrom_mono {d : α} {lo lo' : Nat} {t : Tab α} (h : lo' ≤ lo) (hw : tabWfFrom d lo t = true) :
    tabWfFrom d lo' t = true := by
  cases t with
  | nil => rfl
  | cons p t =>
    simp only [tabWfFrom, Bool.and_eq_true, decide_eq_true_eq] at hw ⊢
    exact ⟨⟨by omega, hw.1.2⟩, hw.2⟩

theorem tabPut_wf {d v : α} {k lo : Nat} {t : Tab α} (hv : v ≠ d) (hk : lo ≤ k) (hw : tabWfFrom d lo t = true) :
    tabWfFrom d lo (tabPut k v t) = true := by
  induction t generalizing lo with
  | nil => simp [tabPut, tabWfFrom, hv, hk]
  | cons p t ih =>
    obtain ⟨j, w⟩ := p
    simp only [tabWfFrom, Bool.and_eq_true, decide_eq_true_eq] at hw
    simp only [tabPut]
    split
    · simp only [tabWfFrom, Bool.and_eq_true, decide_eq_true_eq]
      exact ⟨⟨hk, by simpa using hv⟩, ⟨by omega, hw.1.2⟩, hw.2⟩
    · split
      · subst_vars
        simp only [tabWfFrom, Bool.and_eq_true, decide_eq_true_eq]
        exact ⟨⟨hw.1.1, by simpa using hv⟩, hw.2⟩
      · simp only [tabWfFrom, Bool.and_eq_true, decide_eq_true_eq]
        exact ⟨hw.1, ih (by omega) hw.2⟩

theorem tabDel_wf {d : α} {k lo : Nat} {t : Tab α} (hw : tabWfFrom d lo t = true) :
    tabWfFrom d lo (tabDel k t) = true := by
  induction t generalizing lo with
  | nil => rfl
  | cons p t ih =>
    obtain ⟨j, w⟩ := p
    simp only [tabWfFrom, Bool.and_eq_true, decide_eq_true_eq] at hw
    simp only [tabDel]
    split
    · exact tabWfFrom_mono (by omega) (ih hw.2)
    · simp only [tabWfFrom, Bool.and_eq_true, decide_eq_true_eq]
      exact ⟨hw.1, ih hw.2⟩

/-- A write keeps the canonical form. -/
theorem tabSet_wf {d : α} {t : Tab α} (k : Nat) (v : α) (hw : tabWf d t = true) : tabWf d (tabSet d t k v) = true := by
  unfold tabSet
  split
  · exact tabDel_wf hw
  · rename_i h; exact tabPut_wf h (Nat.zero_le _) hw

/-- Dropping entries keeps the canonical form. -/
theorem filter_wf {d : α} {lo : Nat} {t : Tab α} (f : Nat × α → Bool) (hw : tabWfFrom d lo t = true) :
    tabWfFrom d lo (t.filter f) = true := by
  induction t generalizing lo with
  | nil => rfl
  | cons p t ih =>
    obtain ⟨j, w⟩ := p
    simp only [tabWfFrom, Bool.and_eq_true, decide_eq_true_eq] at hw
    simp only [List.filter_cons]
    split
    · simp only [tabWfFrom, Bool.and_eq_true, decide_eq_true_eq]
      exact ⟨hw.1, ih hw.2⟩
    · exact tabWfFrom_mono (by omega) (ih hw.2)

theorem tabFilter_wf {d : α} {t : Tab α} (keep : Nat → α → Bool) (hw : tabWf d t = true) :
    tabWf d (tabFilter keep t) = true := filter_wf _ hw

theorem tabMap_wf {d : α} {t : Tab α} (f : Nat → α → α) (hw : tabWf d t = true) : tabWf d (tabMap d f t) = true := by
  unfold tabWf tabMap at *
  generalize (0 : Nat) = lo at *
  induction t generalizing lo with
  | nil => rfl
  | cons p t ih =>
    obtain ⟨j, w⟩ := p
    simp only [tabWfFrom, Bool.and_eq_true, decide_eq_true_eq] at hw
    simp only [List.map_cons, List.filter_cons]
    split
    · rename_i h
      simp only [tabWfFrom, Bool.and_eq_true, decide_eq_true_eq]
      exact ⟨⟨hw.1.1, h⟩, ih _ hw.2⟩
    · exact tabWfFrom_mono (by omega) (ih _ hw.2)

/-- Writing a list of values keeps the canonical form. -/
theorem tabWrite_wf {d : α} {t : Tab α} (lo : Nat) (vs : List α) (hw : tabWf d t = true) :
    tabWf d (tabWrite d t lo vs) = true := by
  unfold tabWrite
  generalize vs.zipIdx = l
  induction l generalizing t with
  | nil => exact hw
  | cons p l ih => exact ih (tabSet_wf _ _ hw)

end Sys2Proof.Machine
end

