-- ==== Sys2Proof/Laws/State.lean ====
section
/-! SUPPORT. The named updates of the state, field by field: each changes the part of the state it names and no other,
and a read of what was written gives what was written. -/

namespace Sys2Proof.Machine

open Sys2Proof

/-! ## elapse -/

@[simp] theorem elapse_plan (d : Nat) (s : State) : (elapse d s).plan = s.plan := rfl
@[simp] theorem elapse_bind (d : Nat) (s : State) : (elapse d s).bind = s.bind := rfl
@[simp] theorem elapse_mig (d : Nat) (s : State) : (elapse d s).mig = s.mig := rfl
@[simp] theorem elapse_xbar (d : Nat) (s : State) : (elapse d s).xbar = s.xbar := rfl
@[simp] theorem elapse_proxy (d : Nat) (s : State) : (elapse d s).proxy = s.proxy := rfl
@[simp] theorem elapse_scribe (d : Nat) (s : State) : (elapse d s).scribe = s.scribe := rfl
@[simp] theorem elapse_traffic (d : Nat) (s : State) : (elapse d s).traffic = s.traffic := rfl
@[simp] theorem elapse_prot (d : Nat) (s : State) : (elapse d s).prot = s.prot := rfl
@[simp] theorem elapse_ports (d : Nat) (s : State) : (elapse d s).ports = s.ports := rfl
@[simp] theorem elapse_wefts (d : Nat) (s : State) : (elapse d s).wefts = s.wefts := rfl
@[simp] theorem elapse_lane (d : Nat) (s : State) : (elapse d s).lane = s.lane := rfl
@[simp] theorem elapse_mgmt (d : Nat) (s : State) : (elapse d s).mgmt = s.mgmt := rfl
@[simp] theorem elapse_mem (d : Nat) (s : State) : (elapse d s).mem = s.mem := rfl
@[simp] theorem elapse_fault (d : Nat) (s : State) : (elapse d s).fault = s.fault := rfl
@[simp] theorem elapse_pmu (d : Nat) (s : State) : (elapse d s).pmu = s.pmu := rfl
@[simp] theorem elapse_slot (d : Nat) (s : State) : (elapse d s).slot = s.slot := rfl
@[simp] theorem elapse_sealu (d : Nat) (s : State) : (elapse d s).sealu = s.sealu := rfl
@[simp] theorem elapse_boot (d : Nat) (s : State) : (elapse d s).boot = s.boot := rfl
@[simp] theorem elapse_emits (d : Nat) (s : State) : (elapse d s).emits = s.emits := rfl
@[simp] theorem elapse_free (d : Nat) (s : State) : (elapse d s).free = s.free := rfl
@[simp] theorem elapse_pending (d : Nat) (s : State) : (elapse d s).pending = s.pending := rfl

/-! ## emit -/

@[simp] theorem emit_tele (e : Emit) (s : State) : (emit e s).tele = s.tele := rfl
@[simp] theorem emit_aon (e : Emit) (s : State) : (emit e s).aon = s.aon := rfl
@[simp] theorem emit_plan (e : Emit) (s : State) : (emit e s).plan = s.plan := rfl
@[simp] theorem emit_bind (e : Emit) (s : State) : (emit e s).bind = s.bind := rfl
@[simp] theorem emit_mig (e : Emit) (s : State) : (emit e s).mig = s.mig := rfl
@[simp] theorem emit_xbar (e : Emit) (s : State) : (emit e s).xbar = s.xbar := rfl
@[simp] theorem emit_proxy (e : Emit) (s : State) : (emit e s).proxy = s.proxy := rfl
@[simp] theorem emit_scribe (e : Emit) (s : State) : (emit e s).scribe = s.scribe := rfl
@[simp] theorem emit_traffic (e : Emit) (s : State) : (emit e s).traffic = s.traffic := rfl
@[simp] theorem emit_prot (e : Emit) (s : State) : (emit e s).prot = s.prot := rfl
@[simp] theorem emit_ports (e : Emit) (s : State) : (emit e s).ports = s.ports := rfl
@[simp] theorem emit_wefts (e : Emit) (s : State) : (emit e s).wefts = s.wefts := rfl
@[simp] theorem emit_lane (e : Emit) (s : State) : (emit e s).lane = s.lane := rfl
@[simp] theorem emit_mgmt (e : Emit) (s : State) : (emit e s).mgmt = s.mgmt := rfl
@[simp] theorem emit_mem (e : Emit) (s : State) : (emit e s).mem = s.mem := rfl
@[simp] theorem emit_fault (e : Emit) (s : State) : (emit e s).fault = s.fault := rfl
@[simp] theorem emit_pmu (e : Emit) (s : State) : (emit e s).pmu = s.pmu := rfl
@[simp] theorem emit_slot (e : Emit) (s : State) : (emit e s).slot = s.slot := rfl
@[simp] theorem emit_sealu (e : Emit) (s : State) : (emit e s).sealu = s.sealu := rfl
@[simp] theorem emit_boot (e : Emit) (s : State) : (emit e s).boot = s.boot := rfl
@[simp] theorem emit_free (e : Emit) (s : State) : (emit e s).free = s.free := rfl
@[simp] theorem emit_pending (e : Emit) (s : State) : (emit e s).pending = s.pending := rfl

/-! ## emitAll -/

@[simp] theorem emitAll_tele (es : List Emit) (s : State) : (emitAll es s).tele = s.tele := rfl
@[simp] theorem emitAll_aon (es : List Emit) (s : State) : (emitAll es s).aon = s.aon := rfl
@[simp] theorem emitAll_plan (es : List Emit) (s : State) : (emitAll es s).plan = s.plan := rfl
@[simp] theorem emitAll_bind (es : List Emit) (s : State) : (emitAll es s).bind = s.bind := rfl
@[simp] theorem emitAll_mig (es : List Emit) (s : State) : (emitAll es s).mig = s.mig := rfl
@[simp] theorem emitAll_xbar (es : List Emit) (s : State) : (emitAll es s).xbar = s.xbar := rfl
@[simp] theorem emitAll_proxy (es : List Emit) (s : State) : (emitAll es s).proxy = s.proxy := rfl
@[simp] theorem emitAll_scribe (es : List Emit) (s : State) : (emitAll es s).scribe = s.scribe := rfl
@[simp] theorem emitAll_traffic (es : List Emit) (s : State) : (emitAll es s).traffic = s.traffic := rfl
@[simp] theorem emitAll_prot (es : List Emit) (s : State) : (emitAll es s).prot = s.prot := rfl
@[simp] theorem emitAll_ports (es : List Emit) (s : State) : (emitAll es s).ports = s.ports := rfl
@[simp] theorem emitAll_wefts (es : List Emit) (s : State) : (emitAll es s).wefts = s.wefts := rfl
@[simp] theorem emitAll_lane (es : List Emit) (s : State) : (emitAll es s).lane = s.lane := rfl
@[simp] theorem emitAll_mgmt (es : List Emit) (s : State) : (emitAll es s).mgmt = s.mgmt := rfl
@[simp] theorem emitAll_mem (es : List Emit) (s : State) : (emitAll es s).mem = s.mem := rfl
@[simp] theorem emitAll_fault (es : List Emit) (s : State) : (emitAll es s).fault = s.fault := rfl
@[simp] theorem emitAll_pmu (es : List Emit) (s : State) : (emitAll es s).pmu = s.pmu := rfl
@[simp] theorem emitAll_slot (es : List Emit) (s : State) : (emitAll es s).slot = s.slot := rfl
@[simp] theorem emitAll_sealu (es : List Emit) (s : State) : (emitAll es s).sealu = s.sealu := rfl
@[simp] theorem emitAll_boot (es : List Emit) (s : State) : (emitAll es s).boot = s.boot := rfl
@[simp] theorem emitAll_free (es : List Emit) (s : State) : (emitAll es s).free = s.free := rfl
@[simp] theorem emitAll_pending (es : List Emit) (s : State) : (emitAll es s).pending = s.pending := rfl

/-! ## tookFree -/

@[simp] theorem tookFree_tele (s : State) : (tookFree s).tele = s.tele := rfl
@[simp] theorem tookFree_aon (s : State) : (tookFree s).aon = s.aon := rfl
@[simp] theorem tookFree_plan (s : State) : (tookFree s).plan = s.plan := rfl
@[simp] theorem tookFree_bind (s : State) : (tookFree s).bind = s.bind := rfl
@[simp] theorem tookFree_mig (s : State) : (tookFree s).mig = s.mig := rfl
@[simp] theorem tookFree_xbar (s : State) : (tookFree s).xbar = s.xbar := rfl
@[simp] theorem tookFree_proxy (s : State) : (tookFree s).proxy = s.proxy := rfl
@[simp] theorem tookFree_scribe (s : State) : (tookFree s).scribe = s.scribe := rfl
@[simp] theorem tookFree_traffic (s : State) : (tookFree s).traffic = s.traffic := rfl
@[simp] theorem tookFree_prot (s : State) : (tookFree s).prot = s.prot := rfl
@[simp] theorem tookFree_ports (s : State) : (tookFree s).ports = s.ports := rfl
@[simp] theorem tookFree_wefts (s : State) : (tookFree s).wefts = s.wefts := rfl
@[simp] theorem tookFree_lane (s : State) : (tookFree s).lane = s.lane := rfl
@[simp] theorem tookFree_mgmt (s : State) : (tookFree s).mgmt = s.mgmt := rfl
@[simp] theorem tookFree_mem (s : State) : (tookFree s).mem = s.mem := rfl
@[simp] theorem tookFree_fault (s : State) : (tookFree s).fault = s.fault := rfl
@[simp] theorem tookFree_pmu (s : State) : (tookFree s).pmu = s.pmu := rfl
@[simp] theorem tookFree_slot (s : State) : (tookFree s).slot = s.slot := rfl
@[simp] theorem tookFree_sealu (s : State) : (tookFree s).sealu = s.sealu := rfl
@[simp] theorem tookFree_boot (s : State) : (tookFree s).boot = s.boot := rfl
@[simp] theorem tookFree_emits (s : State) : (tookFree s).emits = s.emits := rfl
@[simp] theorem tookFree_pending (s : State) : (tookFree s).pending = s.pending := rfl

/-! ## setCtx -/

@[simp] theorem setCtx_tele (b : Nat) (c : BitVec 512) (s : State) : (setCtx b c s).tele = s.tele := rfl
@[simp] theorem setCtx_aon (b : Nat) (c : BitVec 512) (s : State) : (setCtx b c s).aon = s.aon := rfl
@[simp] theorem setCtx_bind (b : Nat) (c : BitVec 512) (s : State) : (setCtx b c s).bind = s.bind := rfl
@[simp] theorem setCtx_mig (b : Nat) (c : BitVec 512) (s : State) : (setCtx b c s).mig = s.mig := rfl
@[simp] theorem setCtx_xbar (b : Nat) (c : BitVec 512) (s : State) : (setCtx b c s).xbar = s.xbar := rfl
@[simp] theorem setCtx_proxy (b : Nat) (c : BitVec 512) (s : State) : (setCtx b c s).proxy = s.proxy := rfl
@[simp] theorem setCtx_scribe (b : Nat) (c : BitVec 512) (s : State) : (setCtx b c s).scribe = s.scribe := rfl
@[simp] theorem setCtx_traffic (b : Nat) (c : BitVec 512) (s : State) : (setCtx b c s).traffic = s.traffic := rfl
@[simp] theorem setCtx_prot (b : Nat) (c : BitVec 512) (s : State) : (setCtx b c s).prot = s.prot := rfl
@[simp] theorem setCtx_ports (b : Nat) (c : BitVec 512) (s : State) : (setCtx b c s).ports = s.ports := rfl
@[simp] theorem setCtx_wefts (b : Nat) (c : BitVec 512) (s : State) : (setCtx b c s).wefts = s.wefts := rfl
@[simp] theorem setCtx_lane (b : Nat) (c : BitVec 512) (s : State) : (setCtx b c s).lane = s.lane := rfl
@[simp] theorem setCtx_mgmt (b : Nat) (c : BitVec 512) (s : State) : (setCtx b c s).mgmt = s.mgmt := rfl
@[simp] theorem setCtx_mem (b : Nat) (c : BitVec 512) (s : State) : (setCtx b c s).mem = s.mem := rfl
@[simp] theorem setCtx_fault (b : Nat) (c : BitVec 512) (s : State) : (setCtx b c s).fault = s.fault := rfl
@[simp] theorem setCtx_pmu (b : Nat) (c : BitVec 512) (s : State) : (setCtx b c s).pmu = s.pmu := rfl
@[simp] theorem setCtx_slot (b : Nat) (c : BitVec 512) (s : State) : (setCtx b c s).slot = s.slot := rfl
@[simp] theorem setCtx_sealu (b : Nat) (c : BitVec 512) (s : State) : (setCtx b c s).sealu = s.sealu := rfl
@[simp] theorem setCtx_boot (b : Nat) (c : BitVec 512) (s : State) : (setCtx b c s).boot = s.boot := rfl
@[simp] theorem setCtx_emits (b : Nat) (c : BitVec 512) (s : State) : (setCtx b c s).emits = s.emits := rfl
@[simp] theorem setCtx_free (b : Nat) (c : BitVec 512) (s : State) : (setCtx b c s).free = s.free := rfl
@[simp] theorem setCtx_pending (b : Nat) (c : BitVec 512) (s : State) : (setCtx b c s).pending = s.pending := rfl

/-! ## setBstate -/

@[simp] theorem setBstate_tele (b v : Nat) (s : State) : (setBstate b v s).tele = s.tele := rfl
@[simp] theorem setBstate_aon (b v : Nat) (s : State) : (setBstate b v s).aon = s.aon := rfl
@[simp] theorem setBstate_bind (b v : Nat) (s : State) : (setBstate b v s).bind = s.bind := rfl
@[simp] theorem setBstate_mig (b v : Nat) (s : State) : (setBstate b v s).mig = s.mig := rfl
@[simp] theorem setBstate_xbar (b v : Nat) (s : State) : (setBstate b v s).xbar = s.xbar := rfl
@[simp] theorem setBstate_proxy (b v : Nat) (s : State) : (setBstate b v s).proxy = s.proxy := rfl
@[simp] theorem setBstate_scribe (b v : Nat) (s : State) : (setBstate b v s).scribe = s.scribe := rfl
@[simp] theorem setBstate_traffic (b v : Nat) (s : State) : (setBstate b v s).traffic = s.traffic := rfl
@[simp] theorem setBstate_prot (b v : Nat) (s : State) : (setBstate b v s).prot = s.prot := rfl
@[simp] theorem setBstate_ports (b v : Nat) (s : State) : (setBstate b v s).ports = s.ports := rfl
@[simp] theorem setBstate_wefts (b v : Nat) (s : State) : (setBstate b v s).wefts = s.wefts := rfl
@[simp] theorem setBstate_lane (b v : Nat) (s : State) : (setBstate b v s).lane = s.lane := rfl
@[simp] theorem setBstate_mgmt (b v : Nat) (s : State) : (setBstate b v s).mgmt = s.mgmt := rfl
@[simp] theorem setBstate_mem (b v : Nat) (s : State) : (setBstate b v s).mem = s.mem := rfl
@[simp] theorem setBstate_fault (b v : Nat) (s : State) : (setBstate b v s).fault = s.fault := rfl
@[simp] theorem setBstate_pmu (b v : Nat) (s : State) : (setBstate b v s).pmu = s.pmu := rfl
@[simp] theorem setBstate_slot (b v : Nat) (s : State) : (setBstate b v s).slot = s.slot := rfl
@[simp] theorem setBstate_sealu (b v : Nat) (s : State) : (setBstate b v s).sealu = s.sealu := rfl
@[simp] theorem setBstate_boot (b v : Nat) (s : State) : (setBstate b v s).boot = s.boot := rfl
@[simp] theorem setBstate_emits (b v : Nat) (s : State) : (setBstate b v s).emits = s.emits := rfl
@[simp] theorem setBstate_free (b v : Nat) (s : State) : (setBstate b v s).free = s.free := rfl
@[simp] theorem setBstate_pending (b v : Nat) (s : State) : (setBstate b v s).pending = s.pending := rfl

/-! ## setBrun -/

@[simp] theorem setBrun_tele (b : Nat) (r : BindingRun) (s : State) : (setBrun b r s).tele = s.tele := rfl
@[simp] theorem setBrun_aon (b : Nat) (r : BindingRun) (s : State) : (setBrun b r s).aon = s.aon := rfl
@[simp] theorem setBrun_plan (b : Nat) (r : BindingRun) (s : State) : (setBrun b r s).plan = s.plan := rfl
@[simp] theorem setBrun_mig (b : Nat) (r : BindingRun) (s : State) : (setBrun b r s).mig = s.mig := rfl
@[simp] theorem setBrun_xbar (b : Nat) (r : BindingRun) (s : State) : (setBrun b r s).xbar = s.xbar := rfl
@[simp] theorem setBrun_proxy (b : Nat) (r : BindingRun) (s : State) : (setBrun b r s).proxy = s.proxy := rfl
@[simp] theorem setBrun_scribe (b : Nat) (r : BindingRun) (s : State) : (setBrun b r s).scribe = s.scribe := rfl
@[simp] theorem setBrun_traffic (b : Nat) (r : BindingRun) (s : State) : (setBrun b r s).traffic = s.traffic := rfl
@[simp] theorem setBrun_prot (b : Nat) (r : BindingRun) (s : State) : (setBrun b r s).prot = s.prot := rfl
@[simp] theorem setBrun_ports (b : Nat) (r : BindingRun) (s : State) : (setBrun b r s).ports = s.ports := rfl
@[simp] theorem setBrun_wefts (b : Nat) (r : BindingRun) (s : State) : (setBrun b r s).wefts = s.wefts := rfl
@[simp] theorem setBrun_lane (b : Nat) (r : BindingRun) (s : State) : (setBrun b r s).lane = s.lane := rfl
@[simp] theorem setBrun_mgmt (b : Nat) (r : BindingRun) (s : State) : (setBrun b r s).mgmt = s.mgmt := rfl
@[simp] theorem setBrun_mem (b : Nat) (r : BindingRun) (s : State) : (setBrun b r s).mem = s.mem := rfl
@[simp] theorem setBrun_fault (b : Nat) (r : BindingRun) (s : State) : (setBrun b r s).fault = s.fault := rfl
@[simp] theorem setBrun_pmu (b : Nat) (r : BindingRun) (s : State) : (setBrun b r s).pmu = s.pmu := rfl
@[simp] theorem setBrun_slot (b : Nat) (r : BindingRun) (s : State) : (setBrun b r s).slot = s.slot := rfl
@[simp] theorem setBrun_sealu (b : Nat) (r : BindingRun) (s : State) : (setBrun b r s).sealu = s.sealu := rfl
@[simp] theorem setBrun_boot (b : Nat) (r : BindingRun) (s : State) : (setBrun b r s).boot = s.boot := rfl
@[simp] theorem setBrun_emits (b : Nat) (r : BindingRun) (s : State) : (setBrun b r s).emits = s.emits := rfl
@[simp] theorem setBrun_free (b : Nat) (r : BindingRun) (s : State) : (setBrun b r s).free = s.free := rfl
@[simp] theorem setBrun_pending (b : Nat) (r : BindingRun) (s : State) : (setBrun b r s).pending = s.pending := rfl

/-! ## setMig -/

@[simp] theorem setMig_tele (k : Nat) (m : MigSlot) (s : State) : (setMig k m s).tele = s.tele := rfl
@[simp] theorem setMig_aon (k : Nat) (m : MigSlot) (s : State) : (setMig k m s).aon = s.aon := rfl
@[simp] theorem setMig_plan (k : Nat) (m : MigSlot) (s : State) : (setMig k m s).plan = s.plan := rfl
@[simp] theorem setMig_bind (k : Nat) (m : MigSlot) (s : State) : (setMig k m s).bind = s.bind := rfl
@[simp] theorem setMig_xbar (k : Nat) (m : MigSlot) (s : State) : (setMig k m s).xbar = s.xbar := rfl
@[simp] theorem setMig_proxy (k : Nat) (m : MigSlot) (s : State) : (setMig k m s).proxy = s.proxy := rfl
@[simp] theorem setMig_scribe (k : Nat) (m : MigSlot) (s : State) : (setMig k m s).scribe = s.scribe := rfl
@[simp] theorem setMig_traffic (k : Nat) (m : MigSlot) (s : State) : (setMig k m s).traffic = s.traffic := rfl
@[simp] theorem setMig_prot (k : Nat) (m : MigSlot) (s : State) : (setMig k m s).prot = s.prot := rfl
@[simp] theorem setMig_ports (k : Nat) (m : MigSlot) (s : State) : (setMig k m s).ports = s.ports := rfl
@[simp] theorem setMig_wefts (k : Nat) (m : MigSlot) (s : State) : (setMig k m s).wefts = s.wefts := rfl
@[simp] theorem setMig_lane (k : Nat) (m : MigSlot) (s : State) : (setMig k m s).lane = s.lane := rfl
@[simp] theorem setMig_mgmt (k : Nat) (m : MigSlot) (s : State) : (setMig k m s).mgmt = s.mgmt := rfl
@[simp] theorem setMig_mem (k : Nat) (m : MigSlot) (s : State) : (setMig k m s).mem = s.mem := rfl
@[simp] theorem setMig_fault (k : Nat) (m : MigSlot) (s : State) : (setMig k m s).fault = s.fault := rfl
@[simp] theorem setMig_pmu (k : Nat) (m : MigSlot) (s : State) : (setMig k m s).pmu = s.pmu := rfl
@[simp] theorem setMig_slot (k : Nat) (m : MigSlot) (s : State) : (setMig k m s).slot = s.slot := rfl
@[simp] theorem setMig_sealu (k : Nat) (m : MigSlot) (s : State) : (setMig k m s).sealu = s.sealu := rfl
@[simp] theorem setMig_boot (k : Nat) (m : MigSlot) (s : State) : (setMig k m s).boot = s.boot := rfl
@[simp] theorem setMig_emits (k : Nat) (m : MigSlot) (s : State) : (setMig k m s).emits = s.emits := rfl
@[simp] theorem setMig_free (k : Nat) (m : MigSlot) (s : State) : (setMig k m s).free = s.free := rfl
@[simp] theorem setMig_pending (k : Nat) (m : MigSlot) (s : State) : (setMig k m s).pending = s.pending := rfl

/-! ## setPort -/

@[simp] theorem setPort_tele (u : Nat) (p : Port) (s : State) : (setPort u p s).tele = s.tele := rfl
@[simp] theorem setPort_aon (u : Nat) (p : Port) (s : State) : (setPort u p s).aon = s.aon := rfl
@[simp] theorem setPort_plan (u : Nat) (p : Port) (s : State) : (setPort u p s).plan = s.plan := rfl
@[simp] theorem setPort_bind (u : Nat) (p : Port) (s : State) : (setPort u p s).bind = s.bind := rfl
@[simp] theorem setPort_mig (u : Nat) (p : Port) (s : State) : (setPort u p s).mig = s.mig := rfl
@[simp] theorem setPort_xbar (u : Nat) (p : Port) (s : State) : (setPort u p s).xbar = s.xbar := rfl
@[simp] theorem setPort_proxy (u : Nat) (p : Port) (s : State) : (setPort u p s).proxy = s.proxy := rfl
@[simp] theorem setPort_scribe (u : Nat) (p : Port) (s : State) : (setPort u p s).scribe = s.scribe := rfl
@[simp] theorem setPort_traffic (u : Nat) (p : Port) (s : State) : (setPort u p s).traffic = s.traffic := rfl
@[simp] theorem setPort_prot (u : Nat) (p : Port) (s : State) : (setPort u p s).prot = s.prot := rfl
@[simp] theorem setPort_wefts (u : Nat) (p : Port) (s : State) : (setPort u p s).wefts = s.wefts := rfl
@[simp] theorem setPort_lane (u : Nat) (p : Port) (s : State) : (setPort u p s).lane = s.lane := rfl
@[simp] theorem setPort_mgmt (u : Nat) (p : Port) (s : State) : (setPort u p s).mgmt = s.mgmt := rfl
@[simp] theorem setPort_mem (u : Nat) (p : Port) (s : State) : (setPort u p s).mem = s.mem := rfl
@[simp] theorem setPort_fault (u : Nat) (p : Port) (s : State) : (setPort u p s).fault = s.fault := rfl
@[simp] theorem setPort_pmu (u : Nat) (p : Port) (s : State) : (setPort u p s).pmu = s.pmu := rfl
@[simp] theorem setPort_slot (u : Nat) (p : Port) (s : State) : (setPort u p s).slot = s.slot := rfl
@[simp] theorem setPort_sealu (u : Nat) (p : Port) (s : State) : (setPort u p s).sealu = s.sealu := rfl
@[simp] theorem setPort_boot (u : Nat) (p : Port) (s : State) : (setPort u p s).boot = s.boot := rfl
@[simp] theorem setPort_emits (u : Nat) (p : Port) (s : State) : (setPort u p s).emits = s.emits := rfl
@[simp] theorem setPort_free (u : Nat) (p : Port) (s : State) : (setPort u p s).free = s.free := rfl
@[simp] theorem setPort_pending (u : Nat) (p : Port) (s : State) : (setPort u p s).pending = s.pending := rfl

/-! ## setWeft -/

@[simp] theorem setWeft_tele (n : Nat) (w : Weft) (s : State) : (setWeft n w s).tele = s.tele := rfl
@[simp] theorem setWeft_aon (n : Nat) (w : Weft) (s : State) : (setWeft n w s).aon = s.aon := rfl
@[simp] theorem setWeft_plan (n : Nat) (w : Weft) (s : State) : (setWeft n w s).plan = s.plan := rfl
@[simp] theorem setWeft_bind (n : Nat) (w : Weft) (s : State) : (setWeft n w s).bind = s.bind := rfl
@[simp] theorem setWeft_mig (n : Nat) (w : Weft) (s : State) : (setWeft n w s).mig = s.mig := rfl
@[simp] theorem setWeft_xbar (n : Nat) (w : Weft) (s : State) : (setWeft n w s).xbar = s.xbar := rfl
@[simp] theorem setWeft_proxy (n : Nat) (w : Weft) (s : State) : (setWeft n w s).proxy = s.proxy := rfl
@[simp] theorem setWeft_scribe (n : Nat) (w : Weft) (s : State) : (setWeft n w s).scribe = s.scribe := rfl
@[simp] theorem setWeft_traffic (n : Nat) (w : Weft) (s : State) : (setWeft n w s).traffic = s.traffic := rfl
@[simp] theorem setWeft_prot (n : Nat) (w : Weft) (s : State) : (setWeft n w s).prot = s.prot := rfl
@[simp] theorem setWeft_ports (n : Nat) (w : Weft) (s : State) : (setWeft n w s).ports = s.ports := rfl
@[simp] theorem setWeft_lane (n : Nat) (w : Weft) (s : State) : (setWeft n w s).lane = s.lane := rfl
@[simp] theorem setWeft_mgmt (n : Nat) (w : Weft) (s : State) : (setWeft n w s).mgmt = s.mgmt := rfl
@[simp] theorem setWeft_mem (n : Nat) (w : Weft) (s : State) : (setWeft n w s).mem = s.mem := rfl
@[simp] theorem setWeft_fault (n : Nat) (w : Weft) (s : State) : (setWeft n w s).fault = s.fault := rfl
@[simp] theorem setWeft_pmu (n : Nat) (w : Weft) (s : State) : (setWeft n w s).pmu = s.pmu := rfl
@[simp] theorem setWeft_slot (n : Nat) (w : Weft) (s : State) : (setWeft n w s).slot = s.slot := rfl
@[simp] theorem setWeft_sealu (n : Nat) (w : Weft) (s : State) : (setWeft n w s).sealu = s.sealu := rfl
@[simp] theorem setWeft_boot (n : Nat) (w : Weft) (s : State) : (setWeft n w s).boot = s.boot := rfl
@[simp] theorem setWeft_emits (n : Nat) (w : Weft) (s : State) : (setWeft n w s).emits = s.emits := rfl
@[simp] theorem setWeft_free (n : Nat) (w : Weft) (s : State) : (setWeft n w s).free = s.free := rfl
@[simp] theorem setWeft_pending (n : Nat) (w : Weft) (s : State) : (setWeft n w s).pending = s.pending := rfl

/-! ## setOutput -/

@[simp] theorem setOutput_tele (x : Nat) (o : Output) (s : State) : (setOutput x o s).tele = s.tele := rfl
@[simp] theorem setOutput_aon (x : Nat) (o : Output) (s : State) : (setOutput x o s).aon = s.aon := rfl
@[simp] theorem setOutput_plan (x : Nat) (o : Output) (s : State) : (setOutput x o s).plan = s.plan := rfl
@[simp] theorem setOutput_bind (x : Nat) (o : Output) (s : State) : (setOutput x o s).bind = s.bind := rfl
@[simp] theorem setOutput_mig (x : Nat) (o : Output) (s : State) : (setOutput x o s).mig = s.mig := rfl
@[simp] theorem setOutput_proxy (x : Nat) (o : Output) (s : State) : (setOutput x o s).proxy = s.proxy := rfl
@[simp] theorem setOutput_scribe (x : Nat) (o : Output) (s : State) : (setOutput x o s).scribe = s.scribe := rfl
@[simp] theorem setOutput_traffic (x : Nat) (o : Output) (s : State) : (setOutput x o s).traffic = s.traffic := rfl
@[simp] theorem setOutput_prot (x : Nat) (o : Output) (s : State) : (setOutput x o s).prot = s.prot := rfl
@[simp] theorem setOutput_ports (x : Nat) (o : Output) (s : State) : (setOutput x o s).ports = s.ports := rfl
@[simp] theorem setOutput_wefts (x : Nat) (o : Output) (s : State) : (setOutput x o s).wefts = s.wefts := rfl
@[simp] theorem setOutput_lane (x : Nat) (o : Output) (s : State) : (setOutput x o s).lane = s.lane := rfl
@[simp] theorem setOutput_mgmt (x : Nat) (o : Output) (s : State) : (setOutput x o s).mgmt = s.mgmt := rfl
@[simp] theorem setOutput_mem (x : Nat) (o : Output) (s : State) : (setOutput x o s).mem = s.mem := rfl
@[simp] theorem setOutput_fault (x : Nat) (o : Output) (s : State) : (setOutput x o s).fault = s.fault := rfl
@[simp] theorem setOutput_pmu (x : Nat) (o : Output) (s : State) : (setOutput x o s).pmu = s.pmu := rfl
@[simp] theorem setOutput_slot (x : Nat) (o : Output) (s : State) : (setOutput x o s).slot = s.slot := rfl
@[simp] theorem setOutput_sealu (x : Nat) (o : Output) (s : State) : (setOutput x o s).sealu = s.sealu := rfl
@[simp] theorem setOutput_boot (x : Nat) (o : Output) (s : State) : (setOutput x o s).boot = s.boot := rfl
@[simp] theorem setOutput_emits (x : Nat) (o : Output) (s : State) : (setOutput x o s).emits = s.emits := rfl
@[simp] theorem setOutput_free (x : Nat) (o : Output) (s : State) : (setOutput x o s).free = s.free := rfl
@[simp] theorem setOutput_pending (x : Nat) (o : Output) (s : State) : (setOutput x o s).pending = s.pending := rfl

/-! ## setKey -/

@[simp] theorem setKey_tele (k : Nat) (q : BufKey) (s : State) : (setKey k q s).tele = s.tele := rfl
@[simp] theorem setKey_aon (k : Nat) (q : BufKey) (s : State) : (setKey k q s).aon = s.aon := rfl
@[simp] theorem setKey_plan (k : Nat) (q : BufKey) (s : State) : (setKey k q s).plan = s.plan := rfl
@[simp] theorem setKey_bind (k : Nat) (q : BufKey) (s : State) : (setKey k q s).bind = s.bind := rfl
@[simp] theorem setKey_mig (k : Nat) (q : BufKey) (s : State) : (setKey k q s).mig = s.mig := rfl
@[simp] theorem setKey_proxy (k : Nat) (q : BufKey) (s : State) : (setKey k q s).proxy = s.proxy := rfl
@[simp] theorem setKey_scribe (k : Nat) (q : BufKey) (s : State) : (setKey k q s).scribe = s.scribe := rfl
@[simp] theorem setKey_traffic (k : Nat) (q : BufKey) (s : State) : (setKey k q s).traffic = s.traffic := rfl
@[simp] theorem setKey_prot (k : Nat) (q : BufKey) (s : State) : (setKey k q s).prot = s.prot := rfl
@[simp] theorem setKey_ports (k : Nat) (q : BufKey) (s : State) : (setKey k q s).ports = s.ports := rfl
@[simp] theorem setKey_wefts (k : Nat) (q : BufKey) (s : State) : (setKey k q s).wefts = s.wefts := rfl
@[simp] theorem setKey_lane (k : Nat) (q : BufKey) (s : State) : (setKey k q s).lane = s.lane := rfl
@[simp] theorem setKey_mgmt (k : Nat) (q : BufKey) (s : State) : (setKey k q s).mgmt = s.mgmt := rfl
@[simp] theorem setKey_mem (k : Nat) (q : BufKey) (s : State) : (setKey k q s).mem = s.mem := rfl
@[simp] theorem setKey_fault (k : Nat) (q : BufKey) (s : State) : (setKey k q s).fault = s.fault := rfl
@[simp] theorem setKey_pmu (k : Nat) (q : BufKey) (s : State) : (setKey k q s).pmu = s.pmu := rfl
@[simp] theorem setKey_slot (k : Nat) (q : BufKey) (s : State) : (setKey k q s).slot = s.slot := rfl
@[simp] theorem setKey_sealu (k : Nat) (q : BufKey) (s : State) : (setKey k q s).sealu = s.sealu := rfl
@[simp] theorem setKey_boot (k : Nat) (q : BufKey) (s : State) : (setKey k q s).boot = s.boot := rfl
@[simp] theorem setKey_emits (k : Nat) (q : BufKey) (s : State) : (setKey k q s).emits = s.emits := rfl
@[simp] theorem setKey_free (k : Nat) (q : BufKey) (s : State) : (setKey k q s).free = s.free := rfl
@[simp] theorem setKey_pending (k : Nat) (q : BufKey) (s : State) : (setKey k q s).pending = s.pending := rfl

/-! ## setVoq -/

@[simp] theorem setVoq_tele (k : Nat) (q : Voq) (s : State) : (setVoq k q s).tele = s.tele := rfl
@[simp] theorem setVoq_aon (k : Nat) (q : Voq) (s : State) : (setVoq k q s).aon = s.aon := rfl
@[simp] theorem setVoq_plan (k : Nat) (q : Voq) (s : State) : (setVoq k q s).plan = s.plan := rfl
@[simp] theorem setVoq_bind (k : Nat) (q : Voq) (s : State) : (setVoq k q s).bind = s.bind := rfl
@[simp] theorem setVoq_mig (k : Nat) (q : Voq) (s : State) : (setVoq k q s).mig = s.mig := rfl
@[simp] theorem setVoq_proxy (k : Nat) (q : Voq) (s : State) : (setVoq k q s).proxy = s.proxy := rfl
@[simp] theorem setVoq_scribe (k : Nat) (q : Voq) (s : State) : (setVoq k q s).scribe = s.scribe := rfl
@[simp] theorem setVoq_traffic (k : Nat) (q : Voq) (s : State) : (setVoq k q s).traffic = s.traffic := rfl
@[simp] theorem setVoq_prot (k : Nat) (q : Voq) (s : State) : (setVoq k q s).prot = s.prot := rfl
@[simp] theorem setVoq_ports (k : Nat) (q : Voq) (s : State) : (setVoq k q s).ports = s.ports := rfl
@[simp] theorem setVoq_wefts (k : Nat) (q : Voq) (s : State) : (setVoq k q s).wefts = s.wefts := rfl
@[simp] theorem setVoq_lane (k : Nat) (q : Voq) (s : State) : (setVoq k q s).lane = s.lane := rfl
@[simp] theorem setVoq_mgmt (k : Nat) (q : Voq) (s : State) : (setVoq k q s).mgmt = s.mgmt := rfl
@[simp] theorem setVoq_mem (k : Nat) (q : Voq) (s : State) : (setVoq k q s).mem = s.mem := rfl
@[simp] theorem setVoq_fault (k : Nat) (q : Voq) (s : State) : (setVoq k q s).fault = s.fault := rfl
@[simp] theorem setVoq_pmu (k : Nat) (q : Voq) (s : State) : (setVoq k q s).pmu = s.pmu := rfl
@[simp] theorem setVoq_slot (k : Nat) (q : Voq) (s : State) : (setVoq k q s).slot = s.slot := rfl
@[simp] theorem setVoq_sealu (k : Nat) (q : Voq) (s : State) : (setVoq k q s).sealu = s.sealu := rfl
@[simp] theorem setVoq_boot (k : Nat) (q : Voq) (s : State) : (setVoq k q s).boot = s.boot := rfl
@[simp] theorem setVoq_emits (k : Nat) (q : Voq) (s : State) : (setVoq k q s).emits = s.emits := rfl
@[simp] theorem setVoq_free (k : Nat) (q : Voq) (s : State) : (setVoq k q s).free = s.free := rfl
@[simp] theorem setVoq_pending (k : Nat) (q : Voq) (s : State) : (setVoq k q s).pending = s.pending := rfl

/-! ## setPair -/

@[simp] theorem setPair_tele (k : Nat) (q : Pair) (s : State) : (setPair k q s).tele = s.tele := rfl
@[simp] theorem setPair_aon (k : Nat) (q : Pair) (s : State) : (setPair k q s).aon = s.aon := rfl
@[simp] theorem setPair_plan (k : Nat) (q : Pair) (s : State) : (setPair k q s).plan = s.plan := rfl
@[simp] theorem setPair_bind (k : Nat) (q : Pair) (s : State) : (setPair k q s).bind = s.bind := rfl
@[simp] theorem setPair_mig (k : Nat) (q : Pair) (s : State) : (setPair k q s).mig = s.mig := rfl
@[simp] theorem setPair_proxy (k : Nat) (q : Pair) (s : State) : (setPair k q s).proxy = s.proxy := rfl
@[simp] theorem setPair_scribe (k : Nat) (q : Pair) (s : State) : (setPair k q s).scribe = s.scribe := rfl
@[simp] theorem setPair_traffic (k : Nat) (q : Pair) (s : State) : (setPair k q s).traffic = s.traffic := rfl
@[simp] theorem setPair_prot (k : Nat) (q : Pair) (s : State) : (setPair k q s).prot = s.prot := rfl
@[simp] theorem setPair_ports (k : Nat) (q : Pair) (s : State) : (setPair k q s).ports = s.ports := rfl
@[simp] theorem setPair_wefts (k : Nat) (q : Pair) (s : State) : (setPair k q s).wefts = s.wefts := rfl
@[simp] theorem setPair_lane (k : Nat) (q : Pair) (s : State) : (setPair k q s).lane = s.lane := rfl
@[simp] theorem setPair_mgmt (k : Nat) (q : Pair) (s : State) : (setPair k q s).mgmt = s.mgmt := rfl
@[simp] theorem setPair_mem (k : Nat) (q : Pair) (s : State) : (setPair k q s).mem = s.mem := rfl
@[simp] theorem setPair_fault (k : Nat) (q : Pair) (s : State) : (setPair k q s).fault = s.fault := rfl
@[simp] theorem setPair_pmu (k : Nat) (q : Pair) (s : State) : (setPair k q s).pmu = s.pmu := rfl
@[simp] theorem setPair_slot (k : Nat) (q : Pair) (s : State) : (setPair k q s).slot = s.slot := rfl
@[simp] theorem setPair_sealu (k : Nat) (q : Pair) (s : State) : (setPair k q s).sealu = s.sealu := rfl
@[simp] theorem setPair_boot (k : Nat) (q : Pair) (s : State) : (setPair k q s).boot = s.boot := rfl
@[simp] theorem setPair_emits (k : Nat) (q : Pair) (s : State) : (setPair k q s).emits = s.emits := rfl
@[simp] theorem setPair_free (k : Nat) (q : Pair) (s : State) : (setPair k q s).free = s.free := rfl
@[simp] theorem setPair_pending (k : Nat) (q : Pair) (s : State) : (setPair k q s).pending = s.pending := rfl

/-! ## setPlane -/

@[simp] theorem setPlane_tele (n : Nat) (p : Plane) (s : State) : (setPlane n p s).tele = s.tele := rfl
@[simp] theorem setPlane_aon (n : Nat) (p : Plane) (s : State) : (setPlane n p s).aon = s.aon := rfl
@[simp] theorem setPlane_plan (n : Nat) (p : Plane) (s : State) : (setPlane n p s).plan = s.plan := rfl
@[simp] theorem setPlane_bind (n : Nat) (p : Plane) (s : State) : (setPlane n p s).bind = s.bind := rfl
@[simp] theorem setPlane_mig (n : Nat) (p : Plane) (s : State) : (setPlane n p s).mig = s.mig := rfl
@[simp] theorem setPlane_proxy (n : Nat) (p : Plane) (s : State) : (setPlane n p s).proxy = s.proxy := rfl
@[simp] theorem setPlane_scribe (n : Nat) (p : Plane) (s : State) : (setPlane n p s).scribe = s.scribe := rfl
@[simp] theorem setPlane_traffic (n : Nat) (p : Plane) (s : State) : (setPlane n p s).traffic = s.traffic := rfl
@[simp] theorem setPlane_prot (n : Nat) (p : Plane) (s : State) : (setPlane n p s).prot = s.prot := rfl
@[simp] theorem setPlane_ports (n : Nat) (p : Plane) (s : State) : (setPlane n p s).ports = s.ports := rfl
@[simp] theorem setPlane_wefts (n : Nat) (p : Plane) (s : State) : (setPlane n p s).wefts = s.wefts := rfl
@[simp] theorem setPlane_lane (n : Nat) (p : Plane) (s : State) : (setPlane n p s).lane = s.lane := rfl
@[simp] theorem setPlane_mgmt (n : Nat) (p : Plane) (s : State) : (setPlane n p s).mgmt = s.mgmt := rfl
@[simp] theorem setPlane_mem (n : Nat) (p : Plane) (s : State) : (setPlane n p s).mem = s.mem := rfl
@[simp] theorem setPlane_fault (n : Nat) (p : Plane) (s : State) : (setPlane n p s).fault = s.fault := rfl
@[simp] theorem setPlane_pmu (n : Nat) (p : Plane) (s : State) : (setPlane n p s).pmu = s.pmu := rfl
@[simp] theorem setPlane_slot (n : Nat) (p : Plane) (s : State) : (setPlane n p s).slot = s.slot := rfl
@[simp] theorem setPlane_sealu (n : Nat) (p : Plane) (s : State) : (setPlane n p s).sealu = s.sealu := rfl
@[simp] theorem setPlane_boot (n : Nat) (p : Plane) (s : State) : (setPlane n p s).boot = s.boot := rfl
@[simp] theorem setPlane_emits (n : Nat) (p : Plane) (s : State) : (setPlane n p s).emits = s.emits := rfl
@[simp] theorem setPlane_free (n : Nat) (p : Plane) (s : State) : (setPlane n p s).free = s.free := rfl
@[simp] theorem setPlane_pending (n : Nat) (p : Plane) (s : State) : (setPlane n p s).pending = s.pending := rfl

/-! ## setMeter -/

@[simp] theorem setMeter_tele (b : Nat) (m : Meter) (s : State) : (setMeter b m s).tele = s.tele := rfl
@[simp] theorem setMeter_aon (b : Nat) (m : Meter) (s : State) : (setMeter b m s).aon = s.aon := rfl
@[simp] theorem setMeter_plan (b : Nat) (m : Meter) (s : State) : (setMeter b m s).plan = s.plan := rfl
@[simp] theorem setMeter_bind (b : Nat) (m : Meter) (s : State) : (setMeter b m s).bind = s.bind := rfl
@[simp] theorem setMeter_mig (b : Nat) (m : Meter) (s : State) : (setMeter b m s).mig = s.mig := rfl
@[simp] theorem setMeter_xbar (b : Nat) (m : Meter) (s : State) : (setMeter b m s).xbar = s.xbar := rfl
@[simp] theorem setMeter_proxy (b : Nat) (m : Meter) (s : State) : (setMeter b m s).proxy = s.proxy := rfl
@[simp] theorem setMeter_scribe (b : Nat) (m : Meter) (s : State) : (setMeter b m s).scribe = s.scribe := rfl
@[simp] theorem setMeter_prot (b : Nat) (m : Meter) (s : State) : (setMeter b m s).prot = s.prot := rfl
@[simp] theorem setMeter_ports (b : Nat) (m : Meter) (s : State) : (setMeter b m s).ports = s.ports := rfl
@[simp] theorem setMeter_wefts (b : Nat) (m : Meter) (s : State) : (setMeter b m s).wefts = s.wefts := rfl
@[simp] theorem setMeter_lane (b : Nat) (m : Meter) (s : State) : (setMeter b m s).lane = s.lane := rfl
@[simp] theorem setMeter_mgmt (b : Nat) (m : Meter) (s : State) : (setMeter b m s).mgmt = s.mgmt := rfl
@[simp] theorem setMeter_mem (b : Nat) (m : Meter) (s : State) : (setMeter b m s).mem = s.mem := rfl
@[simp] theorem setMeter_fault (b : Nat) (m : Meter) (s : State) : (setMeter b m s).fault = s.fault := rfl
@[simp] theorem setMeter_pmu (b : Nat) (m : Meter) (s : State) : (setMeter b m s).pmu = s.pmu := rfl
@[simp] theorem setMeter_slot (b : Nat) (m : Meter) (s : State) : (setMeter b m s).slot = s.slot := rfl
@[simp] theorem setMeter_sealu (b : Nat) (m : Meter) (s : State) : (setMeter b m s).sealu = s.sealu := rfl
@[simp] theorem setMeter_boot (b : Nat) (m : Meter) (s : State) : (setMeter b m s).boot = s.boot := rfl
@[simp] theorem setMeter_emits (b : Nat) (m : Meter) (s : State) : (setMeter b m s).emits = s.emits := rfl
@[simp] theorem setMeter_free (b : Nat) (m : Meter) (s : State) : (setMeter b m s).free = s.free := rfl
@[simp] theorem setMeter_pending (b : Nat) (m : Meter) (s : State) : (setMeter b m s).pending = s.pending := rfl

/-! ## setPage -/

@[simp] theorem setPage_tele (i : Nat) (e : BitVec 256) (s : State) : (setPage i e s).tele = s.tele := rfl
@[simp] theorem setPage_aon (i : Nat) (e : BitVec 256) (s : State) : (setPage i e s).aon = s.aon := rfl
@[simp] theorem setPage_bind (i : Nat) (e : BitVec 256) (s : State) : (setPage i e s).bind = s.bind := rfl
@[simp] theorem setPage_mig (i : Nat) (e : BitVec 256) (s : State) : (setPage i e s).mig = s.mig := rfl
@[simp] theorem setPage_xbar (i : Nat) (e : BitVec 256) (s : State) : (setPage i e s).xbar = s.xbar := rfl
@[simp] theorem setPage_proxy (i : Nat) (e : BitVec 256) (s : State) : (setPage i e s).proxy = s.proxy := rfl
@[simp] theorem setPage_scribe (i : Nat) (e : BitVec 256) (s : State) : (setPage i e s).scribe = s.scribe := rfl
@[simp] theorem setPage_traffic (i : Nat) (e : BitVec 256) (s : State) : (setPage i e s).traffic = s.traffic := rfl
@[simp] theorem setPage_prot (i : Nat) (e : BitVec 256) (s : State) : (setPage i e s).prot = s.prot := rfl
@[simp] theorem setPage_ports (i : Nat) (e : BitVec 256) (s : State) : (setPage i e s).ports = s.ports := rfl
@[simp] theorem setPage_wefts (i : Nat) (e : BitVec 256) (s : State) : (setPage i e s).wefts = s.wefts := rfl
@[simp] theorem setPage_lane (i : Nat) (e : BitVec 256) (s : State) : (setPage i e s).lane = s.lane := rfl
@[simp] theorem setPage_mgmt (i : Nat) (e : BitVec 256) (s : State) : (setPage i e s).mgmt = s.mgmt := rfl
@[simp] theorem setPage_mem (i : Nat) (e : BitVec 256) (s : State) : (setPage i e s).mem = s.mem := rfl
@[simp] theorem setPage_fault (i : Nat) (e : BitVec 256) (s : State) : (setPage i e s).fault = s.fault := rfl
@[simp] theorem setPage_pmu (i : Nat) (e : BitVec 256) (s : State) : (setPage i e s).pmu = s.pmu := rfl
@[simp] theorem setPage_slot (i : Nat) (e : BitVec 256) (s : State) : (setPage i e s).slot = s.slot := rfl
@[simp] theorem setPage_sealu (i : Nat) (e : BitVec 256) (s : State) : (setPage i e s).sealu = s.sealu := rfl
@[simp] theorem setPage_boot (i : Nat) (e : BitVec 256) (s : State) : (setPage i e s).boot = s.boot := rfl
@[simp] theorem setPage_emits (i : Nat) (e : BitVec 256) (s : State) : (setPage i e s).emits = s.emits := rfl
@[simp] theorem setPage_free (i : Nat) (e : BitVec 256) (s : State) : (setPage i e s).free = s.free := rfl
@[simp] theorem setPage_pending (i : Nat) (e : BitVec 256) (s : State) : (setPage i e s).pending = s.pending := rfl

/-! ## setBindCnt -/

@[simp] theorem setBindCnt_aon (b : Nat) (c : BindCnt) (s : State) : (setBindCnt b c s).aon = s.aon := rfl
@[simp] theorem setBindCnt_plan (b : Nat) (c : BindCnt) (s : State) : (setBindCnt b c s).plan = s.plan := rfl
@[simp] theorem setBindCnt_bind (b : Nat) (c : BindCnt) (s : State) : (setBindCnt b c s).bind = s.bind := rfl
@[simp] theorem setBindCnt_mig (b : Nat) (c : BindCnt) (s : State) : (setBindCnt b c s).mig = s.mig := rfl
@[simp] theorem setBindCnt_xbar (b : Nat) (c : BindCnt) (s : State) : (setBindCnt b c s).xbar = s.xbar := rfl
@[simp] theorem setBindCnt_proxy (b : Nat) (c : BindCnt) (s : State) : (setBindCnt b c s).proxy = s.proxy := rfl
@[simp] theorem setBindCnt_scribe (b : Nat) (c : BindCnt) (s : State) : (setBindCnt b c s).scribe = s.scribe := rfl
@[simp] theorem setBindCnt_traffic (b : Nat) (c : BindCnt) (s : State) : (setBindCnt b c s).traffic = s.traffic := rfl
@[simp] theorem setBindCnt_prot (b : Nat) (c : BindCnt) (s : State) : (setBindCnt b c s).prot = s.prot := rfl
@[simp] theorem setBindCnt_ports (b : Nat) (c : BindCnt) (s : State) : (setBindCnt b c s).ports = s.ports := rfl
@[simp] theorem setBindCnt_wefts (b : Nat) (c : BindCnt) (s : State) : (setBindCnt b c s).wefts = s.wefts := rfl
@[simp] theorem setBindCnt_lane (b : Nat) (c : BindCnt) (s : State) : (setBindCnt b c s).lane = s.lane := rfl
@[simp] theorem setBindCnt_mgmt (b : Nat) (c : BindCnt) (s : State) : (setBindCnt b c s).mgmt = s.mgmt := rfl
@[simp] theorem setBindCnt_mem (b : Nat) (c : BindCnt) (s : State) : (setBindCnt b c s).mem = s.mem := rfl
@[simp] theorem setBindCnt_fault (b : Nat) (c : BindCnt) (s : State) : (setBindCnt b c s).fault = s.fault := rfl
@[simp] theorem setBindCnt_pmu (b : Nat) (c : BindCnt) (s : State) : (setBindCnt b c s).pmu = s.pmu := rfl
@[simp] theorem setBindCnt_slot (b : Nat) (c : BindCnt) (s : State) : (setBindCnt b c s).slot = s.slot := rfl
@[simp] theorem setBindCnt_sealu (b : Nat) (c : BindCnt) (s : State) : (setBindCnt b c s).sealu = s.sealu := rfl
@[simp] theorem setBindCnt_boot (b : Nat) (c : BindCnt) (s : State) : (setBindCnt b c s).boot = s.boot := rfl
@[simp] theorem setBindCnt_emits (b : Nat) (c : BindCnt) (s : State) : (setBindCnt b c s).emits = s.emits := rfl
@[simp] theorem setBindCnt_free (b : Nat) (c : BindCnt) (s : State) : (setBindCnt b c s).free = s.free := rfl
@[simp] theorem setBindCnt_pending (b : Nat) (c : BindCnt) (s : State) : (setBindCnt b c s).pending = s.pending := rfl

/-! ## setDomain -/

@[simp] theorem setDomain_tele (d : Nat) (v : Domain) (s : State) : (setDomain d v s).tele = s.tele := rfl
@[simp] theorem setDomain_aon (d : Nat) (v : Domain) (s : State) : (setDomain d v s).aon = s.aon := rfl
@[simp] theorem setDomain_plan (d : Nat) (v : Domain) (s : State) : (setDomain d v s).plan = s.plan := rfl
@[simp] theorem setDomain_bind (d : Nat) (v : Domain) (s : State) : (setDomain d v s).bind = s.bind := rfl
@[simp] theorem setDomain_mig (d : Nat) (v : Domain) (s : State) : (setDomain d v s).mig = s.mig := rfl
@[simp] theorem setDomain_xbar (d : Nat) (v : Domain) (s : State) : (setDomain d v s).xbar = s.xbar := rfl
@[simp] theorem setDomain_proxy (d : Nat) (v : Domain) (s : State) : (setDomain d v s).proxy = s.proxy := rfl
@[simp] theorem setDomain_scribe (d : Nat) (v : Domain) (s : State) : (setDomain d v s).scribe = s.scribe := rfl
@[simp] theorem setDomain_traffic (d : Nat) (v : Domain) (s : State) : (setDomain d v s).traffic = s.traffic := rfl
@[simp] theorem setDomain_prot (d : Nat) (v : Domain) (s : State) : (setDomain d v s).prot = s.prot := rfl
@[simp] theorem setDomain_ports (d : Nat) (v : Domain) (s : State) : (setDomain d v s).ports = s.ports := rfl
@[simp] theorem setDomain_wefts (d : Nat) (v : Domain) (s : State) : (setDomain d v s).wefts = s.wefts := rfl
@[simp] theorem setDomain_lane (d : Nat) (v : Domain) (s : State) : (setDomain d v s).lane = s.lane := rfl
@[simp] theorem setDomain_mgmt (d : Nat) (v : Domain) (s : State) : (setDomain d v s).mgmt = s.mgmt := rfl
@[simp] theorem setDomain_mem (d : Nat) (v : Domain) (s : State) : (setDomain d v s).mem = s.mem := rfl
@[simp] theorem setDomain_fault (d : Nat) (v : Domain) (s : State) : (setDomain d v s).fault = s.fault := rfl
@[simp] theorem setDomain_slot (d : Nat) (v : Domain) (s : State) : (setDomain d v s).slot = s.slot := rfl
@[simp] theorem setDomain_sealu (d : Nat) (v : Domain) (s : State) : (setDomain d v s).sealu = s.sealu := rfl
@[simp] theorem setDomain_boot (d : Nat) (v : Domain) (s : State) : (setDomain d v s).boot = s.boot := rfl
@[simp] theorem setDomain_emits (d : Nat) (v : Domain) (s : State) : (setDomain d v s).emits = s.emits := rfl
@[simp] theorem setDomain_free (d : Nat) (v : Domain) (s : State) : (setDomain d v s).free = s.free := rfl
@[simp] theorem setDomain_pending (d : Nat) (v : Domain) (s : State) : (setDomain d v s).pending = s.pending := rfl

/-! ## setInst -/

@[simp] theorem setInst_tele (n : Nat) (i : Inst) (s : State) : (setInst n i s).tele = s.tele := rfl
@[simp] theorem setInst_aon (n : Nat) (i : Inst) (s : State) : (setInst n i s).aon = s.aon := rfl
@[simp] theorem setInst_plan (n : Nat) (i : Inst) (s : State) : (setInst n i s).plan = s.plan := rfl
@[simp] theorem setInst_bind (n : Nat) (i : Inst) (s : State) : (setInst n i s).bind = s.bind := rfl
@[simp] theorem setInst_mig (n : Nat) (i : Inst) (s : State) : (setInst n i s).mig = s.mig := rfl
@[simp] theorem setInst_xbar (n : Nat) (i : Inst) (s : State) : (setInst n i s).xbar = s.xbar := rfl
@[simp] theorem setInst_proxy (n : Nat) (i : Inst) (s : State) : (setInst n i s).proxy = s.proxy := rfl
@[simp] theorem setInst_traffic (n : Nat) (i : Inst) (s : State) : (setInst n i s).traffic = s.traffic := rfl
@[simp] theorem setInst_prot (n : Nat) (i : Inst) (s : State) : (setInst n i s).prot = s.prot := rfl
@[simp] theorem setInst_ports (n : Nat) (i : Inst) (s : State) : (setInst n i s).ports = s.ports := rfl
@[simp] theorem setInst_wefts (n : Nat) (i : Inst) (s : State) : (setInst n i s).wefts = s.wefts := rfl
@[simp] theorem setInst_lane (n : Nat) (i : Inst) (s : State) : (setInst n i s).lane = s.lane := rfl
@[simp] theorem setInst_mgmt (n : Nat) (i : Inst) (s : State) : (setInst n i s).mgmt = s.mgmt := rfl
@[simp] theorem setInst_mem (n : Nat) (i : Inst) (s : State) : (setInst n i s).mem = s.mem := rfl
@[simp] theorem setInst_fault (n : Nat) (i : Inst) (s : State) : (setInst n i s).fault = s.fault := rfl
@[simp] theorem setInst_pmu (n : Nat) (i : Inst) (s : State) : (setInst n i s).pmu = s.pmu := rfl
@[simp] theorem setInst_slot (n : Nat) (i : Inst) (s : State) : (setInst n i s).slot = s.slot := rfl
@[simp] theorem setInst_sealu (n : Nat) (i : Inst) (s : State) : (setInst n i s).sealu = s.sealu := rfl
@[simp] theorem setInst_boot (n : Nat) (i : Inst) (s : State) : (setInst n i s).boot = s.boot := rfl
@[simp] theorem setInst_emits (n : Nat) (i : Inst) (s : State) : (setInst n i s).emits = s.emits := rfl
@[simp] theorem setInst_free (n : Nat) (i : Inst) (s : State) : (setInst n i s).free = s.free := rfl
@[simp] theorem setInst_pending (n : Nat) (i : Inst) (s : State) : (setInst n i s).pending = s.pending := rfl

/-! ## setSlot -/

@[simp] theorem setSlot_tele (n : Nat) (c : Slot) (s : State) : (setSlot n c s).tele = s.tele := rfl
@[simp] theorem setSlot_aon (n : Nat) (c : Slot) (s : State) : (setSlot n c s).aon = s.aon := rfl
@[simp] theorem setSlot_plan (n : Nat) (c : Slot) (s : State) : (setSlot n c s).plan = s.plan := rfl
@[simp] theorem setSlot_bind (n : Nat) (c : Slot) (s : State) : (setSlot n c s).bind = s.bind := rfl
@[simp] theorem setSlot_mig (n : Nat) (c : Slot) (s : State) : (setSlot n c s).mig = s.mig := rfl
@[simp] theorem setSlot_xbar (n : Nat) (c : Slot) (s : State) : (setSlot n c s).xbar = s.xbar := rfl
@[simp] theorem setSlot_proxy (n : Nat) (c : Slot) (s : State) : (setSlot n c s).proxy = s.proxy := rfl
@[simp] theorem setSlot_scribe (n : Nat) (c : Slot) (s : State) : (setSlot n c s).scribe = s.scribe := rfl
@[simp] theorem setSlot_traffic (n : Nat) (c : Slot) (s : State) : (setSlot n c s).traffic = s.traffic := rfl
@[simp] theorem setSlot_prot (n : Nat) (c : Slot) (s : State) : (setSlot n c s).prot = s.prot := rfl
@[simp] theorem setSlot_ports (n : Nat) (c : Slot) (s : State) : (setSlot n c s).ports = s.ports := rfl
@[simp] theorem setSlot_wefts (n : Nat) (c : Slot) (s : State) : (setSlot n c s).wefts = s.wefts := rfl
@[simp] theorem setSlot_lane (n : Nat) (c : Slot) (s : State) : (setSlot n c s).lane = s.lane := rfl
@[simp] theorem setSlot_mgmt (n : Nat) (c : Slot) (s : State) : (setSlot n c s).mgmt = s.mgmt := rfl
@[simp] theorem setSlot_mem (n : Nat) (c : Slot) (s : State) : (setSlot n c s).mem = s.mem := rfl
@[simp] theorem setSlot_fault (n : Nat) (c : Slot) (s : State) : (setSlot n c s).fault = s.fault := rfl
@[simp] theorem setSlot_pmu (n : Nat) (c : Slot) (s : State) : (setSlot n c s).pmu = s.pmu := rfl
@[simp] theorem setSlot_sealu (n : Nat) (c : Slot) (s : State) : (setSlot n c s).sealu = s.sealu := rfl
@[simp] theorem setSlot_boot (n : Nat) (c : Slot) (s : State) : (setSlot n c s).boot = s.boot := rfl
@[simp] theorem setSlot_emits (n : Nat) (c : Slot) (s : State) : (setSlot n c s).emits = s.emits := rfl
@[simp] theorem setSlot_free (n : Nat) (c : Slot) (s : State) : (setSlot n c s).free = s.free := rfl
@[simp] theorem setSlot_pending (n : Nat) (c : Slot) (s : State) : (setSlot n c s).pending = s.pending := rfl

/-! ## setCset -/

@[simp] theorem setCset_aon (b : Nat) (c : CSet) (s : State) : (setCset b c s).aon = s.aon := rfl
@[simp] theorem setCset_plan (b : Nat) (c : CSet) (s : State) : (setCset b c s).plan = s.plan := rfl
@[simp] theorem setCset_bind (b : Nat) (c : CSet) (s : State) : (setCset b c s).bind = s.bind := rfl
@[simp] theorem setCset_mig (b : Nat) (c : CSet) (s : State) : (setCset b c s).mig = s.mig := rfl
@[simp] theorem setCset_xbar (b : Nat) (c : CSet) (s : State) : (setCset b c s).xbar = s.xbar := rfl
@[simp] theorem setCset_proxy (b : Nat) (c : CSet) (s : State) : (setCset b c s).proxy = s.proxy := rfl
@[simp] theorem setCset_scribe (b : Nat) (c : CSet) (s : State) : (setCset b c s).scribe = s.scribe := rfl
@[simp] theorem setCset_traffic (b : Nat) (c : CSet) (s : State) : (setCset b c s).traffic = s.traffic := rfl
@[simp] theorem setCset_prot (b : Nat) (c : CSet) (s : State) : (setCset b c s).prot = s.prot := rfl
@[simp] theorem setCset_ports (b : Nat) (c : CSet) (s : State) : (setCset b c s).ports = s.ports := rfl
@[simp] theorem setCset_wefts (b : Nat) (c : CSet) (s : State) : (setCset b c s).wefts = s.wefts := rfl
@[simp] theorem setCset_lane (b : Nat) (c : CSet) (s : State) : (setCset b c s).lane = s.lane := rfl
@[simp] theorem setCset_mgmt (b : Nat) (c : CSet) (s : State) : (setCset b c s).mgmt = s.mgmt := rfl
@[simp] theorem setCset_mem (b : Nat) (c : CSet) (s : State) : (setCset b c s).mem = s.mem := rfl
@[simp] theorem setCset_fault (b : Nat) (c : CSet) (s : State) : (setCset b c s).fault = s.fault := rfl
@[simp] theorem setCset_pmu (b : Nat) (c : CSet) (s : State) : (setCset b c s).pmu = s.pmu := rfl
@[simp] theorem setCset_slot (b : Nat) (c : CSet) (s : State) : (setCset b c s).slot = s.slot := rfl
@[simp] theorem setCset_sealu (b : Nat) (c : CSet) (s : State) : (setCset b c s).sealu = s.sealu := rfl
@[simp] theorem setCset_boot (b : Nat) (c : CSet) (s : State) : (setCset b c s).boot = s.boot := rfl
@[simp] theorem setCset_emits (b : Nat) (c : CSet) (s : State) : (setCset b c s).emits = s.emits := rfl
@[simp] theorem setCset_free (b : Nat) (c : CSet) (s : State) : (setCset b c s).free = s.free := rfl
@[simp] theorem setCset_pending (b : Nat) (c : CSet) (s : State) : (setCset b c s).pending = s.pending := rfl

/-! ## setMbx -/

@[simp] theorem setMbx_tele (m : Nat) (b : Mailbox) (s : State) : (setMbx m b s).tele = s.tele := rfl
@[simp] theorem setMbx_aon (m : Nat) (b : Mailbox) (s : State) : (setMbx m b s).aon = s.aon := rfl
@[simp] theorem setMbx_plan (m : Nat) (b : Mailbox) (s : State) : (setMbx m b s).plan = s.plan := rfl
@[simp] theorem setMbx_bind (m : Nat) (b : Mailbox) (s : State) : (setMbx m b s).bind = s.bind := rfl
@[simp] theorem setMbx_mig (m : Nat) (b : Mailbox) (s : State) : (setMbx m b s).mig = s.mig := rfl
@[simp] theorem setMbx_xbar (m : Nat) (b : Mailbox) (s : State) : (setMbx m b s).xbar = s.xbar := rfl
@[simp] theorem setMbx_proxy (m : Nat) (b : Mailbox) (s : State) : (setMbx m b s).proxy = s.proxy := rfl
@[simp] theorem setMbx_scribe (m : Nat) (b : Mailbox) (s : State) : (setMbx m b s).scribe = s.scribe := rfl
@[simp] theorem setMbx_traffic (m : Nat) (b : Mailbox) (s : State) : (setMbx m b s).traffic = s.traffic := rfl
@[simp] theorem setMbx_prot (m : Nat) (b : Mailbox) (s : State) : (setMbx m b s).prot = s.prot := rfl
@[simp] theorem setMbx_ports (m : Nat) (b : Mailbox) (s : State) : (setMbx m b s).ports = s.ports := rfl
@[simp] theorem setMbx_wefts (m : Nat) (b : Mailbox) (s : State) : (setMbx m b s).wefts = s.wefts := rfl
@[simp] theorem setMbx_lane (m : Nat) (b : Mailbox) (s : State) : (setMbx m b s).lane = s.lane := rfl
@[simp] theorem setMbx_mem (m : Nat) (b : Mailbox) (s : State) : (setMbx m b s).mem = s.mem := rfl
@[simp] theorem setMbx_fault (m : Nat) (b : Mailbox) (s : State) : (setMbx m b s).fault = s.fault := rfl
@[simp] theorem setMbx_pmu (m : Nat) (b : Mailbox) (s : State) : (setMbx m b s).pmu = s.pmu := rfl
@[simp] theorem setMbx_slot (m : Nat) (b : Mailbox) (s : State) : (setMbx m b s).slot = s.slot := rfl
@[simp] theorem setMbx_sealu (m : Nat) (b : Mailbox) (s : State) : (setMbx m b s).sealu = s.sealu := rfl
@[simp] theorem setMbx_boot (m : Nat) (b : Mailbox) (s : State) : (setMbx m b s).boot = s.boot := rfl
@[simp] theorem setMbx_emits (m : Nat) (b : Mailbox) (s : State) : (setMbx m b s).emits = s.emits := rfl
@[simp] theorem setMbx_free (m : Nat) (b : Mailbox) (s : State) : (setMbx m b s).free = s.free := rfl
@[simp] theorem setMbx_pending (m : Nat) (b : Mailbox) (s : State) : (setMbx m b s).pending = s.pending := rfl

/-! ## newEpoch -/

@[simp] theorem newEpoch_tele (s : State) : (newEpoch s).tele = s.tele := rfl
@[simp] theorem newEpoch_aon (s : State) : (newEpoch s).aon = s.aon := rfl
@[simp] theorem newEpoch_plan (s : State) : (newEpoch s).plan = s.plan := rfl
@[simp] theorem newEpoch_bind (s : State) : (newEpoch s).bind = s.bind := rfl
@[simp] theorem newEpoch_mig (s : State) : (newEpoch s).mig = s.mig := rfl
@[simp] theorem newEpoch_xbar (s : State) : (newEpoch s).xbar = s.xbar := rfl
@[simp] theorem newEpoch_proxy (s : State) : (newEpoch s).proxy = s.proxy := rfl
@[simp] theorem newEpoch_scribe (s : State) : (newEpoch s).scribe = s.scribe := rfl
@[simp] theorem newEpoch_traffic (s : State) : (newEpoch s).traffic = s.traffic := rfl
@[simp] theorem newEpoch_ports (s : State) : (newEpoch s).ports = s.ports := rfl
@[simp] theorem newEpoch_wefts (s : State) : (newEpoch s).wefts = s.wefts := rfl
@[simp] theorem newEpoch_lane (s : State) : (newEpoch s).lane = s.lane := rfl
@[simp] theorem newEpoch_mgmt (s : State) : (newEpoch s).mgmt = s.mgmt := rfl
@[simp] theorem newEpoch_mem (s : State) : (newEpoch s).mem = s.mem := rfl
@[simp] theorem newEpoch_fault (s : State) : (newEpoch s).fault = s.fault := rfl
@[simp] theorem newEpoch_pmu (s : State) : (newEpoch s).pmu = s.pmu := rfl
@[simp] theorem newEpoch_slot (s : State) : (newEpoch s).slot = s.slot := rfl
@[simp] theorem newEpoch_sealu (s : State) : (newEpoch s).sealu = s.sealu := rfl
@[simp] theorem newEpoch_boot (s : State) : (newEpoch s).boot = s.boot := rfl
@[simp] theorem newEpoch_emits (s : State) : (newEpoch s).emits = s.emits := rfl
@[simp] theorem newEpoch_free (s : State) : (newEpoch s).free = s.free := rfl
@[simp] theorem newEpoch_pending (s : State) : (newEpoch s).pending = s.pending := rfl

/-! ## epochEnter -/

@[simp] theorem epochEnter_tele (s : State) : (epochEnter s).tele = s.tele := rfl
@[simp] theorem epochEnter_aon (s : State) : (epochEnter s).aon = s.aon := rfl
@[simp] theorem epochEnter_plan (s : State) : (epochEnter s).plan = s.plan := rfl
@[simp] theorem epochEnter_bind (s : State) : (epochEnter s).bind = s.bind := rfl
@[simp] theorem epochEnter_mig (s : State) : (epochEnter s).mig = s.mig := rfl
@[simp] theorem epochEnter_xbar (s : State) : (epochEnter s).xbar = s.xbar := rfl
@[simp] theorem epochEnter_proxy (s : State) : (epochEnter s).proxy = s.proxy := rfl
@[simp] theorem epochEnter_scribe (s : State) : (epochEnter s).scribe = s.scribe := rfl
@[simp] theorem epochEnter_traffic (s : State) : (epochEnter s).traffic = s.traffic := rfl
@[simp] theorem epochEnter_ports (s : State) : (epochEnter s).ports = s.ports := rfl
@[simp] theorem epochEnter_wefts (s : State) : (epochEnter s).wefts = s.wefts := rfl
@[simp] theorem epochEnter_lane (s : State) : (epochEnter s).lane = s.lane := rfl
@[simp] theorem epochEnter_mgmt (s : State) : (epochEnter s).mgmt = s.mgmt := rfl
@[simp] theorem epochEnter_mem (s : State) : (epochEnter s).mem = s.mem := rfl
@[simp] theorem epochEnter_fault (s : State) : (epochEnter s).fault = s.fault := rfl
@[simp] theorem epochEnter_pmu (s : State) : (epochEnter s).pmu = s.pmu := rfl
@[simp] theorem epochEnter_slot (s : State) : (epochEnter s).slot = s.slot := rfl
@[simp] theorem epochEnter_sealu (s : State) : (epochEnter s).sealu = s.sealu := rfl
@[simp] theorem epochEnter_boot (s : State) : (epochEnter s).boot = s.boot := rfl
@[simp] theorem epochEnter_emits (s : State) : (epochEnter s).emits = s.emits := rfl
@[simp] theorem epochEnter_free (s : State) : (epochEnter s).free = s.free := rfl
@[simp] theorem epochEnter_pending (s : State) : (epochEnter s).pending = s.pending := rfl

/-! ## Reading what was written -/

@[simp] theorem port_setPort_same (k : Nat) (p : Port) (s : State) :
    port (setPort k p s) k = p := tabGet_tabSet_same _ _ k p
@[simp] theorem port_setPort_other {k i : Nat} (h : i ≠ k) (p : Port) (s : State) :
    port (setPort k p s) i = port s i := tabGet_tabSet_other _ _ h _
theorem setPort_wf (k : Nat) (p : Port) (s : State) (h : tabWf Port.init s.ports = true) :
    tabWf Port.init (setPort k p s).ports = true := tabSet_wf k p h
@[simp] theorem weft_setWeft_same (k : Nat) (w : Weft) (s : State) :
    weft (setWeft k w s) k = w := tabGet_tabSet_same _ _ k w
@[simp] theorem weft_setWeft_other {k i : Nat} (h : i ≠ k) (w : Weft) (s : State) :
    weft (setWeft k w s) i = weft s i := tabGet_tabSet_other _ _ h _
theorem setWeft_wf (k : Nat) (w : Weft) (s : State) (h : tabWf Weft.init s.wefts = true) :
    tabWf Weft.init (setWeft k w s).wefts = true := tabSet_wf k w h
@[simp] theorem output_setOutput_same (k : Nat) (o : Output) (s : State) :
    output (setOutput k o s) k = o := tabGet_tabSet_same _ _ k o
@[simp] theorem output_setOutput_other {k i : Nat} (h : i ≠ k) (o : Output) (s : State) :
    output (setOutput k o s) i = output s i := tabGet_tabSet_other _ _ h _
theorem setOutput_wf (k : Nat) (o : Output) (s : State) (h : tabWf Output.init s.xbar.outs = true) :
    tabWf Output.init (setOutput k o s).xbar.outs = true := tabSet_wf k o h
@[simp] theorem bufKey_setKey_same (k : Nat) (q : BufKey) (s : State) :
    bufKey (setKey k q s) k = q := tabGet_tabSet_same _ _ k q
@[simp] theorem bufKey_setKey_other {k i : Nat} (h : i ≠ k) (q : BufKey) (s : State) :
    bufKey (setKey k q s) i = bufKey s i := tabGet_tabSet_other _ _ h _
theorem setKey_wf (k : Nat) (q : BufKey) (s : State) (h : tabWf BufKey.init s.xbar.keys = true) :
    tabWf BufKey.init (setKey k q s).xbar.keys = true := tabSet_wf k q h
@[simp] theorem voq_setVoq_same (k : Nat) (q : Voq) (s : State) :
    voq (setVoq k q s) k = q := tabGet_tabSet_same _ _ k q
@[simp] theorem voq_setVoq_other {k i : Nat} (h : i ≠ k) (q : Voq) (s : State) :
    voq (setVoq k q s) i = voq s i := tabGet_tabSet_other _ _ h _
theorem setVoq_wf (k : Nat) (q : Voq) (s : State) (h : tabWf Voq.init s.xbar.voqs = true) :
    tabWf Voq.init (setVoq k q s).xbar.voqs = true := tabSet_wf k q h
@[simp] theorem pair_setPair_same (k : Nat) (q : Pair) (s : State) :
    pair (setPair k q s) k = q := tabGet_tabSet_same _ _ k q
@[simp] theorem pair_setPair_other {k i : Nat} (h : i ≠ k) (q : Pair) (s : State) :
    pair (setPair k q s) i = pair s i := tabGet_tabSet_other _ _ h _
theorem setPair_wf (k : Nat) (q : Pair) (s : State) (h : tabWf Pair.init s.xbar.pairs = true) :
    tabWf Pair.init (setPair k q s).xbar.pairs = true := tabSet_wf k q h
@[simp] theorem plane_setPlane_same (k : Nat) (p : Plane) (s : State) :
    plane (setPlane k p s) k = p := tabGet_tabSet_same _ _ k p
@[simp] theorem plane_setPlane_other {k i : Nat} (h : i ≠ k) (p : Plane) (s : State) :
    plane (setPlane k p s) i = plane s i := tabGet_tabSet_other _ _ h _
theorem setPlane_wf (k : Nat) (p : Plane) (s : State) (h : tabWf Plane.init s.xbar.planes = true) :
    tabWf Plane.init (setPlane k p s).xbar.planes = true := tabSet_wf k p h
@[simp] theorem meter_setMeter_same (k : Nat) (m : Meter) (s : State) :
    meter (setMeter k m s) k = m := tabGet_tabSet_same _ _ k m
@[simp] theorem meter_setMeter_other {k i : Nat} (h : i ≠ k) (m : Meter) (s : State) :
    meter (setMeter k m s) i = meter s i := tabGet_tabSet_other _ _ h _
theorem setMeter_wf (k : Nat) (m : Meter) (s : State) (h : tabWf Meter.init s.traffic.meters = true) :
    tabWf Meter.init (setMeter k m s).traffic.meters = true := tabSet_wf k m h
@[simp] theorem pageEntry_setPage_same (k : Nat) (e : BitVec 256) (s : State) :
    pageEntry (setPage k e s) k = e := tabGet_tabSet_same _ _ k e
@[simp] theorem pageEntry_setPage_other {k i : Nat} (h : i ≠ k) (e : BitVec 256) (s : State) :
    pageEntry (setPage k e s) i = pageEntry s i := tabGet_tabSet_other _ _ h _
theorem setPage_wf (k : Nat) (e : BitVec 256) (s : State) (h : tabWf (0 : BitVec 256) s.plan.pages = true) :
    tabWf (0 : BitVec 256) (setPage k e s).plan.pages = true := tabSet_wf k e h
@[simp] theorem bindCnt_setBindCnt_same (k : Nat) (c : BindCnt) (s : State) :
    bindCnt (setBindCnt k c s) k = c := tabGet_tabSet_same _ _ k c
@[simp] theorem bindCnt_setBindCnt_other {k i : Nat} (h : i ≠ k) (c : BindCnt) (s : State) :
    bindCnt (setBindCnt k c s) i = bindCnt s i := tabGet_tabSet_other _ _ h _
theorem setBindCnt_wf (k : Nat) (c : BindCnt) (s : State) (h : tabWf BindCnt.init s.tele.bind = true) :
    tabWf BindCnt.init (setBindCnt k c s).tele.bind = true := tabSet_wf k c h
@[simp] theorem domain_setDomain_same (k : Nat) (v : Domain) (s : State) :
    domain (setDomain k v s) k = v := tabGet_tabSet_same _ _ k v
@[simp] theorem domain_setDomain_other {k i : Nat} (h : i ≠ k) (v : Domain) (s : State) :
    domain (setDomain k v s) i = domain s i := tabGet_tabSet_other _ _ h _
theorem setDomain_wf (k : Nat) (v : Domain) (s : State) (h : tabWf Domain.init s.pmu.doms = true) :
    tabWf Domain.init (setDomain k v s).pmu.doms = true := tabSet_wf k v h
@[simp] theorem inst_setInst_same (k : Nat) (x : Inst) (s : State) :
    inst (setInst k x s) k = x := tabGet_tabSet_same _ _ k x
@[simp] theorem inst_setInst_other {k i : Nat} (h : i ≠ k) (x : Inst) (s : State) :
    inst (setInst k x s) i = inst s i := tabGet_tabSet_other _ _ h _
theorem setInst_wf (k : Nat) (x : Inst) (s : State) (h : tabWf Inst.init s.scribe.insts = true) :
    tabWf Inst.init (setInst k x s).scribe.insts = true := tabSet_wf k x h
@[simp] theorem slotCh_setSlot_same (k : Nat) (c : Slot) (s : State) :
    slotCh (setSlot k c s) k = c := tabGet_tabSet_same _ _ k c
@[simp] theorem slotCh_setSlot_other {k i : Nat} (h : i ≠ k) (c : Slot) (s : State) :
    slotCh (setSlot k c s) i = slotCh s i := tabGet_tabSet_other _ _ h _
theorem setSlot_wf (k : Nat) (c : Slot) (s : State) (h : tabWf Slot.init s.slot.slots = true) :
    tabWf Slot.init (setSlot k c s).slot.slots = true := tabSet_wf k c h
@[simp] theorem cset_setCset_same (k : Nat) (c : CSet) (s : State) :
    cset (setCset k c s) k = c := tabGet_tabSet_same _ _ k c
@[simp] theorem cset_setCset_other {k i : Nat} (h : i ≠ k) (c : CSet) (s : State) :
    cset (setCset k c s) i = cset s i := tabGet_tabSet_other _ _ h _
theorem setCset_wf (k : Nat) (c : CSet) (s : State) (h : tabWf CSet.init s.tele.sets = true) :
    tabWf CSet.init (setCset k c s).tele.sets = true := tabSet_wf k c h
@[simp] theorem mbx_setMbx_same (k : Nat) (b : Mailbox) (s : State) :
    mbx (setMbx k b s) k = b := tabGet_tabSet_same _ _ k b
@[simp] theorem mbx_setMbx_other {k i : Nat} (h : i ≠ k) (b : Mailbox) (s : State) :
    mbx (setMbx k b s) i = mbx s i := tabGet_tabSet_other _ _ h _
theorem setMbx_wf (k : Nat) (b : Mailbox) (s : State) (h : tabWf Mailbox.init s.mgmt.mbx = true) :
    tabWf Mailbox.init (setMbx k b s).mgmt.mbx = true := tabSet_wf k b h
@[simp] theorem brun_setBrun_same (k : Nat) (r : BindingRun) (s : State) :
    brun (setBrun k r s) k = r := tabGet_tabSet_same _ _ k r
@[simp] theorem brun_setBrun_other {k i : Nat} (h : i ≠ k) (r : BindingRun) (s : State) :
    brun (setBrun k r s) i = brun s i := tabGet_tabSet_other _ _ h _
theorem setBrun_wf (k : Nat) (r : BindingRun) (s : State) (h : tabWf BindingRun.init s.bind = true) :
    tabWf BindingRun.init (setBrun k r s).bind = true := tabSet_wf k r h
@[simp] theorem migSlot_setMig_same (k : Nat) (m : MigSlot) (s : State) :
    migSlot (setMig k m s) k = m := tabGet_tabSet_same _ _ k m
@[simp] theorem migSlot_setMig_other {k i : Nat} (h : i ≠ k) (m : MigSlot) (s : State) :
    migSlot (setMig k m s) i = migSlot s i := tabGet_tabSet_other _ _ h _
theorem setMig_wf (k : Nat) (m : MigSlot) (s : State) (h : tabWf MigSlot.init s.mig = true) :
    tabWf MigSlot.init (setMig k m s).mig = true := tabSet_wf k m h
@[simp] theorem ctx_setCtx_same (k : Nat) (c : BitVec 512) (s : State) :
    ctx (setCtx k c s) k = c := tabGet_tabSet_same _ _ k c
@[simp] theorem ctx_setCtx_other {k i : Nat} (h : i ≠ k) (c : BitVec 512) (s : State) :
    ctx (setCtx k c s) i = ctx s i := tabGet_tabSet_other _ _ h _
theorem setCtx_wf (k : Nat) (c : BitVec 512) (s : State) (h : tabWf (0 : BitVec 512) s.plan.active.binding = true) :
    tabWf (0 : BitVec 512) (setCtx k c s).plan.active.binding = true := tabSet_wf k c h

/-! ## Other parts of the tables' records -/

@[simp] theorem setOutput_xbar_keys (x : Nat) (o : Output) (s : State) : (setOutput x o s).xbar.keys = s.xbar.keys := rfl
@[simp] theorem setOutput_xbar_voqs (x : Nat) (o : Output) (s : State) : (setOutput x o s).xbar.voqs = s.xbar.voqs := rfl
@[simp] theorem setOutput_xbar_pairs (x : Nat) (o : Output) (s : State) : (setOutput x o s).xbar.pairs = s.xbar.pairs := rfl
@[simp] theorem setOutput_xbar_planes (x : Nat) (o : Output) (s : State) : (setOutput x o s).xbar.planes = s.xbar.planes := rfl
@[simp] theorem setKey_xbar_outs (x : Nat) (o : BufKey) (s : State) : (setKey x o s).xbar.outs = s.xbar.outs := rfl
@[simp] theorem setKey_xbar_voqs (x : Nat) (o : BufKey) (s : State) : (setKey x o s).xbar.voqs = s.xbar.voqs := rfl
@[simp] theorem setKey_xbar_pairs (x : Nat) (o : BufKey) (s : State) : (setKey x o s).xbar.pairs = s.xbar.pairs := rfl
@[simp] theorem setKey_xbar_planes (x : Nat) (o : BufKey) (s : State) : (setKey x o s).xbar.planes = s.xbar.planes := rfl
@[simp] theorem setVoq_xbar_outs (x : Nat) (o : Voq) (s : State) : (setVoq x o s).xbar.outs = s.xbar.outs := rfl
@[simp] theorem setVoq_xbar_keys (x : Nat) (o : Voq) (s : State) : (setVoq x o s).xbar.keys = s.xbar.keys := rfl
@[simp] theorem setVoq_xbar_pairs (x : Nat) (o : Voq) (s : State) : (setVoq x o s).xbar.pairs = s.xbar.pairs := rfl
@[simp] theorem setVoq_xbar_planes (x : Nat) (o : Voq) (s : State) : (setVoq x o s).xbar.planes = s.xbar.planes := rfl
@[simp] theorem setPair_xbar_outs (x : Nat) (o : Pair) (s : State) : (setPair x o s).xbar.outs = s.xbar.outs := rfl
@[simp] theorem setPair_xbar_keys (x : Nat) (o : Pair) (s : State) : (setPair x o s).xbar.keys = s.xbar.keys := rfl
@[simp] theorem setPair_xbar_voqs (x : Nat) (o : Pair) (s : State) : (setPair x o s).xbar.voqs = s.xbar.voqs := rfl
@[simp] theorem setPair_xbar_planes (x : Nat) (o : Pair) (s : State) : (setPair x o s).xbar.planes = s.xbar.planes := rfl
@[simp] theorem setPlane_xbar_outs (x : Nat) (o : Plane) (s : State) : (setPlane x o s).xbar.outs = s.xbar.outs := rfl
@[simp] theorem setPlane_xbar_keys (x : Nat) (o : Plane) (s : State) : (setPlane x o s).xbar.keys = s.xbar.keys := rfl
@[simp] theorem setPlane_xbar_voqs (x : Nat) (o : Plane) (s : State) : (setPlane x o s).xbar.voqs = s.xbar.voqs := rfl
@[simp] theorem setPlane_xbar_pairs (x : Nat) (o : Plane) (s : State) : (setPlane x o s).xbar.pairs = s.xbar.pairs := rfl

end Sys2Proof.Machine
end

