-- ==== Sys2Proof/Laws/Fault.lean ====
section
/-! SUPPORT. The fault collector and the event queue: what an occurrence, an acknowledgement and an event can do. -/

namespace Sys2Proof.Machine

open Sys2Proof

/-! ## Records -/

@[simp] theorem faultRec_setFaultRec_same (f : FaultState) (k : Nat) (r : FaultRec) :
    faultRec (setFaultRec f k r) k = r := tabGet_tabSet_same _ _ k r

theorem faultRec_setFaultRec_other {k i : Nat} (h : i ≠ k) (f : FaultState) (r : FaultRec) :
    faultRec (setFaultRec f k r) i = faultRec f i := tabGet_tabSet_other _ _ h _

@[simp] theorem setFaultRec_cfgs (f : FaultState) (k : Nat) (r : FaultRec) : (setFaultRec f k r).cfgs = f.cfgs := rfl
@[simp] theorem setFaultRec_todo (f : FaultState) (k : Nat) (r : FaultRec) : (setFaultRec f k r).todo = f.todo := rfl
@[simp] theorem setFaultRec_safeStop (f : FaultState) (k : Nat) (r : FaultRec) :
    (setFaultRec f k r).safeStop = f.safeStop := rfl

@[simp] theorem faultCfg_setFaultCfg_same (f : FaultState) (k : Nat) (c : FaultCfg) :
    faultCfg (setFaultCfg f k c) k = c := by
  by_cases h : c = defaultCfg k <;> simp [faultCfg, setFaultCfg, h]

theorem faultCfg_setFaultCfg_other {k i : Nat} (h : i ≠ k) (f : FaultState) (c : FaultCfg) :
    faultCfg (setFaultCfg f k c) i = faultCfg f i := by
  simp only [faultCfg, setFaultCfg, tabGet_tabSet_other _ _ h]

/-- An occurrence leaves the record of its code as `occurRec` says. -/
theorem occur_rec (k : Nat) (inj : Bool) (src : BitVec 32) (d t : BitVec 64) (f : FaultState) :
    faultRec (occur k inj src d t f).1 k = occurRec (faultCfg f k) k inj src d t
      (if !f.safeStop && exitDue (faultCfg f k) t (faultRec f k) then exitedRec (faultRec f k) else faultRec f k) := by
  unfold occur
  simp only
  split <;> split <;> split <;> simp [faultRec, setFaultRec]

/-- An occurrence changes no record but that of its code. -/
theorem occur_other {k i : Nat} (h : i ≠ k) (inj : Bool) (src : BitVec 32) (d t : BitVec 64) (f : FaultState) :
    faultRec (occur k inj src d t f).1 i = faultRec f i := by
  unfold occur
  simp only
  split <;> split <;> split <;> simp [faultRec, setFaultRec, tabGet_tabSet_other _ _ h]

/-- An acknowledgement of a record that isolates nothing; the conditions that last stay noted. -/
theorem ackRec_free {k : Nat} {s : State} (h : (faultRec s.fault k).isolated = false) :
    ackRec k s = { s with fault := setFaultRec s.fault k (ackedRec k s) } := by
  simp [ackRec, h]

/-- An acknowledgement of a record that isolates a source is ignored. -/
theorem ackRec_isolated {k : Nat} {s : State} (h : (faultRec s.fault k).isolated = true) : ackRec k s = s := by
  simp [ackRec, h]

/-! ## The event queue -/

/-- An event touches the management core, the collector and the free counter alone. -/
theorem queueEvent_frame (t : BitVec 16) (d : BitVec 128) (s : State) :
    queueEvent t d s = { s with mgmt := (queueEvent t d s).mgmt, fault := (queueEvent t d s).fault
                                free := (queueEvent t d s).free } := by
  unfold queueEvent
  split
  · rfl
  · split <;> rfl

/-- With room in the queue an event touches the management core alone. -/
theorem queueEvent_room {t : BitVec 16} {d : BitVec 128} {s : State} (h : s.mgmt.events.length < 4095) :
    queueEvent t d s = { s with mgmt := pushRecord t s.tele.time d s.mgmt } := by
  unfold queueEvent
  rw [if_pos h]

/-- Counting a lost event keeps every record's number. -/
theorem bumpLost_seq (l : List Event) : (bumpLost l).map (·.seq) = l.map (·.seq) := by
  induction l with
  | nil => rfl
  | cons e l ih =>
    cases l with
    | nil => simp only [bumpLost]; split <;> rfl
    | cons f l => simp only [bumpLost, List.map_cons] at ih ⊢; rw [ih]

/-- Counting a lost event keeps the number of records. -/
@[simp] theorem bumpLost_length (l : List Event) : (bumpLost l).length = l.length := by
  simpa using congrArg List.length (bumpLost_seq l)

/-! ## Raising -/

/-- A raised code touches the collector, the management core, the trace ring and the free counter alone. -/
theorem raiseWith_frame (i : Bool) (k c : Nat) (src : BitVec 32) (d : BitVec 64) (s : State) :
    raiseWith i k c src d s = { s with
      fault := (raiseWith i k c src d s).fault, mgmt := (raiseWith i k c src d s).mgmt
      tele := (raiseWith i k c src d s).tele, free := (raiseWith i k c src d s).free } := by
  unfold raiseWith
  simp only
  split
  · rw [queueEvent_frame]
  · rfl

end Sys2Proof.Machine
end

