-- ==== Sys2Proof/Laws/Ops.lean ====
section
/-! SUPPORT. One lemma per shared operation that says what it can do: time, the fault collector's settling, the outcome
of a command, and a Nib command that firmware carries out. -/

namespace Sys2Proof.Machine

open Sys2Proof

/-! ## Time -/

/-- An event that is not ahead comes at once; one that is ahead moves both clocks on by what is missing. -/
theorem reach_cases (t : Nat) (s : State) :
    (t ≤ now s ∧ reach t s = s) ∨ (now s < t ∧ reach t s = elapse (t - now s) s) := by
  unfold reach
  by_cases h : now s < t
  · right; simp [h]
  · left; simp [h]; omega

theorem reach_past {t : Nat} {s : State} (h : t ≤ now s) : reach t s = s := by
  unfold reach; simp [Nat.not_lt.mpr h]

theorem now_elapse (d : Nat) (s : State) : now (elapse d s) = (now s + d) % 2 ^ 64 := by
  simp [now, elapse, BitVec.toNat_add]

/-- Fabric time after an event whose earliest instant is `t`. -/
theorem now_reach {t : Nat} (s : State) (h : t < 2 ^ 64) : now (reach t s) = max (now s) t := by
  rcases reach_cases t s with ⟨h1, h2⟩ | ⟨h1, h2⟩
  · rw [h2]; omega
  · rw [h2, now_elapse, Nat.mod_eq_of_lt (by omega)]; omega

/-- Nothing but the two clocks moves. -/
theorem reach_frame (t : Nat) (s : State) :
    reach t s = { s with tele := { s.tele with time := (reach t s).tele.time }, aon := (reach t s).aon } := by
  rcases reach_cases t s with ⟨_, h⟩ | ⟨_, h⟩ <;> rw [h] <;> rfl

@[simp] theorem reach_plan (t : Nat) (s : State) : (reach t s).plan = s.plan := by rw [reach_frame]
@[simp] theorem reach_bind (t : Nat) (s : State) : (reach t s).bind = s.bind := by rw [reach_frame]
@[simp] theorem reach_mig (t : Nat) (s : State) : (reach t s).mig = s.mig := by rw [reach_frame]
@[simp] theorem reach_xbar (t : Nat) (s : State) : (reach t s).xbar = s.xbar := by rw [reach_frame]
@[simp] theorem reach_proxy (t : Nat) (s : State) : (reach t s).proxy = s.proxy := by rw [reach_frame]
@[simp] theorem reach_scribe (t : Nat) (s : State) : (reach t s).scribe = s.scribe := by rw [reach_frame]
@[simp] theorem reach_traffic (t : Nat) (s : State) : (reach t s).traffic = s.traffic := by rw [reach_frame]
@[simp] theorem reach_prot (t : Nat) (s : State) : (reach t s).prot = s.prot := by rw [reach_frame]
@[simp] theorem reach_ports (t : Nat) (s : State) : (reach t s).ports = s.ports := by rw [reach_frame]
@[simp] theorem reach_wefts (t : Nat) (s : State) : (reach t s).wefts = s.wefts := by rw [reach_frame]
@[simp] theorem reach_lane (t : Nat) (s : State) : (reach t s).lane = s.lane := by rw [reach_frame]
@[simp] theorem reach_mgmt (t : Nat) (s : State) : (reach t s).mgmt = s.mgmt := by rw [reach_frame]
@[simp] theorem reach_mem (t : Nat) (s : State) : (reach t s).mem = s.mem := by rw [reach_frame]
@[simp] theorem reach_fault (t : Nat) (s : State) : (reach t s).fault = s.fault := by rw [reach_frame]
@[simp] theorem reach_pmu (t : Nat) (s : State) : (reach t s).pmu = s.pmu := by rw [reach_frame]
@[simp] theorem reach_slot (t : Nat) (s : State) : (reach t s).slot = s.slot := by rw [reach_frame]
@[simp] theorem reach_sealu (t : Nat) (s : State) : (reach t s).sealu = s.sealu := by rw [reach_frame]
@[simp] theorem reach_boot (t : Nat) (s : State) : (reach t s).boot = s.boot := by rw [reach_frame]
@[simp] theorem reach_emits (t : Nat) (s : State) : (reach t s).emits = s.emits := by rw [reach_frame]
@[simp] theorem reach_free (t : Nat) (s : State) : (reach t s).free = s.free := by rw [reach_frame]
@[simp] theorem reach_pending (t : Nat) (s : State) : (reach t s).pending = s.pending := by rw [reach_frame]

/-! ## Reactions -/

/-- A state with no reaction waiting stays as it is. -/
theorem settle_of_settled {s : State} (h : settled s) : settle s = s := by
  unfold settled at h
  simp [settle, settleN, h]

theorem settleN_todo (n : Nat) (s : State) : (settleN n s).fault.todo = [] := by
  induction n generalizing s with
  | zero => rfl
  | succ n ih =>
    simp only [settleN]
    split
    · assumption
    · exact ih _

/-- No reaction waits after a command's reactions have been taken. -/
theorem settle_settled (s : State) : settled (settle s) := settleN_todo 4096 s

/-- A command that leaves no reaction waiting answers the state it computed. -/
theorem fin_settled {s : State} (h : settled s) : fin s = .next s := by rw [fin, settle_of_settled h]

/-- Every outcome of `fin` is a next state with no reaction waiting. -/
theorem fin_next (s : State) : ∃ t, fin s = .next t ∧ settled t := ⟨_, rfl, settle_settled s⟩

/-- A data-path command while the block is not in safe-stop. -/
theorem live_running {s : State} (h : s.fault.safeStop = false) (f : State → Out) : live s f = f s := by
  simp [live, h]

/-! ## Nib commands -/

/-- The command in hand is accepted as it stands. -/
theorem accept_inHand {r : Req} {op : Nat} {p : List Byte} {s : State} (h : inHand r op p s = true) :
    accept r op p s = .go s := by
  obtain ⟨src, tag⟩ := r
  cases src with
  | mailbox m =>
    simp only [inHand, Bool.and_eq_true] at h
    obtain ⟨h1, h2⟩ := h
    split at h2
    · rename_i o t q ho
      simp [accept, h1, ho, h2]
    · simp at h2
  | mctp t e =>
    simp only [inHand] at h
    simp [accept, h]

/-- What a served command does: its body runs, and its reply leaves, BAD_LENGTH in its place where it does not fit the
transport (13 R311). -/
theorem nib_serves {op : Nat} {maker : Bool} {r : Req} {p : List Byte} {s : State} (h : serves op maker r p s)
    (body : State → Reply × State) :
    nib op maker r p body s =
      if maxResponse r.src < 16 + (body (makerTouch maker s)).1.payload.length
      then respond r op p (rep 0x11 (maxResponse r.src)) s
      else respond r op p (body (makerTouch maker s)).1 (body (makerTouch maker s)).2 := by
  obtain ⟨h1, h2, h3, h4, h5, h6, h7, h8, h9⟩ := h
  have h10 : nibPower op s = .go s := by simp [nibPower, h4, h5, h6]
  rw [nib, if_neg (by simp [h1]), if_neg h2, accept_inHand h3]
  simp [h4, h7, h10, h8]

/-- A reply touches the management core and the outputs alone. -/
theorem respond_frame (r : Req) (op : Nat) (p : List Byte) (q : Reply) (s : State) :
    respond r op p q s = { s with mgmt := (respond r op p q s).mgmt, emits := (respond r op p q s).emits } := by
  unfold respond
  split
  · rfl
  · split <;> rfl

@[simp] theorem respond_fault (r : Req) (op : Nat) (p : List Byte) (q : Reply) (s : State) :
    (respond r op p q s).fault = s.fault := by rw [respond_frame]

/-- A served command whose reply fits answers its body's state and its reply, with the body's reactions taken. -/
theorem command_serves {op : Nat} {r : Req} {p : List Byte} {s t : State} {q : Reply} (h : serves op false r p s)
    {body : State → Reply × State} (hb : body s = (q, t)) (hq : 16 + q.payload.length ≤ maxResponse r.src) :
    command op false r p body s = .next (settle (respond r op p q t)) := by
  have h1 := nib_serves h body
  simp only [makerTouch, Bool.false_eq_true, if_false, hb] at h1
  rw [command, h1, if_neg (by omega), fin]

/-- The same of a maker-only command, which starts maker level's time again (13 R310). -/
theorem command_serves_maker {op : Nat} {r : Req} {p : List Byte} {s t : State} {q : Reply}
    (h : serves op true r p s) {body : State → Reply × State} (hb : body (makerTouch true s) = (q, t))
    (hq : 16 + q.payload.length ≤ maxResponse r.src) :
    command op true r p body s = .next (settle (respond r op p q t)) := by
  have h1 := nib_serves h body
  rw [hb] at h1
  rw [command, h1, if_neg (by simpa using hq), fin]

/-- A served FM API command runs its body. -/
theorem fm_serves {q : FmSrc} {s : State} (h : fmServes q s) (f : State → State) :
    fm q f s = .next (settle (f s)) := by
  obtain ⟨h1, h2, h3, h4, h5, h6, h7, h8⟩ := h
  have h9 : nibPower 0x0700 s = .go s := by simp [nibPower, h6, h7, h8]
  rw [fm, if_neg (by simp only [h1, h3]; simpa using h2), if_neg (by simp [h4]), if_neg (by simp [h5]), h9]
  rfl

@[simp] theorem leBytes_length (n x : Nat) : (leBytes n x).length = n := by
  induction n generalizing x with
  | zero => rfl
  | succ n ih => simp [leBytes, ih]

@[simp] theorem wBytes_length {m : Nat} (n : Nat) (w : BitVec m) : (wBytes n w).length = n := leBytes_length _ _

@[simp] theorem zeros_length (n : Nat) : (zeros n).length = n := by simp [zeros]

/-- A reply of up to 8,176 payload bytes fits every transport (13 Table 13-2). -/
theorem fits {q : Reply} (r : Req) (h : q.payload.length ≤ 8176) : 16 + q.payload.length ≤ maxResponse r.src := by
  unfold maxResponse
  split <;> omega

/-- An interrupt of the management function changes what has left the block and nothing else. -/
theorem mgmtIrq_eq (v : Nat) (s : State) : ∃ e, mgmtIrq v s = { s with emits := e } := by
  unfold mgmtIrq emitAll
  split
  · exact ⟨_, rfl⟩
  · exact ⟨s.emits, rfl⟩

/-- Storing a counter set changes the sets and what has left the block, and the set stored is the one given. -/
theorem storeCset_eq (b : Nat) (c : CSet) (s : State) :
    ∃ e, storeCset b c s = { setCset b c s with emits := e } := by
  unfold storeCset
  split
  · exact mgmtIrq_eq 5 (setCset b c s)
  · exact ⟨(setCset b c s).emits, rfl⟩

/-- The set stored is the one given. -/
@[simp] theorem cset_storeCset (b : Nat) (c : CSet) (s : State) : cset (storeCset b c s) b = c := by
  obtain ⟨e, h⟩ := storeCset_eq b c s
  rw [h]; exact tabGet_tabSet_same _ _ b c

end Sys2Proof.Machine
end

