-- ==== Sys2Proof/Laws/Lengths.lean ====
section
/-! SUPPORT. Lengths of the longer Nib payloads. -/

namespace Sys2Proof.Machine

open Sys2Proof

/-- Pieces of at most k bytes. -/
theorem flatten_length_le {α : Type} {k : Nat} {f : α → List Byte} (l : List α) (h : ∀ x ∈ l, (f x).length ≤ k) :
    (l.map f).flatten.length ≤ k * l.length := by
  induction l with
  | nil => simp
  | cons x l ih =>
    have h1 := h x (by simp)
    have h2 := ih fun y hy => h y (by simp [hy])
    simp only [List.map_cons, List.flatten_cons, List.length_append, List.length_cons, Nat.mul_succ]
    omega

/-- Pieces of k bytes. -/
theorem flatten_length_eq {α : Type} {k : Nat} {f : α → List Byte} (l : List α) (h : ∀ x, (f x).length = k) :
    (l.map f).flatten.length = k * l.length := by
  induction l with
  | nil => simp
  | cons x l ih =>
    simp only [List.map_cons, List.flatten_cons, List.length_append, List.length_cons, Nat.mul_succ, h] at ih ⊢
    omega

@[simp] theorem eventBytes_length (e : Event) : (eventBytes e).length = 32 := by simp [eventBytes]

@[simp] theorem testCounts_length (s : State) (l : Nat) : (testCounts s l).length = 24 := by simp [testCounts]

@[simp] theorem dcwTake_length (n o : Nat) (s : State) : (dcwTake n o s).1.length = 8 * n := by
  induction n generalizing o s with
  | zero => rfl
  | succ n ih => simp [dcwTake, ih]; omega

@[simp] theorem probeField_length (n : Nat) (v : Option Nat) : (probeField n v).length = n := by
  cases v <;> simp [probeField]

@[simp] theorem probeBytes_length (s : State) (w : Walk) : (probeBytes s w).length = 24 := by
  simp only [probeBytes, List.length_append, leBytes_length, probeField_length]

@[simp] theorem queueBlob_length (s : State) (n q : Nat) : (queueBlob s n q).length = 64 := by simp [queueBlob]

@[simp] theorem mailBytes_length (t : Tab Byte) : (mailBytes t).length = 256 := by simp [mailBytes, tabSlice]

/-- A state blob stands before its crc at offset 0xFFC (07 Table 7-8). -/
theorem blobBody_length (s : State) (n : Nat) : (blobBody s n).length = 0xFFC := by
  have h1 : ∀ i : Inst, ((List.range 8).map fun k => wBytes 4 (slotCookie s i k)).flatten.length = 32 := fun i =>
    (flatten_length_eq (k := 4) (List.range 8) fun x => by simp).trans (by rw [List.length_range])
  have h2 : ((List.range 4).map fun q => queueBlob s n q).flatten.length = 256 :=
    (flatten_length_eq (k := 64) (List.range 4) (queueBlob_length s n)).trans (by rw [List.length_range])
  have h3 : ∀ k, (zeros k).length = k := zeros_length
  unfold blobBody
  simp only [List.length_append, wBytes_length, leBytes_length, h2, h3, mailBytes_length]
  erw [h1]

end Sys2Proof.Machine
end

