-- ==== Sys2Proof/Laws/Regs.lean ====
section
/-! SUPPORT. Accesses of the Device Control Window. -/

namespace Sys2Proof.Machine

open Sys2Proof

/-- An access of all eight bytes leaves the value written. -/
@[simp] theorem overlay_allMask (a v : BitVec 64) : overlay a v allMask = v := by
  have h : allMask = BitVec.allOnes 64 := rfl
  rw [overlay, h, BitVec.not_allOnes, BitVec.and_allOnes]
  simp

/-- An access of no byte leaves what stood there. -/
@[simp] theorem overlay_none (a v : BitVec 64) : overlay a v 0 = a := by
  have h : ~~~(0 : BitVec 64) = BitVec.allOnes 64 := rfl
  rw [overlay, h, BitVec.and_allOnes]
  simp

/-- A register's read moves nothing but what its read brings up to the present, and the free counter. -/
theorem regTake_state (off : Nat) (s : State) : (regTake off s).2 = tookFree (regSync off s) := rfl

end Sys2Proof.Machine
end

