-- ==== Sys2Proof/Machine/Package.lean ====
section
/-! DEFINITION. What stands at each ball of the package and what its marking says (Package, Pins and Electrical
Characteristics, R487 to R491, R501). -/

namespace Sys2Proof.Machine

open Sys2Proof

/-- Signal of a lane: transmit or receive, P or N (Table 21-3). -/
inductive LanePin where
  | txp | txn | rxp | rxn
  deriving DecidableEq, Repr

/-- Pin of a slot channel (R490). -/
inductive SlotPin where
  | gate | src | snsP | snsN | voutSns | prsntL | prsntS | attnBtn | attnLed | pwrLed | perst | wake
  deriving DecidableEq, Repr

/-- Signal of a corner (Table 21-4); AVSBus signals are named with their channel, GPIO and buses with their index. -/
inductive CornerPin where
  | ref25 (k : Nat) | ref100P (k : Nat) | ref100N (k : Nat) | wrefP | wrefN
  | spiSck | spiCsL | spiIo (k : Nat) | i3cScl (k : Nat) | i3cSda (k : Nat)
  | tck | tms | tdi | tdo | trstL | uartTx | uartRx | tsyncIn | tsyncOut
  | strapAddr (k : Nat) | strapRecovery | strapPlanHold | resetL | wresetL | thermtripL
  | gpio (k : Nat) | avsClk (r : Nat) | avsMdata (r : Nat) | avsSdata (r : Nat) | avsEn (r : Nat)
  deriving DecidableEq, Repr

/-- What a ball carries: ground, a supply, or a signal (Tables 21-1 to 21-4). -/
inductive Ball where
  | gnd | vcore | vsram | vlane | vlaneH | vhbmCore | vhbmIo | vio | vaon | vsel
  | cx (pin : LanePin) (lane : Nat)
  | weft (pin : LanePin) (wlane : Nat)
  | slot (n : Nat) (pin : SlotPin)
  | vbusSns | vbusRtn
  | corner (pin : CornerPin)
  deriving DecidableEq, Repr

/-- Lane pair k of loom n: a lane up to k = 47, a wlane above (R488). -/
def pairBall (n k : Nat) (pin : LanePin) : Ball :=
  if k < 48 then .cx pin (48 * n + k) else .weft pin (4 * n + k - 48)

/-- Loom field n at depth d and position a along the edge (Table 21-3). -/
def loomBall (n d a : Nat) : Ball :=
  let lane := fun (k : Nat) (pin : LanePin) (edge : Ball) =>
    if a ≤ 26 then pairBall n k pin else if a ≤ 30 then edge else .vlane
  match d with
  | 2 => lane (a - 1) .txp .vlaneH
  | 3 => lane (a - 1) .txn .vlaneH
  | 5 => lane (a + 25) .txp .vlaneH
  | 6 => lane (a + 25) .txn .vlaneH
  | 8 => lane (a - 1) .rxp .vlane
  | 9 => lane (a - 1) .rxn .vlane
  | 11 => lane (a + 25) .rxp .vlane
  | 12 => lane (a + 25) .rxn .vlane
  | _ => .gnd

/-- Position along the edge of a coordinate; none at the separator, 46 (R488). -/
def edgePos (x : Nat) : Option (Bool × Nat) :=
  if 13 ≤ x ∧ x ≤ 45 then some (false, x - 12) else if 47 ≤ x ∧ x ≤ 79 then some (true, x - 46) else none

/-- Corner A: clocks, management, test, straps and reset (R489). -/
def cornerA (r c : Nat) : Ball :=
  match r, c with
  | 2, 2 => .corner (.ref25 0) | 2, 3 => .corner (.ref25 1)
  | 2, 4 => .corner (.ref100P 0) | 2, 5 => .corner (.ref100N 0) | 2, 6 => .corner (.ref100P 1) | 2, 7 => .corner (.ref100N 1)
  | 2, 8 => .corner .wrefP | 2, 9 => .corner .wrefN
  | 4, 2 => .corner .spiSck | 4, 3 => .corner .spiCsL
  | 4, 4 => .corner (.spiIo 0) | 4, 5 => .corner (.spiIo 1) | 4, 6 => .corner (.spiIo 2) | 4, 7 => .corner (.spiIo 3)
  | 4, 8 => .corner (.i3cScl 0) | 4, 9 => .corner (.i3cSda 0) | 4, 10 => .corner (.i3cScl 1) | 4, 11 => .corner (.i3cSda 1)
  | 6, 2 => .corner .tck | 6, 3 => .corner .tms | 6, 4 => .corner .tdi | 6, 5 => .corner .tdo | 6, 6 => .corner .trstL
  | 6, 7 => .corner .uartTx | 6, 8 => .corner .uartRx | 6, 9 => .corner .tsyncIn | 6, 10 => .corner .tsyncOut
  | 8, 2 => .corner (.strapAddr 0) | 8, 3 => .corner (.strapAddr 1) | 8, 4 => .corner (.strapAddr 2)
  | 8, 5 => .corner .strapRecovery | 8, 6 => .corner .strapPlanHold
  | 8, 7 => .corner .resetL | 8, 8 => .corner .wresetL | 8, 9 => .corner .thermtripL
  | 11, c => if 11 ≤ c ∧ c ≤ 12 then .vaon else .gnd
  | 12, c => if c ≤ 8 then .vio else .vaon
  | _, _ => .gnd

/-- The i-th signal of AVSBus channel r (Table 21-4). -/
def avsPin (r i : Nat) : CornerPin :=
  match i with
  | 0 => .avsClk r | 1 => .avsMdata r | 2 => .avsSdata r | _ => .avsEn r

/-- Corner B: GPIO and AVSBus (R489). -/
def cornerB (r c : Nat) : Ball :=
  if 81 ≤ c ∧ c ≤ 88 then
    let i := c - 81
    match r with
    | 2 => .corner (.gpio i)
    | 4 => .corner (.gpio (8 + i))
    | 6 => .corner (avsPin (i / 4) (i % 4))
    | 8 => .corner (avsPin (2 + i / 4) (i % 4))
    | 12 => if 84 ≤ c then .vio else .gnd
    | _ => .gnd
  else if r = 12 ∧ 84 ≤ c then .vio else .gnd

/-- Corners C and D: VLANE and VLANE_H (Table 21-1). -/
def cornerCD (r c : Nat) : Ball :=
  if 81 ≤ r ∧ r ≤ 90 then .vlane
  else if r = 80 ∧ (c ≤ 8 ∨ 84 ≤ c) then .vlaneH
  else .gnd

/-- Ball of slot n: its first column (`second` false) or its second, at a row of the field (R490). -/
def slotBall (n : Nat) (second : Bool) (r : Nat) : Ball :=
  let pin : Option SlotPin :=
    if second then
      match r with
      | 72 => some .prsntL | 73 => some .prsntS | 74 => some .attnBtn | 75 => some .attnLed | 76 => some .pwrLed
      | 77 => some .perst | 78 => some .wake | _ => none
    else
      match r with
      | 72 => some .gate | 73 => some .src | 75 => some .snsP | 76 => some .snsN | 78 => some .voutSns | _ => none
  match pin with
  | some p => .slot n p
  | none => .gnd

/-- The slot field: slot channels, bay bus sense and VSEL (R490). -/
def slotField (r c : Nat) : Ball :=
  if c ≤ 60 then slotBall ((c - 13) / 2) (decide ((c - 13) % 2 = 1)) r
  else if c = 61 ∧ r = 72 then .vbusSns
  else if c = 61 ∧ r = 73 then .vbusRtn
  else if c ≤ 66 ∧ 76 ≤ r then .vsel
  else .gnd

/-- The core field: core and HBM supplies (R491). -/
def coreField (r c : Nat) : Ball :=
  if 30 ≤ r ∧ r ≤ 68 ∧ r % 2 = 0 ∧ 21 ≤ c ∧ c ≤ 59 ∧ c % 2 = 1 then .vcore
  else if 31 ≤ r ∧ r ≤ 53 ∧ r % 2 = 1 ∧ 63 ≤ c ∧ c ≤ 77 ∧ c % 2 = 1 then .vsram
  else if r = 14 ∧ ((15 ≤ c ∧ c ≤ 38) ∨ (54 ≤ c ∧ c ≤ 77)) then .vhbmCore
  else if r = 16 ∧ ((15 ≤ c ∧ c ≤ 30) ∨ (54 ≤ c ∧ c ≤ 69)) then .vhbmIo
  else .gnd

/-- What ball r:c carries, rows and columns from 1 to 91 (R487, Table 21-1). -/
def ballAt (r c : Nat) : Ball :=
  if r ≤ 12 then
    match edgePos c with
    | some (far, a) => loomBall (nb far) r a
    | none => if c ≤ 12 then cornerA r c else if 80 ≤ c then cornerB r c else .gnd
  else if 80 ≤ r then
    match edgePos c with
    | some (far, a) => loomBall (5 - nb far) (92 - r) a
    | none => if c ≤ 12 ∨ 80 ≤ c then cornerCD r c else .gnd
  else if c ≤ 12 then
    match edgePos r with
    | some (far, a) => loomBall (7 - nb far) c a
    | none => .gnd
  else if 80 ≤ c then
    match edgePos r with
    | some (far, a) => loomBall (2 + nb far) (92 - c) a
    | none => .gnd
  else if 72 ≤ r then slotField r c
  else coreField r c

/-- The 16 hex digits of the lid's Data Matrix code: the device serial number, most significant digit first (R501). -/
def markDigits (serial : BitVec 64) : List Nat :=
  (List.range 16).map fun i => fnat serial (60 - 4 * i) 4

end Sys2Proof.Machine
end

