-- ==== Sys2Proof/WellFormed.lean ====
section
/-! DEFINITION. Well-formed commands: an operand names a port, a lane or a slot that the device has, and a list fits
the field or the transport that carries it. The step refuses nothing by these checks: what a meaning does with an
operand that names nothing is its own business. -/

namespace Sys2Proof

/-- A logical port u = 2p + h of the 48 ports (00, numbering conventions). -/
def portIn (u : BitVec 7) : Bool := decide (u.toNat < 96)

/-- A lane of the 416 (12, introduction). -/
def laneIn (lane : BitVec 9) : Bool := decide (lane.toNat < 416)

/-- A bay slot of the 24 (18). -/
def slotIn (slot : BitVec 5) : Bool := decide (slot.toNat < 24)

/-- A transport that exists (13 Table 13-2). -/
def transportIn : Transport → Bool
  | .vdm u => portIn u
  | .i3c _ | .weft _ => true

/-- A requester that exists (13 R320). -/
def reqIn (r : Req) : Bool :=
  match r.src with
  | .mailbox _ => true
  | .mctp t _ => transportIn t

/-- What comes to a Weft receiver: symbols of four lanes, or one flit position (11 R250). -/
def weftRxIn (rx : WeftRx) : Bool :=
  match rx with
  | .line sym _ => decide (sym.length = 4)
  | .bad | .flit _ | .train _ _ => true

/-- Sizes of an access to the window (13 R312). -/
def accessIn (size : BitVec 7) : Bool := [1, 2, 4, 8, 16, 32, 64].contains size.toNat

/-- Bytes that the largest request of a transport holds beside the 16-byte header (13 R311, Table 13-2). -/
def bytesIn (l : List Byte) : Bool := decide (l.length ≤ 32752)

/-- Words that the largest request of a transport holds. -/
def wordsIn (l : List (BitVec 64)) : Bool := decide (l.length ≤ 4094)

/-- Ports that a command lists, each one that exists. -/
def portsIn (l : List (BitVec 7)) : Bool := decide (l.length ≤ 255) && l.all portIn

/-- The operands of a command fit their fields and name what the device has. -/
def Instr.wellFormed (i : Instr) : Bool :=
  match i with
  | .hostRequestDecode u _ _ _ _ _ _ _ _ => portIn u
  | .pageEntryFetchDone _ _ _ _ => true
  | .cxlFlitReceive u _ _ _ _ => portIn u
  | .cxlResponseReceive u _ _ _ _ _ => portIn u
  | .cxlIoMessage u _ _ _ _ _ => portIn u
  | .waitingMessageAdmit _ _ => true
  | .shaperPass _ => true
  | .bucketRefill _ => true
  | .trafSetApply => true
  | .queueSample _ => true
  | .sampleWindowEnd _ => true
  | .slotMatch _ => true
  | .cellArrival _ _ _ _ _ _ => true
  | .cellAckReceive _ _ _ => true
  | .cellResendTimeout _ _ _ => true
  | .egressSelect _ _ => true
  | .urgentPromotion _ _ _ _ => true
  | .planeSymptom _ _ => true
  | .planeSelfCheck _ _ => true
  | .planeDown _ => true
  | .planeCheckEnd _ _ => true
  | .planeRejoinWrite _ => true
  | .planeRejoined _ => true
  | .loomLinkSymptom _ => true
  | .loomLinkDown _ => true
  | .loomLinkRetry _ => true
  | .loomLinkUp _ => true
  | .resumeComplete _ => true
  | .reservoirRefill _ _ _ _ _ _ _ => true
  | .auditPassStart => true
  | .auditRun => true
  | .auditWalkDone _ => true
  | .auditSweepDone => true
  | .ageCheck => true
  | .proxyRequest _ => true
  | .parkedTakeTracker _ => true
  | .directoryFill _ _ => true
  | .birspReceive _ => true
  | .holderWriteback _ => true
  | .biconflict _ => true
  | .proxyBackingResponse _ => true
  | .biTimeout _ u => portIn u
  | .sweepDone => true
  | .doorbell _ _ _ => true
  | .queueEnableWrite _ _ _ => true
  | .descriptorFetchDone _ => true
  | .descriptorDispatch => true
  | .lineIssue _ _ => true
  | .lineComplete _ => true
  | .migrationSpanOpen _ => true
  | .migrationSpanClose _ => true
  | .tokenRefill => true
  | .freezeComplete _ => true
  | .instanceResetWrite _ => true
  | .instanceResetComplete _ => true
  | .engineFault _ => true
  | .mboxT2oSend _ _ => true
  | .mboxO2tAck _ => true
  | .planLoadBegin r _ _ => reqIn r
  | .planLoadData r _ data => reqIn r && bytesIn data
  | .planCommit r _ => reqIn r
  | .planCommitComplete _ _ => true
  | .planAbort r _ => reqIn r
  | .planStatus r => reqIn r
  | .planApplyAlternate r _ => reqIn r
  | .planRestore r _ => reqIn r
  | .heddleRead r _ _ _ => reqIn r
  | .planActivation => true
  | .planPersist => true
  | .triggerLookup => true
  | .patchApplyDone => true
  | .alternateWeaveSwitch => true
  | .applyNoticeReceive _ _ => true
  | .restoreNoticeReceive _ _ => true
  | .stablePeriodExpiry => true
  | .alternateRestored => true
  | .heddleWordReload _ _ _ _ _ => true
  | .bindingRead r _ => reqIn r
  | .bindingActivate r _ => reqIn r
  | .bindingActivationBoundary => true
  | .bindingFreeze r _ => reqIn r
  | .bindingThaw r _ => reqIn r
  | .bindingDrain r _ _ => reqIn r
  | .bindingReattach r _ => reqIn r
  | .bindingSetHold r _ _ => reqIn r
  | .windowRead r _ _ => reqIn r
  | .decodeProbe r _ _ => reqIn r
  | .migrationStatus r _ => reqIn r
  | .holdExpired _ => true
  | .portSymptom u _ => portIn u
  | .portDownDeclare u => portIn u
  | .hostHotReset u => portIn u
  | .ideFail u => portIn u
  | .portL0Entry u _ _ _ _ _ => portIn u
  | .portConfirm u _ _ _ => portIn u
  | .confirmTimeout u => portIn u
  | .portTagTimeout u _ => portIn u
  | .retrainTimeout u => portIn u
  | .portCommandComplete u => portIn u
  | .portStatus r _ _ => reqIn r
  | .portAcceptIdentity r _ _ => reqIn r
  | .portRetrain r _ _ _ => reqIn r
  | .portDisable r _ _ => reqIn r
  | .portEnable r _ _ => reqIn r
  | .portCountersClear r _ _ => reqIn r
  | .slotControlWrite u _ _ => portIn u
  | .hdmDecoderWrite u _ _ _ => portIn u
  | .weftFlitSend _ => true
  | .weftFlitReceive _ _ _ rx => weftRxIn rx
  | .replayTimeout _ => true
  | .snapSend _ => true
  | .tsyncTimeSend _ => true
  | .timeInfoSend => true
  | .weftSymptom _ => true
  | .weftRelockDone _ => true
  | .weftDownDeclare _ => true
  | .weftTrainStep _ => true
  | .trainTimeout _ => true
  | .weftParamEnd _ => true
  | .weftTagTimeout _ _ => true
  | .weftCommandComplete _ => true
  | .weftStatus r _ => reqIn r
  | .weftConfig r _ _ _ _ _ _ _ _ => reqIn r
  | .weftAcceptIdentity r _ => reqIn r
  | .weftRetrain r _ => reqIn r
  | .weftDisable r _ => reqIn r
  | .weftEnable r _ => reqIn r
  | .weftCountersClear r _ => reqIn r
  | .refLost _ => true
  | .laneLossOfSignal lane => laneIn lane
  | .laneConverged lane _ _ _ _ _ => laneIn lane
  | .adaptAtLimit lane => laneIn lane
  | .l0pNarrow u _ => portIn u
  | .l0pWiden u _ => portIn u
  | .widenFail u _ => portIn u
  | .widenRetry u => portIn u
  | .testInject lane => laneIn lane
  | .laneMarginDone lane _ _ _ _ _ => laneIn lane
  | .laneStatus r _ => reqIn r
  | .lanePresetSet r _ => reqIn r
  | .laneTestStart r _ _ _ _ _ => reqIn r
  | .laneTestStop r _ _ => reqIn r
  | .laneMargin r _ _ _ _ => reqIn r
  | .lanePowerCfg r _ _ _ => reqIn r
  | .laneRefSelect r _ _ => reqIn r
  | .mailboxGo _ => true
  | .mailboxResponse _ => true
  | .mailboxDoneClear _ => true
  | .mctpPacketReceive t p => transportIn t && bytesIn p.bytes
  | .mctpControl t _ _ => transportIn t
  | .spdmRequest t _ _ => transportIn t
  | .hwResponderAnswer r _ => reqIn r
  | .pendingResult _ _ _ payload => bytesIn payload
  | .eventNoticeSend => true
  | .fwHang => true
  | .fwRestartDone => true
  | .makerLevelExpiry => true
  | .registerWrite _ size _ => accessIn size
  | .deviceIdentify r => reqIn r
  | .deviceStatus r => reqIn r
  | .resultFetch r _ => reqIn r
  | .eventRead r _ _ => reqIn r
  | .eventAck r _ => reqIn r
  | .eventSubscribe r _ _ => reqIn r
  | .dcwRead r _ _ => reqIn r
  | .dcwWrite r _ values => reqIn r && wordsIn values
  | .functionExpose r _ _ _ => reqIn r
  | .mctpBridgeSet r _ _ _ _ _ => reqIn r
  | .deviceReset r _ => reqIn r
  | .fmIdentifySwitchDevice q => transportIn q.t
  | .fmGetPhysicalPortState q us => transportIn q.t && portsIn us
  | .fmPhysicalPortControl q u _ => transportIn q.t && portIn u
  | .fmSendPpbConfigRequest q u _ _ _ => transportIn q.t && portIn u
  | .fmGetVirtualSwitchInfo q usp => transportIn q.t && portIn usp
  | .fmBindVppb q usp _ u _ _ => transportIn q.t && portIn usp && portIn u
  | .fmUnbindVppb q usp _ => transportIn q.t && portIn usp
  | .fmGenerateAerEvent q usp _ _ _ => transportIn q.t && portIn usp
  | .fmTunnelManagementCommand q u _ => transportIn q.t && portIn u
  | .fmSendLdConfigRequest q u _ _ _ _ => transportIn q.t && portIn u
  | .fmSendLdMemoryRequest q u _ _ _ data => transportIn q.t && portIn u && bytesIn data
  | .fmSetLdAllocations u _ sizes => portIn u && wordsIn sizes
  | .fmUnsupported q _ => transportIn q.t
  | .refSwitched _ => true
  | .timeOffsetMeasurement => true
  | .timeSourceChange => true
  | .timeSourceRevert => true
  | .tsyncInPulse _ => true
  | .tsyncOutPulse => true
  | .counterClear _ => true
  | .counterWindowEnd => true
  | .dumpLatch => true
  | .dumpHostWrite _ => true
  | .heatAgeSweep => true
  | .timeStatus r => reqIn r
  | .timeConfig r _ _ _ _ _ => reqIn r
  | .timeSet r _ => reqIn r
  | .csConfig r _ _ _ _ _ _ => reqIn r
  | .csRead r _ _ _ => reqIn r
  | .teleWindowArm r _ _ => reqIn r
  | .dumpConfig r _ _ _ _ _ _ => reqIn r
  | .dumpRead r _ _ _ _ => reqIn r
  | .heatConfig r _ _ => reqIn r
  | .heatRead r _ _ _ _ => reqIn r
  | .heatClear r _ _ => reqIn r
  | .heatClearDone => true
  | .traceConfig r _ _ _ _ _ _ _ _ _ _ => reqIn r
  | .traceRead r _ _ _ => reqIn r
  | .patrolScrubStep _ _ => true
  | .hbmWriteback _ => true
  | .rowRemapped _ => true
  | .remapLogAppend => true
  | .ifetchUe _ _ _ => true
  | .dsramUe _ _ => true
  | .channelRetrain _ _ _ => true
  | .stackLost _ _ => true
  | .faultOccurrence _ _ _ _ => true
  | .faultLogAppend => true
  | .autoExit _ _ => true
  | .faultAckWrite _ _ => true
  | .faultRead r _ _ => reqIn r
  | .faultList r _ _ => reqIn r
  | .faultAck r _ _ => reqIn r
  | .faultRelease r _ _ => reqIn r
  | .faultConfig r _ _ _ => reqIn r
  | .faultLogRead r _ _ => reqIn r
  | .injectMem r _ _ _ _ _ => reqIn r
  | .injectedWrite => true
  | .injectExpired => true
  | .injectRaise r _ _ _ _ => reqIn r
  | .injectStatus r => reqIn r
  | .domainIdleEntry _ _ => true
  | .domainWake _ => true
  | .domainRestoreStep _ _ => true
  | .retentionReloadDone _ => true
  | .wakeTimeout _ => true
  | .bankWake _ => true
  | .dozeAutoAttempt => true
  | .entryStage => true
  | .wakeSource _ _ => true
  | .gpioEdge _ _ => true
  | .alarm => true
  | .exitComplete _ => true
  | .avsPoll _ _ _ => true
  | .avsTimeout _ => true
  | .avsExitRetry _ => true
  | .railMonitor _ _ _ => true
  | .standbyFinalStage => true
  | .powerStatus r => reqIn r
  | .powerStateSet r _ => reqIn r
  | .powerDomainRead r _ => reqIn r
  | .powerTimerSet r _ _ _ _ _ => reqIn r
  | .powerWakeCfg r _ _ _ _ _ => reqIn r
  | .longPinChange slot _ => slotIn slot
  | .shortPinClose slot => slotIn slot
  | .debounceEnd slot => slotIn slot
  | .rampStart slot => slotIn slot
  | .pgQualify slot _ => slotIn slot
  | .pgAssert slot => slotIn slot
  | .perstRelease slot => slotIn slot
  | .currentLimit slot _ => slotIn slot
  | .breakerTrip slot => slotIn slot
  | .fastTrip slot _ => slotIn slot
  | .rampFail slot => slotIn slot
  | .retryTimerExpiry slot => slotIn slot
  | .shortPinOpen slot => slotIn slot
  | .retryCountClear slot => slotIn slot
  | .gateOffDelay slot => slotIn slot
  | .decayEnd slot _ => slotIn slot
  | .fetDamage slot _ => slotIn slot
  | .busOv _ => true
  | .busOvRecover _ => true
  | .busUv _ => true
  | .buttonPressed slot => slotIn slot
  | .buttonToggleExpiry slot => slotIn slot
  | .gateCtlWrite slot _ => slotIn slot
  | .slotLockWrite slot => slotIn slot
  | .vselLost => true
  | .vselRestored _ => true
  | .slotStatus r _ => reqIn r
  | .slotPower r _ _ _ => reqIn r
  | .slotConfig r _ _ _ _ => reqIn r
  | .slotIndicator r _ _ _ _ => reqIn r
  | .slotClear r _ _ => reqIn r
  | .slotPerst r _ _ => reqIn r
  | .sealStatus r => reqIn r
  | .sealNonce r _ => reqIn r
  | .nonceExpiry => true
  | .lcTransition r _ _ _ => reqIn r
  | .lifecycleReset _ => true
  | .ownerClaim r _ _ _ => reqIn r
  | .makerUnlock r _ _ => reqIn r
  | .makerRelinquish r => reqIn r
  | .planKeyInstall r _ _ _ _ => reqIn r
  | .planKeyRevoke r _ _ _ => reqIn r
  | .debugConfig r _ => reqIn r
  | .colophonRead r _ _ => reqIn r
  | .colophonQuote r _ => reqIn r
  | .certRead r _ _ _ => reqIn r
  | .makerProvision r chain _ => reqIn r && bytesIn chain
  | .deviceCertInstall r chain => reqIn r && bytesIn chain
  | .colophonAppendDone _ => true
  | .entropyFail => true
  | .deviceMeasurement u => portIn u
  | .deviceMeasurementDone u _ _ => portIn u
  | .coldReset _ => true
  | .warmReset _ => true
  | .hbmReady _ => true
  | .bootTimeWaitExpiry => true
  | .persistedPlanCommit _ _ => true
  | .imageWrite r _ _ data => reqIn r && bytesIn data
  | .imageSelect r _ _ => reqIn r
  | .vaonLoss => true
  | .thermalSample _ _ _ _ _ => true
  | .instanceConfig r _ _ _ _ _ _ _ => reqIn r
  | .instanceRead r _ => reqIn r
  | .instanceEnable r _ => reqIn r
  | .instanceReset r _ _ => reqIn r
  | .instanceFreeze r _ => reqIn r
  | .instanceThaw r _ _ => reqIn r
  | .instanceSave r _ => reqIn r
  | .instanceRestore r _ blob => reqIn r && bytesIn blob
  | .instanceSetShare r _ _ _ => reqIn r
  | .mboxRead r _ => reqIn r
  | .mboxSend r _ _ data => reqIn r && bytesIn data
  | .engineStatus r _ => reqIn r
  | .trafBindingRead r _ => reqIn r
  | .trafBindingSet r _ _ => reqIn r
  | .trafXpRead r _ => reqIn r
  | .trafXpSet r _ _ => reqIn r
  | .trafCountersClear r _ => reqIn r
  | .protEntryRead r _ _ => reqIn r
  | .protEntrySet r _ _ => reqIn r
  | .protLock r _ _ => reqIn r
  | .protFence r _ => reqIn r
  | .protViolRead r => reqIn r
  | .protViolClear r => reqIn r
  | .protFenceTimeout _ => true
  | .violValidClear => true
  | .protEntryReloaded _ => true
  | .upHoldExpired u => portIn u
  | .loomLinkRecovery _ => true
  | .receiverDetect u => portIn u
  | .replayWaitLimit _ => true
  | .l0pNarrowRequest u => portIn u
  | .aspmL1Entry u _ => portIn u
  | .aspmL1Exit u => portIn u
  | .testCheckerLock lane => laneIn lane
  | .testCheckerLockLost lane _ => laneIn lane
  | .refRestored _ => true
  | .ref25Restored _ => true
  | .dumpWriteDone => true
  | .dumpHostWriteDone => true
  | .heatSweepDone => true
  | .restorationRewriteDone => true
  | .bayWakeChange slot _ => slotIn slot
  | .breakerTimerClear slot _ => slotIn slot
  | .powerGoodDrop slot _ => slotIn slot
  | .busUvRecover _ => true
  | .vaonRestored _ => true

end Sys2Proof
end

