-- ==== Sys2Proof/Tests/Slice0.lean ====
section
/-! SUPPORT. Tests: an ill-formed command for each check of WellFormed, the queue, worked examples of the spec, and for
each statement with hypotheses the states and operands that meet them. -/

namespace Sys2Proof.Tests

open Sys2Proof Sys2Proof.Machine

set_option Elab.async false

/-! ## Well-formed commands -/

/-- Logical port 96 does not exist; 95 does. -/
theorem test_port_range : (Instr.hostHotReset 96).wellFormed = false ∧ (Instr.hostHotReset 95).wellFormed = true := by
  decide

/-- Lane 416 does not exist; 415 does. -/
theorem test_lane_range : (Instr.testInject 416).wellFormed = false ∧ (Instr.testInject 415).wellFormed = true := by
  decide

/-- Slot 24 does not exist; 23 does. -/
theorem test_slot_range : (Instr.buttonPressed 24).wellFormed = false ∧ (Instr.buttonPressed 23).wellFormed = true := by
  decide

/-- A transport on logical port 127 does not exist. -/
theorem test_transport_range :
    (Instr.fmIdentifySwitchDevice { t := .vdm 127, eid := 8 }).wellFormed = false
      ∧ (Instr.fmIdentifySwitchDevice { t := .vdm 0, eid := 8 }).wellFormed = true := by decide

/-- Nor does a requester behind it. -/
theorem test_requester_range :
    (Instr.sealStatus { src := .mctp (.vdm 127) 8, tag := 1 }).wellFormed = false
      ∧ (Instr.sealStatus { src := .mailbox 3, tag := 1 }).wellFormed = true := by decide

/-- Symbols of a Weft link come on four lanes. -/
theorem test_lane_count :
    (Instr.weftFlitReceive 0 0 0 (.line [[]] [])).wellFormed = false
      ∧ (Instr.weftFlitReceive 0 0 0 (.line [[], [], [], []] [])).wellFormed = true := by decide

/-- An access to the window has one of seven sizes. -/
theorem test_access_size :
    (Instr.registerWrite 0 3 0).wellFormed = false ∧ (Instr.registerWrite 0 8 0).wellFormed = true := by decide

/-- A payload longer than the largest request is refused. -/
theorem test_payload_length (l : List Byte) (h : l.length = 32753) : bytesIn l = false ∧ bytesIn (l.drop 1) = true := by
  unfold bytesIn
  rw [List.length_drop, h]
  decide

/-- A list of words longer than the largest request is refused. -/
theorem test_words_length (l : List (BitVec 64)) (h : l.length = 4095) :
    wordsIn l = false ∧ wordsIn (l.drop 1) = true := by
  unfold wordsIn
  rw [List.length_drop, h]
  decide

/-- A list that names a port that does not exist is refused, and so is one of 256 ports. -/
theorem test_ports_listed (l : List (BitVec 7)) (h : l.length = 256) :
    portsIn [0, 96] = false ∧ portsIn [0, 95] = true ∧ portsIn l = false := by
  refine ⟨by decide, by decide, ?_⟩
  unfold portsIn
  rw [h]
  rfl

/-! ## The queue -/

/-- First in, first out: the second command waits while the first runs. -/
theorem test_step_takes_the_front :
    (match step { State.reset with pending := [.dumpHostWriteDone, .alarm] } with
      | .next t => decide (t.pending = [.alarm])
      | _ => false) = true := by decide +kernel

/-- On an empty queue fabric time moves on by one tick. -/
theorem test_step_ticks :
    (match step State.reset with
      | .next t => decide (t.tele.time = 1 ∧ t.aon = 1)
      | _ => false) = true := by decide +kernel

/-! ## Worked examples of the spec -/

/-- A word written at its default leaves the table. -/
theorem test_table_default_leaves : tabSet 0 [(3, 5), (7, 9)] 3 0 = [(7, 9)] ∧ tabWf 0 [(3, 5), (7, 9)] = true := by decide

/-- 13, a plan commit: the first frame boundary after 2,000,000,000 is 2,000,003,072. -/
theorem test_next_frame : nextFrame 2000000000 = 2000003072 := by decide

/-- 06, homing one line: slice 3, stack B, set 0x15ACB7, tag 0x0C0E and coarse region 197,526 on FB. -/
theorem test_homing_one_line :
    saSlice 0x0C0E5ABCDE40#48 = 3 ∧ homeB 0x0C0E5ABCDE40#48 = true
      ∧ sfSet State.reset 0x0C0E5ABCDE40#48 = 0x15ACB7 ∧ sfTag State.reset 0x0C0E5ABCDE40#48 = 0x0C0E
      ∧ regionOf 0x0C0E5ABCDE40#48 = 197526 := by decide +kernel

/-- 06, homing one line: set 0xAD65B and tag 0x10C0E on HB. -/
theorem test_homing_one_line_hb :
    sfSet { State.reset with boot := { State.reset.boot with hb := true } } 0x0C0E5ABCDE40#48 = 0xAD65B
      ∧ sfTag { State.reset with boot := { State.reset.boot with hb := true } } 0x0C0E5ABCDE40#48 = 0x10C0E := by
  decide +kernel

/-- Occurrences of WEFT-0x0001 at weft 3. -/
def flaps : Nat → State
  | 0 => State.reset
  | n + 1 => raise 1 1 (source 2 3) 0 (flaps n)

/-- 16, a flapping Weft link: first at level 1 with source 0x2003, then at level 2, isolated. -/
theorem test_flapping_link :
    (faultRec (flaps 1).fault 0x101).level = 1 ∧ (faultRec (flaps 1).fault 0x101).source = 0x2003
      ∧ (faultRec (flaps 1).fault 0x101).isolated = false ∧ (faultRec (flaps 2).fault 0x101).level = 2
      ∧ (faultRec (flaps 2).fault 0x101).isolated = true ∧ (faultRec (flaps 2).fault 0x101).escalated = true := by
  decide +kernel

/-- 16, a flapping Weft link: the third occurrence queues no event, for the level does not rise. -/
theorem test_flapping_link_events :
    (flaps 2).mgmt.events.length = 2 ∧ (flaps 3).mgmt.events.length = 2
      ∧ (faultRec (flaps 3).fault 0x101).count = 3 := by decide +kernel

/-- 14, one offset measurement: 30 ticks, on a path of 820 ticks. -/
theorem test_offset_measurement : ((850 : Int) - 790).tdiv 2 = 30 ∧ ((850 : Int) + 790).tdiv 2 = 820 := by decide

/-- 21, the ball map: the four balls of lane 100 and of wlane 9. -/
theorem test_ball_map :
    ballAt 17 90 = .cx .txp 100 ∧ ballAt 17 89 = .cx .txn 100 ∧ ballAt 17 84 = .cx .rxp 100
      ∧ ballAt 17 83 = .cx .rxn 100 ∧ ballAt 36 87 = .weft .txp 9 ∧ ballAt 36 86 = .weft .txn 9
      ∧ ballAt 36 81 = .weft .rxp 9 ∧ ballAt 36 80 = .weft .rxn 9 := by decide +kernel

/-- A start slot and the slots behind it. -/
def slotRun (vc : BitVec 3) (n : Nat) : List WSlot :=
  .start vc (vc0Msg .memRd 0 0 0) n :: List.replicate (n - 1) (.cont vc 0)

/-- 11, encoding one flit: the two words of its header. -/
theorem test_flit_header :
    flitHeader 0x4B 0x0A5 0x3C2 true false false (slotRun 1 2 ++ slotRun 2 5)
      = (0x0000000004924480#64 ++ 0x00A003F93C20A54B#64) := by decide +kernel

/-- 11, encoding one flit: its trailer, but for the CRC. -/
theorem test_flit_trailer : flitTrailer (some (2, 0x1234)) (some (1, 0x0A0B)) .none = 0x00000003505991A2 := by
  decide +kernel

/-! ## Witnesses -/

/-- The requester behind mailbox 0. -/
def r0 : Req := { src := .mailbox 0, tag := 7 }

/-- A device in RUN with firmware running and a plan's life-cycle state OWNED. -/
def base : State :=
  { State.reset with
    boot := { State.reset.boot with stage := 4, held := false }
    mgmt := { State.reset.mgmt with fw := .running }
    sealu := { State.reset.sealu with lc := .owned }
    pmu := { State.reset.pmu with st := .run } }

/-- `s` with the command of opcode `op` and payload `p` accepted in mailbox 0. -/
def asked (op : Nat) (p : List Byte) (s : State) : State :=
  setMbx 0 { mbx s 0 with busy := true, accepted := some (BitVec.ofNat 16 op, 7, p) } s

/-- The checks that stand before a command's body, as one decidable test. -/
def ready0 (op : Nat) (maker : Bool) (p : List Byte) (s : State) : Bool :=
  let t := asked op p s
  decide (op < 65536) && !t.boot.held && decide (t.boot.stage ≠ 7) && decide (t.pmu.st = .run) && !t.pmu.entering
    && !t.pmu.rolling && decide (t.mgmt.fw = .running) && (gate op maker r0 t).isNone && t.fault.todo.isEmpty

/-- A table reads back a value written that is not the default. -/
theorem tabGet_tabSet_ne {α : Type} [DecidableEq α] {d v : α} (h : v ≠ d) (t : Tab α) (k : Nat) :
    tabGet d (tabSet d t k v) k = v := by
  unfold tabSet
  rw [if_neg h]
  exact tabGet_tabPut_same d v k t

/-- What was asked is the command in hand. -/
theorem asked_inHand {op : Nat} (ho : op < 65536) (p : List Byte) (s : State) : inHand r0 op p (asked op p s) = true := by
  have h : mbx (asked op p s) 0 = { mbx s 0 with busy := true, accepted := some (BitVec.ofNat 16 op, 7, p) } := by
    exact tabGet_tabSet_ne (fun h => by cases congrArg Mailbox.accepted h) _ _
  simp [inHand, r0, h, sameCmd]
  omega

theorem asked_serves {op : Nat} {maker : Bool} {p : List Byte} {s : State} (h : ready0 op maker p s = true) :
    serves op maker r0 p (asked op p s) := by
  simp only [ready0, Bool.and_eq_true, Bool.not_eq_true', decide_eq_true_eq, Option.isNone_iff_eq_none,
    List.isEmpty_iff] at h
  obtain ⟨⟨⟨⟨⟨⟨⟨⟨h0, h1⟩, h2⟩, h4⟩, h5⟩, h6⟩, h7⟩, h8⟩, h9⟩ := h
  exact ⟨h1, h2, asked_inHand h0 p s, h4, h5, h6, h7, h8, h9⟩

/-- The message that a management function sends. -/
def m0 : Msg := vc0Msg .memRd 0 0 0

/-- A message waits in the receive buffer of input 0. -/
def xw : State := { base with xbar := { base.xbar with rx := [(0, [{ msg := m0, outXp := 3 }])] } }

theorem xw_placed : (tryPlace 3 m0 xw).1.isSome = true := by decide +kernel

/-- A cell in flight. -/
def u0 : Unacked :=
  { seq := 0, cellId := 0, msg := m0, idx := 0, total := 1, stamp := 0, urg := false, plane := 0, lostOn := 0, sentAt := 0
    resends := 0, flying := true, due := false, acked := false }

/-- A request of host port 6 for line 0 that has crossed to the proxy's first xp. -/
def xe (o : Op) : EMsg :=
  { msg := { m0 with op := o, mclass := 1, req := .host 6, sa := 0 }, got := 1, total := 1, stamp := 0
    poison := false, bad := false }

/-- Slice 0 is ON and `xe o` stands at its xp. -/
def xpx (o : Op) : State :=
  setDomain 191 { domain base 191 with st := .on, step := 0 } (setDomain 192 { domain base 192 with st := .on, step := 0 }
    (setOutput 56 { output base 56 with staging := [(1, [xe o])] } base))

/-- A tracker of line 0. -/
def xt (g : TrkStage) : Tracker :=
  { req := { m0 with req := .host 6 }, stage := g, round := .none, waiting := [], snooped := [], answer := 0
    broadcast := false, known := false }

/-- A BIRspI of host port 6 for line 0. -/
def xb : EMsg :=
  { msg := { m0 with op := .birspI, mclass := 4, req := .slice 0 0, feid := 6 }, got := 1, total := 1, stamp := 0
    poison := false, bad := false }

/-- Slice 0's round waits for two answers, and one has come. -/
def xbi : State :=
  setOutput 56 { output base 56 with staging := [(4, [xb])] }
    (setSlice 0 { slice base 0 with trackers := [{ xt .snoop with waiting := [(6, 0), (8, 0)] }] } base)

/-- A backing device has answered slice 0. -/
def xback (t : BitVec 16) : State :=
  { setSlice 0 { slice base 0 with trackers := [xt .backing] } base with
    proxy := { (setSlice 0 { slice base 0 with trackers := [xt .backing] } base).proxy with
      back := [({ m0 with op := if t = 0 then .memData else .cmp, req := .slice 0 0, tag := t }, false)] } }

/-- A shaper list with one request, its bucket full enough. -/
def xshape : State :=
  let s := setMeter 0 { meter base 0 with list := [{ msg := m0, outXp := 3 }], ts := some 1000000 } base
  { s with plan := { s.plan with active := { s.plan.active with
      traffic := [(0, BitVec.ofNat 512 (2 ^ 233 + 1000 * 2 ^ 128))] } } }

/-- A descriptor at index 0 of queue 0 of instance 0. -/
def xd (g : DescStage) : Desc :=
  { inst := 0, q := 0, index := 0, raw := 0, stage := g, engine := 0, order := 1, next := 0, done := 0, flight := []
    status := 0, detail := 0, halted := false, slot := none, first := 0 }

/-- A FILL descriptor of one line. -/
def xraw : BitVec 512 := BitVec.ofNat 512 (2 + 64 * 2 ^ 32)

/-- A state blob of an instance without bindings, but for its crc. -/
def xbody : List Byte := wBytes 4 0x4C424353#32 ++ leBytes 2 1 ++ zeros 4086

/-- A state blob of an instance without bindings. -/
def xblob : List Byte := xbody ++ wBytes 4 0xe5231c00#32

/-- `k` at a number that the kernel has evaluated. -/
def force {α : Type} (c : Nat) (k : Nat → α) : α :=
  match c with
  | 0 => k 0
  | n + 1 => k (n + 1)

theorem force_eq {α : Type} (c : Nat) (k : Nat → α) : force c k = k c := by cases c <;> rfl

/-- The running CRC as a number, evaluated byte by byte. -/
def crcRun : List Byte → Nat → Nat
  | [], c => c
  | b :: l, c => force (crcByte (BitVec.ofNat 32 c) b).toNat (crcRun l)

theorem crcRun_eq (l : List Byte) (c : BitVec 32) : crcRun l c.toNat = (l.foldl crcByte c).toNat := by
  induction l generalizing c with
  | nil => rfl
  | cons b l ih => simp [crcRun, force_eq, ih]

theorem xbody_crc : crc32 xbody = 0xe5231c00#32 := by
  have h : crcRun xbody (0xFFFFFFFF#32).toNat = (~~~ 0xe5231c00#32).toNat := by decide +kernel
  rw [crcRun_eq] at h
  rw [crc32, BitVec.eq_of_toNat_eq h, BitVec.not_not]

theorem xblob_ok : blobOk xblob = true := by
  have h : xblob.take 0xFFC = xbody := List.take_left' (by decide +kernel)
  have h1 : leAt xblob 0xFFC 4 = (0xe5231c00#32).toNat := by decide +kernel
  rw [blobOk, h, xbody_crc, h1]
  decide +kernel

/-- A link of the chain entered through a trigger. -/
def xlink : ChainLink := { set := 0, cls := 0, index := 0, notice := none, byCommand := false, upSince := none }

/-- An alternate set whose restore mode is 1 and whose parent is set 0. -/
def xset : AltSet := { desc := BitVec.ofNat 256 (2 ^ 32 + 7 * 2 ^ 64), patches := [], hasWeave := false, weave := [], triggers := [] }

/-- A plan with set 1 beside set 0. -/
def xalt : State := { base with plan := { base.plan with active := { base.plan.active with alts := [xset, xset] } } }

/-- Set 1 is current, and its resource is up. -/
def xstable : State := { xalt with plan := { xalt.plan with chain := [{ xlink with set := 1, upSince := some 0 }] } }

/-- A vPPB is bound to logical port 0. -/
def xvppb : State :=
  { base with mgmt := { base.mgmt with vppbs := [(0, some { port := 0, ld := none, cache := false, owner := false })] } }

/-- A board table with one empty section. -/
def xtable : List Byte :=
  wBytes 4 0x4C425442#32 ++ leBytes 2 1 ++ leBytes 2 1 ++ leBytes 4 48 ++ leBytes 4 32 ++ zeros 12
    ++ leBytes 4 0xbf4680e ++ leBytes 2 1 ++ zeros 14

/-- Record 0x0005 has an occurrence of this very clock. -/
def xclk : State :=
  let r := { FaultRec.init with valid := true, count := 2, lastFull := base.tele.time, clkCount := 1 }
  { base with fault := setFaultRec base.fault 5 r }

/-- A token of a kind and signer with its argument, under nonce 5. -/
def tok (kind signer : BitVec 8) (arg : BitVec 512) : Token :=
  { magic := 0x4E4B4F54, version := 1, kind := kind, signer := signer, serial := 0, nonce := 5, arg := arg
    reserved := 0, r := 0, s := 0 }

/-- A P-384 key: the curve's generator as an uncompressed point. -/
def xkey : BitVec 776 :=
  BitVec.ofNat 776
    0x5f0eea907c1d437a9d817e1dceb1600ac0b8f0b51331dae97c149a28bd1df4f829dc9292bf989e5d6f2c26964ade1736b70a7672385e543a6c2955bf5df20255382a5482e041f759989ba78b623b1d6e74ad20f31ec7b18e37058bbe22ca87aa04

/-- A life-cycle state in which nonce 5 is live. -/
def xtok (l : Lc) : State :=
  { base with sealu := { base.sealu with lc := l, nonce := some (5, 1000) } }

/-- A BLANK device. -/
def baseMaker : State := { base with sealu := { base.sealu with lc := .blank } }

/-- A device in MAKER whose requester on mailbox 0 holds maker level. -/
def baseMk : State :=
  { base with sealu := { base.sealu with lc := .maker }, mgmt := { base.mgmt with maker := some r0.src } }

/-- An exit from DOZE with every rail up and no domain to bring back. -/
def xdoze : State :=
  { base with pmu := { base.pmu with
      exiting := true, st := .doze, rails := (List.range 4).map fun i => (i, { Rail.init with target := Config.fusedMv i }) } }

/-- What the surroundings of a boot give. -/
def bi : BootIn :=
  { pin := true, powerOn := false, addr := 0, recovery := false, planHold := false, ref25 := 3, refs := 7
    entropyOk := true, railsOk := true, keyStoreOk := true, ringBad := [], appendOk := true, seated := 0 }

/-- What a measurement finds. -/
def xmeas : Measured :=
  { spdm := true, timely := true, sigOk := true, subject := 1, cert := 2, version := 0, vendor := 0, device := 0
    count := 1 }

/-- The boot ROM waits for a recovery image, and a command of opcode `op` and payload `p` is in hand on I3C port 0. -/
def xrom (op : Nat) (p : List Byte) : State :=
  { base with
    boot := { base.boot with stage := 7 }
    mgmt := { base.mgmt with mctpWait := [{ src := .i3c 0, eid := 8, mtag := 0, opcode := BitVec.ofNat 16 op,
                                            tag := 7, payload := p }] } }

/-- The requester on I3C port 0. -/
def r1 : Req := { src := .mctp (.i3c 0) 8, tag := 7 }

/-- Lane 0 carries traffic with a preset in force. -/
def xlane : State := setLane 0 { lane base 0 with preset := some 0, st := .l0 } base

/-- Logical port 0 is UP at two lanes as a DSP whose record allows L0p and ASPM L1. -/
def xport : State :=
  { setPort 0 { port base 0 with st := .up, inL0 := true, flit256 := true, trained := 2, role := 2 } base with
    plan := { base.plan with hasPlan := true, active := { base.plan.active with port := [(0, BitVec.ofNat 256 (1 + 31 * 2 ^ 32 + 5 * 2 ^ 64))] } } }

/-- The same port on fewer lanes than it trained. -/
def xnarrow : State := setPort 0 { port xport 0 with l0p := true } xport

/-- Lane 0 runs a test in a mode. -/
def xtest (m : BitVec 3) : State := setLane 0 { lane base 0 with st := .test, testing := true, mode := m } base

/-- A component on I3C port 0. -/
def f0 : FmSrc := { t := .i3c 0, eid := 8 }

/-- Logical port 0 is a USP and logical port 2 a DSP. -/
def xswitch : State := setPort 2 { port base 2 with role := 2 } (setPort 0 { port base 0 with role := 1 } base)

/-- Logical port 0 is in CONFIRM as a DSP whose record asks for IDE. -/
def xide : State :=
  setPort 0 { port base 0 with st := .confirm, inL0 := true, role := 2 }
    { base with plan := { base.plan with hasPlan := true, active := { base.plan.active with
        port := [(0, BitVec.ofNat 256 (1 + 31 * 2 ^ 32))] } } }

/-- Logical port 0 is UP with an MLD. -/
def xmld : State := setPort 0 { port xport 0 with mld := true } xport

/-- Weft link 0 is in a state. -/
def xweft (st : WeftSt) : State := setWeft 0 { weft base 0 with st := st } base

/-- A flit that carries nothing. -/
def xflit : WFlit :=
  { seq := none, ack := 0, ackV := false, nak := false, replay := false, slots := [], badStart := false, cr0 := none
    cr1 := none, side := .none }

/-- What a partner's TRAIN flits say. -/
def xpeer : WeftPeer :=
  { serial := 5, session := 9, link := 2, vcCount := 2, fec := false, rxNext := 0, rxValid := false, vcSlots := []
    freed := [] }

/-- Weft link 0 in EQUALIZE with every lane converged. -/
def xconverged : State :=
  (weftLanes 0).foldl (fun s l => setLane l { lane s l with converged := true } s)
    (setDomain 152 { domain base 152 with st := .on, step := 0 } (xweft .equalize))

/-- Logical port 0 is UP and in L0 as a host's. -/
def xhost : State := setPort 0 { port base 0 with st := .up, inL0 := true, role := 1 } base

/-- The domain of physical port 0 is ON, and its record names no slot. -/
def xready : State :=
  setDomain 104 { domain xport 104 with st := .on, step := 0 }
    { xport with plan := { xport.plan with active := { xport.plan.active with
        port := [(0, BitVec.ofNat 256 (1 + 31 * 2 ^ 32 + 255 * 2 ^ 48))] } } }

/-- LOCAL is the first candidate, and no source is in use. -/
def xsource : State := { base with tele := { base.tele with sources := [(0, 1)] } }

/-- LOCAL is in use while TSYNC, above it, is valid. -/
def xbetter : State :=
  { base with tele := { base.tele with
      source := 1, sources := [(0, 2), (1, 1)], tsyncAt := some 0, betterSince := some 0, revertS := 0 } }


/-- The record of PORT-0x0010 isolates logical port 0. -/
def xisolated : State :=
  { base with fault := { base.fault with recs := [(16, { FaultRec.init with
      valid := true, count := 1, level := 2, isolated := true, source := 0x1000, sources := [0x10000] })] } }

/-- An inversion is armed for SRAM of type 0. -/
def xarmed : State := { base with mem := { base.mem with inj := .armed, injUntil := 1000 } }

/-- Every power domain is ON. -/
def xlit : State := { base with pmu := { base.pmu with doms := [] } }

theorem xlit_lit (d : Nat) : domainDark xlit d = false := rfl

/-- Every bank is OFF. -/
def xbanks : State :=
  { base with pmu := { base.pmu with doms := (List.range 16).map fun i => (170 + i, { Domain.init with st := .off }) } }

/-- `n` records of the event queue. -/
def xevents (n : Nat) : List Event := (List.range n).map fun i => { seq := BitVec.ofNat 32 i, type := 7, stamp := 0, data := 1 }

theorem xevents_length (n : Nat) : (xevents n).length = n := by simp [xevents]

/-- The event queue holds `n` records. -/
def xfull (n : Nat) : State := { base with mgmt := { base.mgmt with events := xevents n } }

theorem xfull_length (n : Nat) : (xfull n).mgmt.events.length = n := xevents_length n

/-- The hypotheses of every clause of `Obligations.StepRunsTheFrontCommand` are met. -/
theorem wit_StepRunsTheFrontCommand :
  (∃ (c : Instr) (q : List Instr) (s : State),
    s.pending = c :: q) := by
  refine ⟨.dumpHostWriteDone, [], { base with pending := [.dumpHostWriteDone] }, ?_⟩ <;> first | decide +kernel | rfl

/-- The hypotheses of every clause of `Obligations.EmptyQueueIsOneTick` are met. -/
theorem wit_EmptyQueueIsOneTick :
  (∃ (s : State),
    s.pending = [] ∧ s.boot.held = true) ∧
  (∃ (s : State),
    s.pending = [] ∧ s.boot.held = false ∧ s.mgmt.fw ≠ .running) ∧
  (∃ (s : State),
    s.pending = [] ∧ s.boot.held = false ∧ s.mgmt.fw = .running) := by
  refine ⟨?_, ?_, ?_⟩
  · refine ⟨{ base with boot := { base.boot with held := true } }, ?_, ?_⟩ <;> first | decide +kernel | rfl
  · refine ⟨State.reset, ?_, ?_, ?_⟩ <;> first | decide +kernel | rfl
  · refine ⟨base, ?_, ?_, ?_⟩ <;> first | decide +kernel | rfl




/-- The hypotheses of every clause of `Obligations.EveryStepLeavesNoReactionWaiting` are met. -/
theorem wit_EveryStepLeavesNoReactionWaiting :
  (∃ (s t : State),
    settled s ∧ step s = .next t) := by
  refine ⟨base, tick base, ?_, rfl⟩ <;> first | decide +kernel | rfl


/-- The hypotheses of every clause of `Obligations.AcknowledgementFreesTheRecord` are met. -/
theorem wit_AcknowledgementFreesTheRecord :
  (∃ (b : BitVec 5) (c : BitVec 8) (k : Nat) (s : State),
    b.toNat < 20 ∧ c ≠ 0 ∧ k = b.toNat * 256 + c.toNat ∧ settled s ∧ (faultRec s.fault k).isolated = false ∧
    ((faultRec s.fault k).valid = false ∨ (faultRec s.fault k).lastFull ≠ s.tele.time ∨ (faultRec s.fault
    k).clkCount = 0)) ∧
  (∃ (b : BitVec 5) (c : BitVec 8) (k : Nat) (s : State),
    b.toNat < 20 ∧ c ≠ 0 ∧ k = b.toNat * 256 + c.toNat ∧ settled s ∧ (faultRec s.fault k).isolated = false ∧
    (faultRec s.fault k).valid = true ∧ (faultRec s.fault k).lastFull = s.tele.time ∧
    (faultRec s.fault k).clkCount ≠ 0) ∧
  (∃ (r : Req) (b c : BitVec 8) (k : Nat) (s : State),
    serves 0x0B03 false r (wBytes 1 b ++ wBytes 1 c) s ∧ b.toNat < 20 ∧ c ≠ 0 ∧ k = b.toNat * 256 + c.toNat ∧
    (faultRec s.fault k).isolated = false ∧
    ((faultRec s.fault k).valid = false ∨ (faultRec s.fault k).lastFull ≠ s.tele.time ∨ (faultRec s.fault
    k).clkCount = 0)) ∧
  (∃ (b : BitVec 5) (c : BitVec 8) (s : State),
    b.toNat < 20 ∧ c ≠ 0 ∧ settled s ∧ (faultRec s.fault (b.toNat * 256 + c.toNat)).isolated = true) ∧
  (∃ (r : Req) (b c : BitVec 8) (s : State),
    serves 0x0B03 false r (wBytes 1 b ++ wBytes 1 c) s ∧ b.toNat < 20 ∧ c ≠ 0 ∧
    (faultRec s.fault (b.toNat * 256 + c.toNat)).isolated = true) ∧
  (∃ (b c : Nat) (src : BitVec 32) (detail : BitVec 64) (s : State),
    c < 256 ∧ s.mgmt.events.length < 4095 ∧ (faultRec s.fault (b * 256 + c)).isolated = false ∧
    ((faultRec s.fault (b * 256 + c)).valid = false ∨ (faultRec s.fault (b * 256 + c)).lastFull ≠ s.tele.time ∨
    (faultRec s.fault (b * 256 + c)).clkCount = 0)) := by
  refine ⟨?_, ?_, ?_, ?_, ?_, ?_⟩
  · refine ⟨0#5, 16#8, 16,
      { base with fault := { base.fault with recs := [(16, { FaultRec.init with valid := true, count := 3 })] } },
      ?_, ?_, ?_, ?_, ?_, ?_⟩ <;> first | decide +kernel | rfl
  · refine ⟨0#5, 16#8, 16,
      { base with
        fault :=
          { base.fault with recs := [(16, { FaultRec.init with valid := true, count := 3, clkCount := 1 })] } },
      ?_, ?_, ?_, ?_, ?_, ?_, ?_, ?_⟩ <;> first | decide +kernel | rfl
  · refine ⟨r0, 0#8, 16#8, 16,
      asked 0x0B03 (wBytes 1 0#8 ++ wBytes 1 16#8) ({ base with
        fault := { base.fault with recs := [(16, { FaultRec.init with valid := true, count := 3 })] } }),
      asked_serves ?_, ?_, ?_, ?_, ?_, ?_⟩ <;> first | decide +kernel | rfl
  · refine ⟨0#5, 16#8, xisolated, ?_, ?_, ?_, ?_⟩ <;> first | decide +kernel | rfl
  · refine ⟨r0, 0#8, 16#8, asked 0x0B03 (wBytes 1 0#8 ++ wBytes 1 16#8) xisolated, asked_serves ?_, ?_, ?_, ?_⟩ <;> first | decide +kernel | rfl
  · refine ⟨0, 16, 0#32, 0#64,
      { base with fault := { base.fault with recs := [(16, { FaultRec.init with valid := true, count := 3 })] } },
      ?_, ?_, ?_, ?_⟩ <;> first | decide +kernel | rfl

/-- The hypotheses of every clause of `Obligations.ReadsChangeOnlyTheirAnswer` are met. -/
theorem wit_ReadsChangeOnlyTheirAnswer :
  (∃ (r : Req) (s : State),
    serves 0x0101 false r [] s) ∧
  (∃ (r : Req) (s : State),
    serves 0x0102 false r [] s) ∧
  (∃ (r : Req) (f : BitVec 32) (k : BitVec 16) (s : State),
    serves 0x0104 false r (wBytes 4 f ++ wBytes 2 k ++ zeros 2) s) ∧
  (∃ (r : Req) (s : State),
    serves 0x0205 false r [] s) ∧
  (∃ (r : Req) (b : BitVec 16) (s : State),
    serves 0x0301 false r (wBytes 2 b) s) ∧
  (∃ (r : Req) (p h : BitVec 8) (s : State),
    serves 0x0401 false r (wBytes 1 p ++ wBytes 1 h) s) ∧
  (∃ (r : Req) (l : BitVec 8) (s : State),
    serves 0x0501 false r (wBytes 1 l) s) ∧
  (∃ (r : Req) (l : BitVec 16) (s : State),
    serves 0x0601 false r (wBytes 2 l) s) ∧
  (∃ (r : Req) (b c : BitVec 8) (s : State),
    serves 0x0B01 false r (wBytes 1 b ++ wBytes 1 c) s) ∧
  (∃ (r : Req) (f k : BitVec 16) (s : State),
    serves 0x0B02 false r (wBytes 2 f ++ wBytes 2 k) s) ∧
  (∃ (r : Req) (i : BitVec 32) (k : BitVec 16) (s : State),
    serves 0x0B06 false r (wBytes 4 i ++ wBytes 2 k) s) ∧
  (∃ (r : Req) (s : State),
    serves 0x0C01 false r [] s) ∧
  (∃ (r : Req) (d : BitVec 16) (s : State),
    serves 0x0C03 false r (wBytes 2 d) s) ∧
  (∃ (r : Req) (s : State),
    serves 0x0F03 false r [] s) := by
  refine ⟨?_, ?_, ?_, ?_, ?_, ?_, ?_, ?_, ?_, ?_, ?_, ?_, ?_, ?_⟩
  · refine ⟨r0, asked 0x0101 [] base, asked_serves ?_⟩ <;> first | decide +kernel | rfl
  · refine ⟨r0, asked 0x0102 [] base, asked_serves ?_⟩ <;> first | decide +kernel | rfl
  · refine ⟨r0, 0#32, 0#16, asked 0x0104 (wBytes 4 0#32 ++ wBytes 2 0#16 ++ zeros 2) base, asked_serves ?_⟩ <;> first | decide +kernel | rfl
  · refine ⟨r0, asked 0x0205 [] base, asked_serves ?_⟩ <;> first | decide +kernel | rfl
  · refine ⟨r0, 0#16, asked 0x0301 (wBytes 2 0#16) base, asked_serves ?_⟩ <;> first | decide +kernel | rfl
  · refine ⟨r0, 0#8, 0#8, asked 0x0401 (wBytes 1 0#8 ++ wBytes 1 0#8) base, asked_serves ?_⟩ <;> first | decide +kernel | rfl
  · refine ⟨r0, 0#8, asked 0x0501 (wBytes 1 0#8) base, asked_serves ?_⟩ <;> first | decide +kernel | rfl
  · refine ⟨r0, 0#16, asked 0x0601 (wBytes 2 0#16) base, asked_serves ?_⟩ <;> first | decide +kernel | rfl
  · refine ⟨r0, 0#8, 0#8, asked 0x0B01 (wBytes 1 0#8 ++ wBytes 1 0#8) base, asked_serves ?_⟩ <;> first | decide +kernel | rfl
  · refine ⟨r0, 0#16, 0#16, asked 0x0B02 (wBytes 2 0#16 ++ wBytes 2 0#16) base, asked_serves ?_⟩ <;> first | decide +kernel | rfl
  · refine ⟨r0, 0#32, 0#16, asked 0x0B06 (wBytes 4 0#32 ++ wBytes 2 0#16) base, asked_serves ?_⟩ <;> first | decide +kernel | rfl
  · refine ⟨r0, asked 0x0C01 [] base, asked_serves ?_⟩ <;> first | decide +kernel | rfl
  · refine ⟨r0, 0#16, asked 0x0C03 (wBytes 2 0#16) base, asked_serves ?_⟩ <;> first | decide +kernel | rfl
  · refine ⟨r0, asked 0x0F03 [] base, asked_serves ?_⟩ <;> first | decide +kernel | rfl

/-- The hypotheses of every clause of `Obligations.RequestBufferWritesReachTheirBytes` are met. -/
theorem wit_RequestBufferWritesReachTheirBytes :
  (∃ (m o : Nat) (v : BitVec 512) (w : BitVec 26) (s : State),
    m < 4 ∧ o < 0x8000 ∧ o % 8 = 0 ∧ w.toNat = 0x2000 + m * 0x20000 + o ∧ settled s ∧ (mbx s m).busy = false) ∧
  (∃ (m o : Nat) (v : BitVec 512) (w : BitVec 26) (s : State),
    m < 4 ∧ o < 0x8000 ∧ o % 8 = 0 ∧ w.toNat = 0x2000 + m * 0x20000 + o ∧ settled s ∧ (mbx s m).busy = true) := by
  refine ⟨?_, ?_⟩
  · refine ⟨3, 0x7FF8, 0#512, 0x69FF8#26, base, ?_, ?_, ?_, ?_, ?_, ?_⟩ <;> first | decide +kernel | rfl
  · refine ⟨3, 0x7FF8, 0#512, 0x69FF8#26, setMbx 3 { mbx base 3 with busy := true } base, ?_, ?_, ?_, ?_, ?_, ?_⟩ <;> first | decide +kernel | rfl

/-- The hypotheses of every clause of `Obligations.EventQueueHolds4096Records` are met. -/
theorem wit_EventQueueHolds4096Records :
  (∃ (type : BitVec 16) (data : BitVec 128) (s : State),
    s.mgmt.events.length < 4095) ∧
  (∃ (type : BitVec 16) (data : BitVec 128) (s : State),
    s.mgmt.events.length = 4095) ∧
  (∃ (type : BitVec 16) (data : BitVec 128) (s : State),
    s.mgmt.events.length = 4096) ∧
  (∃ (type : BitVec 16) (data : BitVec 128) (s : State),
    s.mgmt.events.length ≤ 4096) := by
  refine ⟨?_, ?_, ?_, ?_⟩
  · refine ⟨0#16, 0#128, base, ?_⟩ <;> first | decide +kernel | rfl
  · refine ⟨0#16, 0#128, xfull 4095, xfull_length 4095⟩ <;> first | decide +kernel | rfl
  · refine ⟨0#16, 0#128, xfull 4096, xfull_length 4096⟩ <;> first | decide +kernel | rfl
  · refine ⟨0#16, 0#128, xfull 4096, Nat.le_of_eq (xfull_length 4096)⟩ <;> first | decide +kernel | rfl

/-- The hypotheses of every clause of `Obligations.FaultConfigurationKeepsDefaults` are met. -/
theorem wit_FaultConfigurationKeepsDefaults :
  (∃ (r : Req) (b c : BitVec 8) (w : BitVec 64) (k : Nat) (s : State),
    serves 0x0B05 false r (wBytes 1 b ++ wBytes 1 c ++ zeros 2 ++ wBytes 8 w) s ∧ b.toNat < 20 ∧ c ≠ 0 ∧
    k = b.toNat * 256 + c.toNat ∧ (fld w 0 3 : BitVec 3).toNat ≤ 4 ∧ (fld w 3 3 : BitVec 3).toNat ≤ 4) ∧
  (∃ (o : BitVec 26) (v : BitVec 512) (k : Nat) (s : State),
    k < 5120 ∧ k % 256 ≠ 0 ∧ o.toNat = 0x140000 + 8 * k ∧ settled s ∧ (fld v 0 3 : BitVec 3).toNat ≤ 4 ∧
    (fld v 3 3 : BitVec 3).toNat ≤ 4) ∧
  (∃ (cfg : FaultCfg) (cls : Nat) (x : FaultRec),
    cfg.ceiling.toNat ≤ cfg.level.toNat) := by
  refine ⟨?_, ?_, ?_⟩
  · refine ⟨r0, 16#8, 0x41#8, 0x24#64, 0x1041,
      asked 0x0B05 (wBytes 1 16#8 ++ wBytes 1 0x41#8 ++ zeros 2 ++ wBytes 8 0x24#64) base, asked_serves ?_, ?_,
      ?_, ?_, ?_, ?_⟩ <;> first | decide +kernel | rfl
  · refine ⟨0x148208#26, 0#512, 0x1041, base, ?_, ?_, ?_, ?_, ?_, ?_⟩ <;> first | decide +kernel | rfl
  · refine ⟨defaultCfg 2, 0, FaultRec.init, ?_⟩ <;> first | decide +kernel | rfl

/-- The hypotheses of every clause of `Obligations.HostRequestsAreDecoded` are met. -/
theorem wit_HostRequestsAreDecoded :
  (∃ (u : BitVec 7) (op : Op) (mv : MetaV) (hpa : BitVec 64) (tag : BitVec 16) (data : BitVec 512)
    (mask : BitVec 64) (poison : Bool) (ue : DecodeUe) (s : State),
    s.fault.safeStop = false ∧ (port s u.toNat).st = .up ∧ (port s u.toNat).inL0 = true ∧
    (port s u.toNat).role = 1 ∧ isRequest op = true) ∧
  (∃ (page : BitVec 23) (first second : Ecc) (ue : DecodeUe) (s : State),
    s.fault.safeStop = false ∧ (∃ d, d ∈ s.plan.pageWait ∧ d.page = page.toNat)) ∧
  (∃ (pi : Nat) (first second : Ecc) (s t : State),
    (mirrorRead (pi * 32) first second s).2 = t) ∧
  (∃ (m : Msg) (u : Nat) (hpa : BitVec 64) (ue : DecodeUe) (s t : State),
    portBlocked s u = false ∧ decodeOff s = false ∧
    t = badWord ((List.range 16).map fun w => (2, 16 * u + w)) ue s ∧
    ((List.range 16).any fun w => tableBad t 2 (16 * u + w)) = false ∧ windowOf t u hpa.toNat = none) ∧
  (∃ (m : Msg) (u : Nat) (hpa : BitVec 64) (ue : DecodeUe) (s : State),
    (portBlocked s u || decodeOff s) = true) := by
  refine ⟨?_, ?_, ?_, ?_, ?_⟩
  · refine ⟨0#7, .memRd, m0.mv, 0#64, 0#16, 0#512, 0#64, false, noUe, xhost, ?_, ?_, ?_, ?_, ?_⟩ <;> first | decide +kernel | rfl
  · refine ⟨0#23, .ok, .ok, noUe,
      { base with plan := { base.plan with pageWait := [{ msg := m0, addr := 0, off := 0, page := 0 }] } }, ?_,
      ⟨{ msg := m0, addr := 0, off := 0, page := 0 }, by decide +kernel⟩⟩ <;> first | decide +kernel | rfl
  · refine ⟨0, .ok, .ok, base, _, rfl⟩ <;> first | decide +kernel | rfl
  · refine ⟨m0, 0, 0#64, noUe, base, _, ?_, ?_, rfl, ?_, ?_⟩ <;> first | decide +kernel | rfl
  · refine ⟨m0, 0, 0#64, noUe, setDomain 186 { domain base 186 with st := .off } base, ?_⟩ <;> first | decide +kernel | rfl

/-- The hypotheses of every clause of `Obligations.BindingCommandsAct` are met. -/
theorem wit_BindingCommandsAct :
  (∃ (r : Req) (b : BitVec 16) (s : State),
    serves 0x0301 false r (wBytes 2 b) s ∧ b.toNat < 8192) ∧
  (∃ (r : Req) (b : BitVec 16) (s : State),
    serves 0x0302 false r (wBytes 2 b) s ∧ b.toNat < 8192 ∧ planBusy s = false ∧ bstate s b.toNat = 1) ∧
  (∃ (r : Req) (b : BitVec 16) (s : State),
    serves 0x0303 false r (wBytes 2 b) s ∧ b.toNat < 8192 ∧ bstate s b.toNat = 2) ∧
  (∃ (r : Req) (b : BitVec 16) (s : State),
    serves 0x0304 false r (wBytes 2 b) s ∧ b.toNat < 8192 ∧ planBusy s = false ∧ bstate s b.toNat = 3) ∧
  (∃ (r : Req) (b f : BitVec 16) (s : State),
    serves 0x0305 false r (wBytes 2 b ++ wBytes 2 f) s ∧ b.toNat < 8192 ∧ f = 0 ∧ planBusy s = false ∧
    bstate s b.toNat = 2 ∧ s.mgmt.tickets.length < 256) ∧
  (∃ (r : Req) (b : BitVec 16) (s : State),
    serves 0x0306 false r (wBytes 2 b) s ∧ b.toNat < 8192 ∧ planBusy s = false ∧ bstate s b.toNat = 4 ∧
    (∀ x, x < 56 → bit (ctxTargets (ctx s b.toNat)) x = true → targetReady s x = true)) ∧
  (∃ (r : Req) (b : BitVec 16) (l : BitVec 32) (s : State),
    serves 0x0307 false r (wBytes 2 b ++ zeros 2 ++ wBytes 4 l) s ∧ b.toNat < 8192 ∧ planBusy s = false) ∧
  (∃ (r : Req) (p w : BitVec 8) (s : State),
    serves 0x0308 false r (wBytes 1 p ++ wBytes 1 w) s ∧ p.toNat < 96 ∧ w.toNat < 16) ∧
  (∃ (r : Req) (p : BitVec 8) (hpa : BitVec 64) (s : State),
    serves 0x0309 false r (wBytes 1 p ++ zeros 3 ++ wBytes 8 hpa) s ∧ p.toNat < 96) ∧
  (∃ (r : Req) (k : BitVec 8) (s : State),
    serves 0x030A false r (wBytes 1 k) s ∧ k.toNat < 16 ∧ (migSlot s k.toNat).st = .copying) ∧
  (∃ (s v : State) (b : Nat) (t : BitVec 64),
    dueBindings s = some (t.toNat, [b]) ∧ v = trafSync (reach t.toNat s) ∧ bstate v b = 1) ∧
  (∃ (b : BitVec 13) (t : BitVec 64) (s : State),
    (brun s b.toNat).holdStart = some t ∧ (brun s b.toNat).expired = false ∧ canHold s b.toNat = true ∧
    ctxHold (ctx s b.toNat) < 2 ^ 32 - 1 ∧ now s ≤ t.toNat + ctxHold (ctx s b.toNat) * usTicks) ∧
  (∃ (b : BitVec 13) (t : BitVec 64) (s : State),
    (brun s b.toNat).holdStart = some t ∧ (brun s b.toNat).expired = false ∧ canHold s b.toNat = true ∧
    ctxHold (ctx s b.toNat) < 2 ^ 32 - 1 ∧ t.toNat + ctxHold (ctx s b.toNat) * usTicks < now s) := by
  refine ⟨?_, ?_, ?_, ?_, ?_, ?_, ?_, ?_, ?_, ?_, ?_, ?_, ?_⟩
  · refine ⟨r0, 0#16, asked 0x0301 (wBytes 2 0#16) base, asked_serves ?_, ?_⟩ <;> first | decide +kernel | rfl
  · refine ⟨r0, 0#16, asked 0x0302 (wBytes 2 0#16) (setBstate 0 1 base), asked_serves ?_, ?_, ?_, ?_⟩ <;> first | decide +kernel | rfl
  · refine ⟨r0, 0#16, asked 0x0303 (wBytes 2 0#16) (setBstate 0 2 base), asked_serves ?_, ?_, ?_⟩ <;> first | decide +kernel | rfl
  · refine ⟨r0, 0#16, asked 0x0304 (wBytes 2 0#16) (setBstate 0 3 base), asked_serves ?_, ?_, ?_, ?_⟩ <;> first | decide +kernel | rfl
  · refine ⟨r0, 0#16, 0#16, asked 0x0305 (wBytes 2 0#16 ++ wBytes 2 0#16) (setBstate 0 2 base), asked_serves ?_, ?_, ?_,
      ?_, ?_, ?_⟩ <;> first | decide +kernel | rfl
  · refine ⟨r0, 0#16, asked 0x0306 (wBytes 2 0#16) (setBstate 0 4 base), asked_serves ?_, ?_, ?_, ?_, ?_⟩ <;> first | decide +kernel | rfl
  · refine ⟨r0, 0#16, 0#32, asked 0x0307 (wBytes 2 0#16 ++ zeros 2 ++ wBytes 4 0#32) base, asked_serves ?_, ?_, ?_⟩ <;> first | decide +kernel | rfl
  · refine ⟨r0, 0#8, 0#8, asked 0x0308 (wBytes 1 0#8 ++ wBytes 1 0#8) base, asked_serves ?_, ?_, ?_⟩ <;> first | decide +kernel | rfl
  · refine ⟨r0, 0#8, 0#64, asked 0x0309 (wBytes 1 0#8 ++ zeros 3 ++ wBytes 8 0#64) base, asked_serves ?_, ?_⟩ <;> first | decide +kernel | rfl
  · refine ⟨r0, 0#8, asked 0x030A (wBytes 1 0#8) ({ base with mig := [(0, { migSlot base 0 with st := .copying })] }),
      asked_serves ?_, ?_, ?_⟩ <;> first | decide +kernel | rfl
  · refine ⟨setBrun 0 { brun base 0 with activateAt := some 5 } (setBstate 0 1 base), _, 0, 5#64, ?_, rfl, ?_⟩ <;> first | decide +kernel | rfl
  · refine ⟨0#13, 5#64, setBrun 0 { brun base 0 with holdStart := some 5 } (setBstate 0 2 base), ?_, ?_, ?_, ?_, ?_⟩ <;> first | decide +kernel | rfl
  · refine ⟨0#13, 5#64,
      { setBrun 0 { brun base 0 with holdStart := some 5 } (setBstate 0 2 base) with
        tele := { base.tele with time := 100000000 } },
      ?_, ?_, ?_, ?_, ?_⟩ <;> first | decide +kernel | rfl

/-- The hypotheses of every clause of `Obligations.PortMessagesPass` are met. -/
theorem wit_PortMessagesPass :
  (∃ (u : BitVec 7) (k : FlitCheck) (s : State),
    (port s u.toNat).inL0 = true ∧ k.crcOk = true) ∧
  (∃ (u : BitVec 7) (k : FlitCheck) (q : PbrMsg) (s : State),
    (port s u.toNat).inL0 = true ∧ k.crcOk = true ∧ (port s u.toNat).st = .up ∧ (port s u.toNat).role = 3 ∧
    (prFlag (govRec s u.toNat) 1 = false ∨ k.macOk = true)) ∧
  (∃ (u : BitVec 7) (k : FlitCheck) (b : Bool) (q : Option PbrMsg) (s : State),
    (port s u.toNat).inL0 = true ∧ k.crcOk = false) ∧
  (∃ (u : BitVec 7) (tag : BitVec 16) (op : Op) (mv : MetaV) (data : BitVec 512) (k : RspMark) (e : TagUse)
    (s : State),
    (port s u.toNat).st = .up ∧ (port s u.toNat).inL0 = true ∧
    tabGet none (port s u.toNat).tags tag.toNat = some e) ∧
  (∃ (u : BitVec 7) (tag : BitVec 16) (op : Op) (mv : MetaV) (data : BitVec 512) (k : RspMark) (s : State),
    (port s u.toNat).st = .up ∧ (port s u.toNat).inL0 = true ∧ tabGet none (port s u.toNat).tags tag.toNat = none) ∧
  (∃ (u : BitVec 7) (via : BitVec 4) (op : Op) (tag : BitVec 16) (data : BitVec 512) (len : BitVec 16)
    (v : VppbBind) (s : State),
    (port s u.toNat).st = .up ∧ (port s u.toNat).inL0 = true ∧ (port s u.toNat).role = 1 ∧ opClass op = 5 ∧
    vppbOf s u.toNat via.toNat = some v) ∧
  (∃ (u : BitVec 7) (via : BitVec 4) (g : SwitchReg) (w : BitVec 32) (tag : BitVec 16) (data : BitVec 512)
    (len : BitVec 16) (s : State),
    (port s u.toNat).st = .up ∧ (port s u.toNat).inL0 = true ∧ (port s u.toNat).role = 1 ∧
    switchReady s g = true ∧ switchReg s u.toNat via.toNat g = some w) ∧
  (∃ (u : BitVec 7) (via : BitVec 4) (g : SwitchReg) (tag : BitVec 16) (data : BitVec 512) (len : BitVec 16)
    (s : State),
    (port s u.toNat).st = .up ∧ (port s u.toNat).inL0 = true ∧ (port s u.toNat).role = 1 ∧
    switchReady s g = false) ∧
  (∃ (xp : BitVec 6) (credits : BitVec 8) (sc mc : Nat) (e : EMsg) (s : State),
    s.fault.safeStop = false ∧ xp.toNat < 48 ∧
    pickStaged s xp.toNat (portTakes s xp.toNat credits) = some (sc, mc, e)) := by
  refine ⟨?_, ?_, ?_, ?_, ?_, ?_, ?_, ?_, ?_⟩
  · refine ⟨0#7, { crcOk := true, macOk := false, acks := 0 }, xhost, ?_, ?_⟩ <;> first | decide +kernel | rfl
  · refine ⟨0#7, { crcOk := true, macOk := false, acks := 0 },
      {
        dpid := 0, spid := 0, op := .memRd, mv := m0.mv, dev := 0, tag := 0, data := 0, mask := 0, poison := false },
      setPort 0 { port xhost 0 with role := 3 } xhost, ?_, ?_, ?_, ?_, ?_⟩ <;> first | decide +kernel | rfl
  · refine ⟨0#7, { crcOk := false, macOk := false, acks := 0 }, false, none, xhost, ?_, ?_⟩ <;> first | decide +kernel | rfl
  · refine ⟨0#7, 3#16, .memData, m0.mv, 0#512, { poison := false, devLoad := 0 }, { msg := m0, since := 0 },
      setPort 0 { port xhost 0 with tags := [(3, some { msg := m0, since := 0 })] } xhost, ?_, ?_, ?_⟩ <;> first | decide +kernel | rfl
  · refine ⟨0#7, 0#16, .memData, m0.mv, 0#512, { poison := false, devLoad := 0 }, xhost, ?_, ?_, ?_⟩ <;> first | decide +kernel | rfl
  · refine ⟨0#7, 0#4, .ioNonPosted, 0#16, 0#512, 0#16, { port := 0, ld := none, cache := false, owner := false },
      { xhost with
        mgmt := { xhost.mgmt with vppbs := [(0, some { port := 0, ld := none, cache := false, owner := false })] } },
      ?_, ?_, ?_, ?_, ?_⟩ <;> first | decide +kernel | rfl
  · refine ⟨0#7, 0#4, .hdmDecoder 0 0, _, 0#16, 0#512, 0#16, xhost, ?_, ?_, ?_, ?_, rfl⟩ <;> first | decide +kernel | rfl
  · refine ⟨0#7, 0#4, .aer, 0#16, 0#512, 0#16, { xhost with boot := { xhost.boot with stage := 4 } }, ?_, ?_, ?_, ?_⟩ <;> first | decide +kernel | rfl
  · refine ⟨0#6, 0xFF#8, 0, 0, { xb with msg := { m0 with op := .ioPosted } },
      setOutput 0 { output xhost 0 with staging := [(0, [{ xb with msg := { m0 with op := .ioPosted } }])] }
      xhost,
      ?_, ?_, ?_⟩ <;> first | decide +kernel | rfl

/-- The hypotheses of every clause of `Obligations.PortEventsAct` are met. -/
theorem wit_PortEventsAct :
  (∃ (u : BitVec 7) (retry : Bool) (s : State),
    (port s u.toNat).st = .up ∧ (port s u.toNat).inL0 = true ∧ (port s u.toNat).symptom = none) ∧
  (∃ (u : BitVec 7) (c : DownCause) (t : BitVec 64) (s : State),
    (port s u.toNat).symptom = some (c, t)) ∧
  (∃ (u : BitVec 7) (s : State),
    (port s u.toNat).role = 1 ∧ (port s u.toNat).st ≠ .off) ∧
  (∃ (u : BitVec 7) (s : State),
    prFlag (govRec s u.toNat) 1 = true ∧ (port s u.toNat).st = .up) ∧
  (∃ (u : BitVec 7) (rate : BitVec 3) (width : BitVec 5) (f l rec : Bool) (t : BitVec 64) (s v : State),
    (port s u.toNat).inL0 = false ∧ trainOk s u.toNat rate.toNat width.toNat f l = true ∧
    (port s u.toNat).symptom = some (.link, t) ∧ now s < t.toNat + prDetect (govRec s u.toNat) * usTicks ∧
    v = portCnt u.toNat 2 1 (linkAt u.toNat rate width f l s)) ∧
  (∃ (u : BitVec 7) (rate : BitVec 3) (width : BitVec 5) (f l rec : Bool) (s : State),
    (port s u.toNat).inL0 = false ∧ trainOk s u.toNat rate.toNat width.toNat f l = true ∧
    (port s u.toNat).symptom = none ∧ (port s u.toNat).retrain = none ∧ (port s u.toNat).st = .training ∧
    portReady s u.toNat = true) ∧
  (∃ (u : BitVec 7) (ident ldMap : BitVec 64) (secure : Bool) (s : State),
    (port s u.toNat).st = .confirm ∧ (port s u.toNat).inL0 = true ∧ (port s u.toNat).idDiffers = false ∧
    prFlag (govRec s u.toNat) 1 = false ∧
    ((port s u.toNat).recorded = false ∨ sameIdent (port s u.toNat) ident ldMap = true)) ∧
  (∃ (u : BitVec 7) (ident ldMap : BitVec 64) (secure : Bool) (s v : State),
    (port s u.toNat).st = .confirm ∧ (port s u.toNat).inL0 = true ∧ (port s u.toNat).idDiffers = false ∧
    prFlag (govRec s u.toNat) 1 = true ∧ ideKeyed u.toNat secure s = some v ∧
    ((port s u.toNat).recorded = false ∨ sameIdent (port s u.toNat) ident ldMap = true)) ∧
  (∃ (u : BitVec 7) (s : State),
    (port s u.toNat).st = .confirm ∧ (port s u.toNat).role = 2 ∧ (port s u.toNat).confirmRaised = false) ∧
  (∃ (u : BitVec 7) (tag : BitVec 16) (e : TagUse) (s : State),
    (port s u.toNat).inL0 = true ∧ tabGet none (port s u.toNat).tags tag.toNat = some e ∧ e.msg.mclass ≠ 3) ∧
  (∃ (u : BitVec 7) (t : BitVec 64) (s : State),
    (port s u.toNat).retrain = some t) ∧
  (∃ (u : BitVec 7) (c : LinkCmd) (cs : List LinkCmd) (s : State),
    (port s u.toNat).cmds = c :: cs ∧ (port s u.toNat).st = .up) ∧
  (∃ (u : BitVec 7) (s : State),
    ((port s u.toNat).st = .detect ∨ (port s u.toNat).st = .down) ∧ portReady s u.toNat = true) := by
  refine ⟨?_, ?_, ?_, ?_, ?_, ?_, ?_, ?_, ?_, ?_, ?_, ?_, ?_⟩
  · refine ⟨0#7, false, xhost, ?_, ?_, ?_⟩ <;> first | decide +kernel | rfl
  · refine ⟨0#7, .link, 0#64, setPort 0 { port xhost 0 with symptom := some (.link, 0) } xhost, ?_⟩ <;> first | decide +kernel | rfl
  · refine ⟨0#7, xhost, ?_, ?_⟩ <;> first | decide +kernel | rfl
  · refine ⟨0#7, xport, ?_, ?_⟩ <;> first | decide +kernel | rfl
  · refine ⟨0#7, 0#3, 1#5, false, false, false, 0#64,
      setPort 0 { port xport 0 with inL0 := false, symptom := some (.link, 0) } xport, _, ?_, ?_, ?_, ?_, rfl⟩ <;> first | decide +kernel | rfl
  · refine ⟨0#7, 0#3, 1#5, false, false, false, setPort 0 { port xready 0 with inL0 := false, st := .training } xready,
      ?_, ?_, ?_, ?_, ?_, ?_⟩ <;> first | decide +kernel | rfl
  · refine ⟨0#7, 0#64, 0#64, false, setPort 0 { port base 0 with st := .confirm, inL0 := true } base, ?_, ?_, ?_, ?_,
      ?_⟩ <;> first | decide +kernel | rfl
  · refine ⟨0#7, 0#64, 0#64, true, xide, _, ?_, ?_, ?_, ?_, rfl, ?_⟩ <;> first | decide +kernel | rfl
  · refine ⟨0#7, setPort 0 { port xhost 0 with st := .confirm, role := 2 } xhost, ?_, ?_, ?_⟩ <;> first | decide +kernel | rfl
  · refine ⟨0#7, 3#16, { msg := m0, since := 0 },
      setPort 0 { port xhost 0 with tags := [(3, some { msg := m0, since := 0 })] } xhost, ?_, ?_, ?_⟩ <;> first | decide +kernel | rfl
  · refine ⟨0#7, 0#64, setPort 0 { port xhost 0 with retrain := some 0 } xhost, ?_⟩ <;> first | decide +kernel | rfl
  · refine ⟨0#7, { ticket := 1, kind := 0, since := 0 }, [],
      setPort 0 { port xhost 0 with cmds := [{ ticket := 1, kind := 0, since := 0 }] } xhost, ?_, ?_⟩ <;> first | decide +kernel | rfl
  · refine ⟨0#7, setPort 0 { port xready 0 with st := .detect } xready, ?_, ?_⟩ <;> first | decide +kernel | rfl

/-- The hypotheses of every clause of `Obligations.PortCommandsAct` are met. -/
theorem wit_PortCommandsAct :
  (∃ (r : Req) (p h : BitVec 8) (s : State),
    serves 0x0401 false r (wBytes 1 p ++ wBytes 1 h) s ∧ h.toNat ≤ 1 ∧ halfExists s p.toNat h.toNat = true ∧
    (port s (2 * p.toNat + h.toNat)).idDiffers = false) ∧
  (∃ (r : Req) (p h : BitVec 8) (s : State),
    serves 0x0402 false r (wBytes 1 p ++ wBytes 1 h) s ∧ h.toNat ≤ 1 ∧ halfExists s p.toNat h.toNat = true ∧
    (port s (2 * p.toNat + h.toNat)).st = .confirm ∧ (port s (2 * p.toNat + h.toNat)).idDiffers = true ∧
    (port s (2 * p.toNat + h.toNat)).inL0 = true) ∧
  (∃ (r : Req) (p h rate : BitVec 8) (s : State),
    serves 0x0403 false r (wBytes 1 p ++ wBytes 1 h ++ wBytes 1 rate) s ∧ h.toNat ≤ 1 ∧
    halfExists s p.toNat h.toNat = true ∧ rate.toNat ≤ 6 ∧
    rate.toNat ≤ prRate (govRec s (2 * p.toNat + h.toNat)) ∧ s.mgmt.tickets.length < 256) ∧
  (∃ (r : Req) (p h : BitVec 8) (s : State),
    serves 0x0404 false r (wBytes 1 p ++ wBytes 1 h) s ∧ h.toNat ≤ 1 ∧ halfExists s p.toNat h.toNat = true ∧
    s.mgmt.tickets.length < 256) ∧
  (∃ (r : Req) (p h : BitVec 8) (s : State),
    serves 0x0405 false r (wBytes 1 p ++ wBytes 1 h) s ∧ h.toNat ≤ 1 ∧ halfExists s p.toNat h.toNat = true ∧
    s.mgmt.tickets.length < 256 ∧ (∀ l, l ∈ lanesOf s (2 * p.toNat + h.toNat) → (lane s l).testing = false)) ∧
  (∃ (r : Req) (p h : BitVec 8) (s : State),
    serves 0x0406 false r (wBytes 1 p ++ wBytes 1 h) s ∧ h.toNat ≤ 1 ∧ halfExists s p.toNat h.toNat = true) := by
  refine ⟨?_, ?_, ?_, ?_, ?_, ?_⟩
  · refine ⟨r0, 0#8, 0#8, asked 0x0401 (wBytes 1 0#8 ++ wBytes 1 0#8) base, asked_serves ?_, ?_, ?_, ?_⟩ <;> first | decide +kernel | rfl
  · refine ⟨r0, 0#8, 0#8,
      asked 0x0402 (wBytes 1 0#8 ++ wBytes 1 0#8) (setPort 0
      { port base 0 with st := .confirm, idDiffers := true, inL0 := true } base),
      asked_serves ?_, ?_, ?_, ?_, ?_, ?_⟩ <;> first | decide +kernel | rfl
  · refine ⟨r0, 0#8, 0#8, 0#8, asked 0x0403 (wBytes 1 0#8 ++ wBytes 1 0#8 ++ wBytes 1 0#8) base, asked_serves ?_, ?_,
      ?_, ?_, ?_, ?_⟩ <;> first | decide +kernel | rfl
  · refine ⟨r0, 0#8, 0#8, asked 0x0404 (wBytes 1 0#8 ++ wBytes 1 0#8) base, asked_serves ?_, ?_, ?_, ?_⟩ <;> first | decide +kernel | rfl
  · refine ⟨r0, 0#8, 0#8, asked 0x0405 (wBytes 1 0#8 ++ wBytes 1 0#8) base, asked_serves ?_, ?_, ?_, ?_, ?_⟩ <;> first | decide +kernel | rfl
  · refine ⟨r0, 0#8, 0#8, asked 0x0406 (wBytes 1 0#8 ++ wBytes 1 0#8) base, asked_serves ?_, ?_, ?_⟩ <;> first | decide +kernel | rfl

/-- The hypotheses of every clause of `Obligations.LaneSignalEventsAct` are met. -/
theorem wit_LaneSignalEventsAct :
  (∃ (input : BitVec 2) (s : State),
    input.toNat ≤ 2 ∧ bit s.lane.present input.toNat = true) ∧
  (∃ (input : BitVec 2) (t : State) (s : State),
    input.toNat ≤ 2 ∧ bit s.lane.present input.toNat = false ∧
    t = (quadsOf s input.toNat).foldl (fun s q => quadTouch q (condGone 2 0x31 (source 10 q) s))
    { s with lane := { s.lane with present := s.lane.present ||| (1#3 <<< input.toNat) } }) ∧
  (∃ (l : BitVec 9) (s : State),
    l.toNat < 416) ∧
  (∃ (l : BitVec 9) (ctle : BitVec 5) (h a : BitVec 8) (fp : BitVec 24) (inv : Bool) (p : BitVec 128)
    (s : State),
    l.toNat < 416 ∧ (lane s l.toNat).preset = some p ∧ ((lane s l.toNat).st = .l0 ∨ (lane s l.toNat).st = .test) ∧
    (lane s l.toNat).converged = false ∧ psUnused p = false ∧ convergeOk p ctle h a fp = true) ∧
  (∃ (l : BitVec 9) (t : State) (s : State),
    l.toNat < 416 ∧ (lane s l.toNat).st = .l0 ∧
    t = setLane l.toNat
    { lane s l.toNat with limitHits := satAdd (lane s l.toNat).limitHits 1, limitRaised := true } s) := by
  refine ⟨?_, ?_, ?_, ?_, ?_⟩
  · refine ⟨0#2, { base with lane := { base.lane with present := 7 } }, ?_, ?_⟩ <;> first | decide +kernel | rfl
  · refine ⟨0#2, _, { base with lane := { base.lane with present := 6 } }, ?_, ?_, rfl⟩ <;> first | decide +kernel | rfl
  · refine ⟨0#9, base, ?_⟩ <;> first | decide +kernel | rfl
  · refine ⟨0#9, 0#5, 0#8, 0#8, 0#24, false, 0#128, xlane, ?_, ?_, ?_, ?_, ?_, ?_⟩ <;> first | decide +kernel | rfl
  · refine ⟨0#9, _, xlane, ?_, ?_, rfl⟩ <;> first | decide +kernel | rfl

/-- The hypotheses of every clause of `Obligations.LanePowerEventsAct` are met. -/
theorem wit_LanePowerEventsAct :
  (∃ (u : BitVec 7) (acc : Bool) (t : State) (s : State),
    (port s u.toNat).l0p = false ∧ mayNarrow s u.toNat = true ∧
    t = reach ((l0pOf s u.toNat).lastUse.toNat + (l0pOf s u.toNat).idleUs.toNat * usTicks) s) ∧
  (∃ (u : BitVec 7) (s : State),
    (port s u.toNat).st = .up ∧ (port s u.toNat).l0p = false ∧ mayNarrow s u.toNat = true) ∧
  (∃ (u : BitVec 7) (s : State),
    (port s u.toNat).st = .up ∧ (port s u.toNat).l0p = false ∧ mayNarrow s u.toNat = false) ∧
  (∃ (u : BitVec 7) (partner : Bool) (s : State),
    (port s u.toNat).l0p = true ∧ (port s u.toNat).st = .up ∧ (partner = true ∨ egressQueued s u.toNat = true)) ∧
  (∃ (u : BitVec 7) (k : BitVec 5) (w : BitVec 64) (t : State) (s : State),
    (l0pOf s u.toNat).widenAt = some w ∧ 0 < k.toNat ∧ k.toNat < (port s u.toNat).trained.toNat ∧
    (port s u.toNat).st = .up ∧ now s ≤ w.toNat + 5 * usTicks ∧
    t = l0pWidth u.toNat k.toNat (reach (w.toNat + 5 * usTicks) s)) ∧
  (∃ (u : BitVec 7) (t : BitVec 64) (s : State),
    (l0pOf s u.toNat).failAt = some t ∧ (port s u.toNat).st = .up) ∧
  (∃ (u : BitVec 7) (off : Bool) (t v : State) (ls : List Nat) (s : State),
    (port s u.toNat).st = .up ∧ (port s u.toNat).inL0 = true ∧ (port s u.toNat).role = 2 ∧
    prFlag (govRec s u.toNat) 2 = true ∧ ls = (lanesOf s u.toNat).take (port s u.toNat).trained.toNat ∧
    t = lanesTo .l1Pll (port s u.toNat).rate.toNat ls (leaveL0 u.toNat s) ∧
    (v = if off && quadsRest t ls then lanesTo .l1NoPll (port s u.toNat).rate.toNat ls t else t)) ∧
  (∃ (u : BitVec 7) (t : State) (s : State),
    (l0pOf s u.toNat).l1 = true ∧ (port s u.toNat).st = .up ∧
    t = enterL0 u.toNat (lanesTo .l0 (port s u.toNat).rate.toNat ((lanesOf s u.toNat).take (port s
    u.toNat).trained.toNat) s)) := by
  refine ⟨?_, ?_, ?_, ?_, ?_, ?_, ?_, ?_⟩
  · refine ⟨0#7, false, _, xport, ?_, ?_, rfl⟩ <;> first | decide +kernel | rfl
  · refine ⟨0#7, xport, ?_, ?_, ?_⟩ <;> first | decide +kernel | rfl
  · refine ⟨0#7, { xport with plan := base.plan }, ?_, ?_, ?_⟩ <;> first | decide +kernel | rfl
  · refine ⟨0#7, true, xnarrow, ?_, ?_, ?_⟩ <;> first | decide +kernel | rfl
  · refine ⟨0#7, 1#5, 0#64, _, setL0p 0 { l0pOf base 0 with widenAt := some 0 } xport, ?_, ?_, ?_, ?_, ?_, rfl⟩ <;> first | decide +kernel | rfl
  · refine ⟨0#7, 0#64, setL0p 0 { l0pOf base 0 with failAt := some 0 } xport, ?_, ?_⟩ <;> first | decide +kernel | rfl
  · refine ⟨0#7, false, _, _, _, xport, ?_, ?_, ?_, ?_, rfl, rfl, rfl⟩ <;> first | decide +kernel | rfl
  · refine ⟨0#7, _, setL0p 0 { l0pOf base 0 with l1 := true } xport, ?_, ?_, rfl⟩ <;> first | decide +kernel | rfl

/-- The hypotheses of every clause of `Obligations.LaneTestsAct` are met. -/
theorem wit_LaneTestsAct :
  (∃ (l : BitVec 9) (s : State),
    l.toNat < 416 ∧ (lane s l.toNat).testing = true ∧ (lane s l.toNat).mode = 1) ∧
  (∃ (l : BitVec 9) (s : State),
    l.toNat < 416 ∧ (lane s l.toNat).testing = false ∧ (lane s l.toNat).st = .off) ∧
  (∃ (l : BitVec 9) (s : State),
    (lane s l.toNat).testing = true ∧ checks (lane s l.toNat).mode.toNat = true ∧
    (lane s l.toNat).locked = false ∧ (lane s l.toNat).refLost = false) ∧
  (∃ (l : BitVec 9) (errs : BitVec 16) (s : State),
    (lane s l.toNat).testing = true ∧ (lane s l.toNat).locked = true ∧ 256 < errs.toNat ∧ errs.toNat ≤ 4096) ∧
  (∃ (l : BitVec 9) (left right down up : BitVec 8) (pts : BitVec 16) (m : Margin) (s : State),
    s.lane.margins.find? (fun m => decide (m.lane = l.toNat)) = some m ∧ stepMag left ≤ 32 ∧ stepMag right ≤ 32 ∧
    stepMag down ≤ 64 ∧ stepMag up ≤ 64 ∧ pts.toNat ≤ 192 ∧ m.aborted = false ∧ marginable s l.toNat = true) := by
  refine ⟨?_, ?_, ?_, ?_, ?_⟩
  · refine ⟨0#9, xtest 1, ?_, ?_, ?_⟩ <;> first | decide +kernel | rfl
  · refine ⟨0#9, base, ?_, ?_, ?_⟩ <;> first | decide +kernel | rfl
  · refine ⟨0#9, xtest 2, ?_, ?_, ?_, ?_⟩ <;> first | decide +kernel | rfl
  · refine ⟨0#9, 300#16, setLane 0 { lane (xtest 2) 0 with locked := true } (xtest 2), ?_, ?_, ?_, ?_⟩ <;> first | decide +kernel | rfl
  · refine ⟨0#9, 0#8, 0#8, 0#8, 0#8, 0#16,
      { ticket := 1, lane := 0, eye := 0, dwell := 16, errLimit := 0, aborted := false },
      { setLane 0 { lane base 0 with st := .test } base with
        lane := { (setLane 0 { lane base 0 with st := .test } base).lane with
            margins := [{ ticket := 1, lane := 0, eye := 0, dwell := 16, errLimit := 0, aborted := false }] } },
      ?_, ?_, ?_, ?_, ?_, ?_, ?_, ?_⟩ <;> first | decide +kernel | rfl

/-- The hypotheses of every clause of `Obligations.LaneCommandsAct` are met. -/
theorem wit_LaneCommandsAct :
  (∃ (r : Req) (l : BitVec 16) (t : State) (p : BitVec 128) (s : State),
    serves 0x0601 false r (wBytes 2 l) s ∧ l.toNat ≤ 415 ∧ t = adaptSync l.toNat s ∧
    p = (lane t l.toNat).preset.getD (presetOf t l.toNat (lane t l.toNat).rate.toNat)) ∧
  (∃ (r : Req) (p : BitVec 128) (s : State),
    serves 0x0602 false r (wBytes 16 p) s ∧ psLane p ≤ 415 ∧ presetBad p = none) ∧
  (∃ (r : Req) (l c : BitVec 16) (mode pat rate : BitVec 8) (s : State),
    serves 0x0603 false r (wBytes 2 l ++ wBytes 2 c ++ wBytes 1 mode ++ wBytes 1 pat ++ wBytes 1 rate ++ zeros 1)
    s ∧
    1 ≤ c.toNat ∧ c.toNat ≤ 32 ∧ mode.toNat ≤ 5 ∧ pat.toNat ≤ 2 ∧ rate.toNat ≤ 7 ∧ l.toNat + c.toNat ≤ 416 ∧
    (laneRun l c).any (fun k => !laneFree s k) = false ∧
    (laneRun l c).any (fun k => !testRateOk s (laneRun l c) rate.toNat pat.toNat k) = false) ∧
  (∃ (r : Req) (l c : BitVec 16) (t : State) (s : State),
    serves 0x0604 false r (wBytes 2 l ++ wBytes 2 c) s ∧ 1 ≤ c.toNat ∧ c.toNat ≤ 32 ∧ l.toNat + c.toNat ≤ 416 ∧
    (laneRun l c).any (fun k => !laneFree s k) = false ∧ t = (laneRun l c).foldl (fun s k => testSync k s) s) ∧
  (∃ (r : Req) (l : BitVec 16) (eye dw : BitVec 8) (lim : BitVec 32) (s : State),
    serves 0x0605 false r (wBytes 2 l ++ wBytes 1 eye ++ wBytes 1 dw ++ wBytes 4 lim) s ∧ l.toNat ≤ 415 ∧
    eye.toNat ≤ 2 ∧ ((lane s l.toNat).rate.toNat ≤ 4 → eye = 0) ∧ 16 ≤ dw.toNat ∧ dw.toNat ≤ 30 ∧
    s.mgmt.tickets.length < 256) ∧
  (∃ (r : Req) (p h : BitVec 8) (idle : BitVec 16) (s : State),
    serves 0x0606 false r (wBytes 1 p ++ wBytes 1 h ++ wBytes 2 idle) s ∧ p.toNat ≤ 47 ∧ h.toNat ≤ 1 ∧
    halfExists s p.toNat h.toNat = true ∧ 1 ≤ idle.toNat ∧ idle.toNat ≤ 1000) ∧
  (∃ (r : Req) (n ref : BitVec 8) (s : State),
    serves 0x0607 false r (wBytes 1 n ++ wBytes 1 ref) s ∧ n.toNat ≤ 7 ∧ ref.toNat ≤ 1 ∧
    (List.range 12).any (fun i => decide ((port s (12 * n.toNat + i)).st ≠ .off)) = false) := by
  refine ⟨?_, ?_, ?_, ?_, ?_, ?_, ?_⟩
  · refine ⟨r0, 0#16, _, _, asked 0x0601 (wBytes 2 0#16) base, asked_serves ?_, ?_, rfl, rfl⟩ <;> first | decide +kernel | rfl
  · refine ⟨r0, BitVec.ofNat 128 (2 ^ 96 + 2 ^ 112),
      asked 0x0602 (wBytes 16 (BitVec.ofNat 128 (2 ^ 96 + 2 ^ 112))) base, asked_serves ?_, ?_, ?_⟩ <;> first | decide +kernel | rfl
  · refine ⟨r0, 0#16, 1#16, 1#8, 1#8, 0#8,
      asked 0x0603 (wBytes 2 0#16 ++ wBytes 2 1#16 ++ wBytes 1 1#8 ++ wBytes 1 1#8 ++ wBytes 1 0#8 ++ zeros 1)
      base,
      asked_serves ?_, ?_, ?_, ?_, ?_, ?_, ?_, ?_, ?_⟩ <;> decide +kernel
  · refine ⟨r0, 0#16, 1#16, _, asked 0x0604 (wBytes 2 0#16 ++ wBytes 2 1#16) base, asked_serves ?_, ?_, ?_, ?_, ?_, rfl⟩ <;> first | decide +kernel | rfl
  · refine ⟨r0, 0#16, 0#8, 16#8, 0#32,
      asked 0x0605 (wBytes 2 0#16 ++ wBytes 1 0#8 ++ wBytes 1 16#8 ++ wBytes 4 0#32) base, asked_serves ?_, ?_,
      ?_, ?_, ?_, ?_, ?_⟩ <;> first | decide +kernel | rfl
  · refine ⟨r0, 0#8, 0#8, 5#16, asked 0x0606 (wBytes 1 0#8 ++ wBytes 1 0#8 ++ wBytes 2 5#16) base, asked_serves ?_, ?_,
      ?_, ?_, ?_, ?_⟩ <;> first | decide +kernel | rfl
  · refine ⟨r0, 0#8, 0#8, asked 0x0607 (wBytes 1 0#8 ++ wBytes 1 0#8) base, asked_serves ?_, ?_, ?_, ?_⟩ <;> first | decide +kernel | rfl

/-- The hypotheses of every clause of `Obligations.WeftFlitsAct` are met. -/
theorem wit_WeftFlitsAct :
  (∃ (link : BitVec 3) (s : State),
    (weft s link.toNat).st = .up) ∧
  (∃ (link : BitVec 3) (s : State),
    (weft s link.toNat).st = .param) ∧
  (∃ (link : BitVec 3) (fs : BitVec 16) (fb : BitVec 8) (f : WFlit) (t : State) (s : State),
    (weft s link.toNat).st = .up ∧
    (t = if fecNow (weft s link.toNat) then weftCnt link.toNat 1 fb.toNat (weftCnt link.toNat 0 fs.toNat s) else
    s)) ∧
  (∃ (link : BitVec 3) (fs : BitVec 16) (fb : BitVec 8) (t : State) (s : State),
    (weft s link.toNat).st = .up ∧
    (t = if fecNow (weft s link.toNat) then weftCnt link.toNat 1 fb.toNat (weftCnt link.toNat 0 fs.toNat s) else
    s)) ∧
  (∃ (link : BitVec 3) (fs : BitVec 16) (fb : BitVec 8) (p : WeftPeer) (seen : Bool) (t : State) (s : State),
    (weft s link.toNat).st = .up ∧
    (t = if fecNow (weft s link.toNat) then weftCnt link.toNat 1 fb.toNat (weftCnt link.toNat 0 fs.toNat s) else
    s)) ∧
  (∃ (link : BitVec 3) (fs : BitVec 16) (fb : BitVec 8) (p : WeftPeer) (seen : Bool) (t : State) (s : State),
    (weft s link.toNat).st = .param ∧
    (t = if fecNow (weft s link.toNat) then weftCnt link.toNat 1 fb.toNat (weftCnt link.toNat 0 fs.toNat s) else
    s)) ∧
  (∃ (link : BitVec 3) (fs : BitVec 16) (fb : BitVec 8) (t : State) (s : State),
    (weft s link.toNat).st = .param ∧
    (t = if fecNow (weft s link.toNat) then weftCnt link.toNat 1 fb.toNat (weftCnt link.toNat 0 fs.toNat s) else
    s)) ∧
  (∃ (link : BitVec 3) (fs : BitVec 16) (fb : BitVec 8) (p : WeftPeer) (seen : Bool) (s : State),
    (weft s link.toNat).st = .relock) ∧
  (∃ (link : BitVec 3) (fs : BitVec 16) (fb : BitVec 8) (sym : List (List (BitVec 10))) (ms : List Msg)
    (v : ((Nat × Nat) × List (List Byte × Bool)) × WeftRecv) (t u : State) (s : State),
    (weft s link.toNat).st = .up ∧ (weft s link.toNat).recv.locked = true ∧
    v = rxSymbols (fecNow (weft s link.toNat)) sym (weft s link.toNat).recv ∧
    t = fecCount link.toNat v.1.1.1 v.1.1.2 (setWeft link.toNat { weft s link.toNat with recv := v.2 } s) ∧
    u = (readFlits v.1.2 ms).foldl (fun s x => flitPosition link.toNat x s) t) := by
  refine ⟨?_, ?_, ?_, ?_, ?_, ?_, ?_, ?_, ?_⟩
  · refine ⟨0#3, xweft .up, ?_⟩ <;> first | decide +kernel | rfl
  · refine ⟨0#3, xweft .param, ?_⟩ <;> first | decide +kernel | rfl
  · refine ⟨0#3, 0#16, 0#8, xflit, _, xweft .up, ?_, rfl⟩ <;> first | decide +kernel | rfl
  · refine ⟨0#3, 0#16, 0#8, _, xweft .up, ?_, rfl⟩ <;> first | decide +kernel | rfl
  · refine ⟨0#3, 0#16, 0#8, xpeer, false, _, xweft .up, ?_, rfl⟩ <;> first | decide +kernel | rfl
  · refine ⟨0#3, 0#16, 0#8, xpeer, false, _, xweft .param, ?_, rfl⟩ <;> first | decide +kernel | rfl
  · refine ⟨0#3, 0#16, 0#8, _, xweft .param, ?_, rfl⟩ <;> first | decide +kernel | rfl
  · refine ⟨0#3, 0#16, 0#8, xpeer, false, xweft .relock, ?_⟩ <;> first | decide +kernel | rfl
  · refine ⟨0#3, 0#16, 0#8, [], [], _, _, _,
      setWeft 0 { weft (xweft .up) 0 with recv := { WeftRecv.init with locked := true } } (xweft .up), ?_, ?_,
      rfl, rfl, rfl⟩ <;> first | decide +kernel | rfl

/-- The hypotheses of every clause of `Obligations.WeftTimersAct` are met. -/
theorem wit_WeftTimersAct :
  (∃ (link : BitVec 3) (t : BitVec 64) (s : State),
    (weft s link.toNat).timerAt = some t ∧ (weft s link.toNat).st = .up ∧ (weft s link.toNat).replay ≠ [] ∧
    (weft s link.toNat).stuckRounds < 4) ∧
  (∃ (link : BitVec 3) (t : BitVec 64) (s : State),
    (weft s link.toNat).timerAt = some t ∧ (weft s link.toNat).st = .up ∧ (weft s link.toNat).replay ≠ [] ∧
    4 ≤ (weft s link.toNat).stuckRounds) ∧
  (∃ (link : BitVec 3) (t : BitVec 64) (s : State),
    (weft s link.toNat).stuckSince = some t ∧ ((weft s link.toNat).st = .up ∨ (weft s link.toNat).st = .relock) ∧
    (weft s link.toNat).replay ≠ []) ∧
  (∃ (link : BitVec 3) (t : State) (s : State),
    (weft s link.toNat).st = .up ∧
    t = reach ((weft s link.toNat).snapAt.toNat + (weft s link.toNat).resyncUs.toNat * usTicks) s) ∧
  (∃ (link : BitVec 3) (t : State) (s : State),
    (weft s link.toNat).st = .up ∧
    t = reach (multipleFrom ((weft s link.toNat).tsyncUs.toNat * usTicks) (now s)) s) ∧
  (∃ (link : BitVec 3) (tag : BitVec 16) (e : TagUse) (s : State),
    tabGet none (weft s link.toNat).tags tag.toNat = some e ∧ e.msg.mclass ≠ 3 ∧ (weft s link.toNat).st = .up) ∧
  (∃ (link : BitVec 3) (c : LinkCmd) (cs : List LinkCmd) (s : State),
    (weft s link.toNat).cmds = c :: cs ∧ ((weft s link.toNat).st = .up ∨ (weft s link.toNat).st = .off)) := by
  refine ⟨?_, ?_, ?_, ?_, ?_, ?_, ?_⟩
  · refine ⟨0#3, 0#64,
      setWeft 0 { weft (xweft .up) 0 with timerAt := some 0, replay := [{ seq := 0, slots := [] }] } (xweft .up),
      ?_, ?_, ?_, ?_⟩ <;> first | decide +kernel | rfl
  · refine ⟨0#3, 0#64,
      setWeft 0
      { weft (xweft .up) 0 with timerAt := some 0, replay := [{ seq := 0, slots := [] }], stuckRounds := 4 }
      (xweft .up),
      ?_, ?_, ?_, ?_⟩ <;> first | decide +kernel | rfl
  · refine ⟨0#3, 0#64,
      setWeft 0 { weft (xweft .up) 0 with stuckSince := some 0, replay := [{ seq := 0, slots := [] }] } (xweft
      .up),
      ?_, ?_, ?_⟩ <;> first | decide +kernel | rfl
  · refine ⟨0#3, _, xweft .up, ?_, rfl⟩ <;> first | decide +kernel | rfl
  · refine ⟨0#3, _, xweft .up, ?_, rfl⟩ <;> first | decide +kernel | rfl
  · refine ⟨0#3, 3#16, { msg := m0, since := 0 },
      setWeft 0 { weft (xweft .up) 0 with tags := [(3, some { msg := m0, since := 0 })] } (xweft .up), ?_, ?_, ?_⟩ <;> first | decide +kernel | rfl
  · refine ⟨0#3, { ticket := 1, kind := 0, since := 0 }, [],
      setWeft 0 { weft (xweft .up) 0 with cmds := [{ ticket := 1, kind := 0, since := 0 }] } (xweft .up), ?_, ?_⟩ <;> first | decide +kernel | rfl

/-- The hypotheses of every clause of `Obligations.WeftLinkEventsAct` are met. -/
theorem wit_WeftLinkEventsAct :
  (∃ (link : BitVec 3) (t : State) (s : State),
    (weft s link.toNat).st = .up ∧
    t = weftCnt link.toNat 6 1 (setWeftSt link.toNat .relock (weftClock link.toNat s))) ∧
  (∃ (link : BitVec 3) (a : BitVec 64) (t : State) (s : State),
    (weft s link.toNat).st = .relock ∧ (weft s link.toNat).relockAt = some a ∧ now s ≤ a.toNat + 40 * usTicks ∧
    t = weftClock link.toNat (weftCnt link.toNat 7 1 (setWeftSt link.toNat .up s))) ∧
  (∃ (link : BitVec 3) (t : BitVec 64) (s : State),
    (weft s link.toNat).relockAt = some t ∧ (weft s link.toNat).st = .relock) ∧
  (∃ (link : BitVec 3) (s : State),
    weftOn s link.toNat = true ∧ (weft s link.toNat).st = .detect) ∧
  (∃ (link : BitVec 3) (s : State),
    weftOn s link.toNat = true ∧ (weft s link.toNat).st = .equalize ∧
    (weftLanes link.toNat).all (fun l => (lane s l).converged) = true) ∧
  (∃ (link : BitVec 3) (s : State),
    weftOn s link.toNat = true ∧ (weft s link.toNat).st = .align) ∧
  (∃ (link : BitVec 3) (k : Nat) (st next : WeftSt) (s : State),
    (weft s link.toNat).st = st ∧
    ((st = .equalize ∧ k = 20 ∧ next = .detect) ∨ (st = .param ∧ k = 1 ∧ next = .detect))) ∧
  (∃ (link : BitVec 3) (s : State),
    (weft s link.toNat).st = .align) ∧
  (∃ (link : BitVec 3) (s : State),
    paramDone (weft s link.toNat) = true) := by
  refine ⟨?_, ?_, ?_, ?_, ?_, ?_, ?_, ?_, ?_⟩
  · refine ⟨0#3, _, xweft .up, ?_, rfl⟩ <;> first | decide +kernel | rfl
  · refine ⟨0#3, 0#64, _, setWeft 0 { weft (xweft .relock) 0 with relockAt := some 0 } (xweft .relock), ?_, ?_, ?_, rfl⟩ <;> first | decide +kernel | rfl
  · refine ⟨0#3, 0#64, setWeft 0 { weft (xweft .relock) 0 with relockAt := some 0 } (xweft .relock), ?_, ?_⟩ <;> first | decide +kernel | rfl
  · refine ⟨0#3, setDomain 152 { domain base 152 with st := .on, step := 0 } (xweft .detect), ?_, ?_⟩ <;> first | decide +kernel | rfl
  · refine ⟨0#3, xconverged, ?_, ?_, ?_⟩ <;> first | decide +kernel | rfl
  · refine ⟨0#3, setDomain 152 { domain base 152 with st := .on, step := 0 } (xweft .align), ?_, ?_⟩ <;> first | decide +kernel | rfl
  · refine ⟨0#3, 20, .equalize, .detect, xweft .equalize, ?_, ?_⟩ <;> first | decide +kernel | rfl
  · refine ⟨0#3, xweft .align, ?_⟩ <;> first | decide +kernel | rfl
  · refine ⟨0#3,
      setWeft 0 { weft (xweft .param) 0 with peer := some xpeer, goodTrains := 8, seenGot := 8, seenSent := 16 }
      (xweft .param),
      ?_⟩ <;> first | decide +kernel | rfl

/-- The hypotheses of every clause of `Obligations.WeftCommandsAct` are met. -/
theorem wit_WeftCommandsAct :
  (∃ (r : Req) (link : BitVec 8) (s : State),
    serves 0x0501 false r (wBytes 1 link) s ∧ link.toNat ≤ 7) ∧
  (∃ (r : Req) (link vc fec : BitVec 8) (sl : BitVec 256) (rt rs ts tg : BitVec 16) (s : State),
    serves 0x0502 false r (wBytes 1 link ++ wBytes 1 vc ++ wBytes 1 fec ++ zeros 1 ++ wBytes 32 sl ++ wBytes 2 rt
    ++ wBytes 2 rs ++ wBytes 2 ts ++ wBytes 2 tg) s ∧
    link.toNat ≤ 7 ∧ weftCfgBad vc fec sl rt rs ts tg = none ∧ (weft s link.toNat).st = .off) ∧
  (∃ (r : Req) (link : BitVec 8) (p : WeftPeer) (s : State),
    serves 0x0503 false r (wBytes 1 link) s ∧ link.toNat ≤ 7 ∧ (weft s link.toNat).peer = some p ∧
    (weft s link.toNat).idDiffers = true) ∧
  (∃ (r : Req) (link : BitVec 8) (t : State) (s : State),
    serves 0x0504 false r (wBytes 1 link) s ∧ link.toNat ≤ 7 ∧ s.mgmt.tickets.length < 256 ∧
    t = weftRetrain link.toNat (holdTicket 0x0504 r s)) ∧
  (∃ (r : Req) (link : BitVec 8) (t : State) (s : State),
    serves 0x0505 false r (wBytes 1 link) s ∧ link.toNat ≤ 7 ∧ s.mgmt.tickets.length < 256 ∧
    t = weftStop link.toNat .command (setWeft link.toNat { weft s link.toNat with disabled := true } (holdTicket
    0x0505 r s))) ∧
  (∃ (r : Req) (link : BitVec 8) (t : State) (s : State),
    serves 0x0506 false r (wBytes 1 link) s ∧ link.toNat ≤ 7 ∧ s.mgmt.tickets.length < 256 ∧
    t = weftRelease link.toNat (setWeft link.toNat { weft s link.toNat with disabled := false } (holdTicket 0x0506
    r s)) ∧
    (weftLanes link.toNat).any (fun l => (lane s l).testing) = false) ∧
  (∃ (r : Req) (link : BitVec 8) (s : State),
    serves 0x0507 false r (wBytes 1 link) s ∧ link.toNat ≤ 7) := by
  refine ⟨?_, ?_, ?_, ?_, ?_, ?_, ?_⟩
  · refine ⟨r0, 0#8, asked 0x0501 (wBytes 1 0#8) base, asked_serves ?_, ?_⟩ <;> first | decide +kernel | rfl
  · refine ⟨r0, 0#8, 2#8, 0#8, BitVec.ofNat 256 (288 + 288 * 2 ^ 32), 4#16, 64#16, 8#16, 50#16,
      asked 0x0502 (wBytes 1 0#8 ++ wBytes 1 2#8 ++ wBytes 1 0#8 ++ zeros 1 ++ wBytes 32 (BitVec.ofNat 256 (288 +
      288 * 2 ^ 32)) ++ wBytes 2 4#16 ++ wBytes 2 64#16 ++ wBytes 2 8#16 ++ wBytes 2 50#16) base,
      asked_serves ?_, ?_, ?_, ?_⟩ <;> first | decide +kernel | rfl
  · refine ⟨r0, 0#8, xpeer,
      asked 0x0503 (wBytes 1 0#8) (setWeft 0 { weft base 0 with peer := some xpeer, idDiffers := true } base),
      asked_serves ?_, ?_, ?_, ?_⟩ <;> first | decide +kernel | rfl
  · refine ⟨r0, 0#8, _, asked 0x0504 (wBytes 1 0#8) base, asked_serves ?_, ?_, ?_, rfl⟩ <;> first | decide +kernel | rfl
  · refine ⟨r0, 0#8, _, asked 0x0505 (wBytes 1 0#8) base, asked_serves ?_, ?_, ?_, rfl⟩ <;> first | decide +kernel | rfl
  · refine ⟨r0, 0#8, _, asked 0x0506 (wBytes 1 0#8) base, asked_serves ?_, ?_, ?_, rfl, ?_⟩ <;> first | decide +kernel | rfl
  · refine ⟨r0, 0#8, asked 0x0507 (wBytes 1 0#8) base, asked_serves ?_, ?_⟩ <;> first | decide +kernel | rfl

/-- The hypotheses of every clause of `Obligations.MailboxesAct` are met. -/
theorem wit_MailboxesAct :
  (∃ (m : BitVec 2) (h : List Byte) (n : Nat) (p : List Byte) (s : State),
    (mbx s m.toNat).busy = false ∧ (mbx s m.toNat).done = false ∧ h = tabSlice 0 (mbx s m.toNat).req 0 16 ∧
    n = leAt h 8 4 ∧ n ≤ mailboxMax ∧ p = tabSlice 0 (mbx s m.toNat).req 16 n) ∧
  (∃ (m : BitVec 2) (op tag : BitVec 16) (q : Reply) (s : State),
    (mbx s m.toNat).answer = some (op, tag, q)) ∧
  (∃ (r : Req) (op : BitVec 16) (s : State),
    s.mgmt.fw ≠ .running ∧ s.fault.safeStop = false ∧ s.pmu.st ≠ .standby ∧ s.boot.stage ≠ 7 ∧
    s.boot.held = false ∧ inHand r op.toNat [] s = true) ∧
  (∃ (s : State),
    s.mgmt.fw = .running ∧ s.mgmt.noticeDue = true) ∧
  (∃ (s : State),
    s.mgmt.fw = .running ∧ inHangWindow s = false) ∧
  (∃ (s : State),
    s.mgmt.fw = .running ∧ inHangWindow s = true) ∧
  (∃ (t : State) (s : State),
    s.mgmt.fw = .restarting ∧
    (t = queueEvent 6 (BitVec.ofNat 128 (s.mgmt.restarts.toNat + s.mgmt.restartCause.toNat * 2 ^ 16)) { s with
      mgmt := { s.mgmt with
          fw := .running, hangRestart := false,
          hangWindow := if s.mgmt.hangRestart then some (s.aon + BitVec.ofNat 64 (10 * secTicks)) else
            s.mgmt.hangWindow } })) ∧
  (∃ (t : State) (s : State),
    s.mgmt.maker ≠ none ∧ t = reachAon (s.mgmt.makerSince.toNat + 1800 * secTicks) s) := by
  refine ⟨?_, ?_, ?_, ?_, ?_, ?_, ?_, ?_⟩
  · refine ⟨0#2, _, _, _, base, ?_, ?_, rfl, rfl, ?_, rfl⟩ <;> first | decide +kernel | rfl
  · refine ⟨0#2, 5#16, 7#16, ok, setMbx 0 { mbx base 0 with answer := some (5, 7, ok) } base, ?_⟩ <;> first | decide +kernel | rfl
  · refine ⟨r0, 0x102#16, { asked 0x102 [] base with mgmt := { (asked 0x102 [] base).mgmt with fw := .restarting } },
      ?_, ?_, ?_, ?_, ?_, asked_inHand (by decide) [] base⟩ <;> first | decide +kernel | rfl
  · refine ⟨{ base with mgmt := { base.mgmt with noticeDue := true } }, ?_, ?_⟩ <;> first | decide +kernel | rfl
  · refine ⟨base, ?_, ?_⟩ <;> first | decide +kernel | rfl
  · refine ⟨{ base with mgmt := { base.mgmt with hangWindow := some 1000 } }, ?_, ?_⟩ <;> first | decide +kernel | rfl
  · refine ⟨_, { base with mgmt := { base.mgmt with fw := .restarting } }, ?_, rfl⟩ <;> first | decide +kernel | rfl
  · refine ⟨_, { base with mgmt := { base.mgmt with maker := some r0.src } }, ?_, rfl⟩ <;> first | decide +kernel | rfl

/-- The hypotheses of every clause of `Obligations.MctpMessagesAct` are met. -/
theorem wit_MctpMessagesAct :
  (∃ (t : Transport) (p : Packet) (s : State),
    deaf t s = false ∧ transportUp s t = true ∧ p.dst = s.mgmt.eid) ∧
  (∃ (t : Transport) (p : Packet) (b : Bridge) (s : State),
    deaf t s = false ∧ transportUp s t = true ∧ p.dst ≠ s.mgmt.eid ∧ p.dst ≠ 0xFF ∧ s.boot.stage ≠ 7 ∧
    bridgeFor s p.dst = some b ∧ transportUp s (bridgeOut b) = true) ∧
  (∃ (t : Transport) (e x : BitVec 8) (s : State),
    deaf t s = false ∧ transportUp s t = true ∧ trusted s t = true) ∧
  (∃ (t : Transport) (e : BitVec 8) (s : State),
    deaf t s = false ∧ transportUp s t = true) := by
  refine ⟨?_, ?_, ?_, ?_⟩
  · refine ⟨.i3c 0, { src := 8, dst := 0, tag := 0, owner := true, seq := 0, som := true, eom := true, bytes := [] },
      base, ?_, ?_, ?_⟩ <;> first | decide +kernel | rfl
  · refine ⟨.i3c 0, { src := 8, dst := 9, tag := 0, owner := true, seq := 0, som := true, eom := true, bytes := [] },
      { first := 9, last := 9, kind := 1, index := 1 },
      { base with
        mgmt := { base.mgmt with bridge := [(0, some { first := 9, last := 9, kind := 1, index := 1 })] } },
      ?_, ?_, ?_, ?_, ?_, ?_, ?_⟩ <;> first | decide +kernel | rfl
  · refine ⟨.i3c 0, 0#8, 0#8, base, ?_, ?_, ?_⟩ <;> first | decide +kernel | rfl
  · refine ⟨.i3c 0, 0#8, base, ?_, ?_⟩ <;> first | decide +kernel | rfl

/-- The hypotheses of every clause of `Obligations.ManagementCommandsAct` are met. -/
theorem wit_ManagementCommandsAct :
  (∃ (r : Req) (s : State),
    serves 0x0102 false r [] s) ∧
  (∃ (r : Req) (t : BitVec 16) (k : Ticket) (q : Reply) (s : State),
    serves 0x0103 false r (wBytes 2 t ++ zeros 2) s ∧
    s.mgmt.tickets.find? (fun k => decide (k.num = t)) = some k ∧ k.result = some q ∧ q.payload.length ≤ 8000) ∧
  (∃ (r : Req) (f : BitVec 32) (k : BitVec 16) (es : List Event) (s : State),
    serves 0x0104 false r (wBytes 4 f ++ wBytes 2 k ++ zeros 2) s ∧ 1 ≤ k.toNat ∧ k.toNat ≤ 64 ∧
    seqBefore f (oldestSeq s) = false ∧ es = (s.mgmt.events.filter fun e => !seqBefore e.seq f).take k.toNat) ∧
  (∃ (r : Req) (q : BitVec 32) (t : State) (s : State),
    serves 0x0105 false r (wBytes 4 q) s ∧ seqBefore q s.mgmt.head = true ∧
    t = { s with mgmt := { s.mgmt with events := s.mgmt.events.filter fun e => seqBefore q e.seq } }) ∧
  (∃ (r : Req) (e : BitVec 8) (s : State),
    serves 0x0106 false r ([e, 0] ++ zeros 2) s) ∧
  (∃ (r : Req) (e : BitVec 8) (s : State),
    serves 0x0106 false r ([e, 1] ++ zeros 2) s ∧ s.mgmt.subs.contains e = false ∧ s.mgmt.subs.length < 8) ∧
  (∃ (r : Req) (o : BitVec 32) (k : BitVec 16) (s : State),
    serves 0x0107 false r (wBytes 4 o ++ wBytes 2 k ++ zeros 2) s ∧ dcwBad o.toNat 1 = false ∧ 1 ≤ k.toNat ∧
    k.toNat ≤ 512 ∧ dcwBad o.toNat k.toNat = false) ∧
  (∃ (r : Req) (o : BitVec 32) (vs : List (BitVec 64)) (s : State),
    serves 0x0108 false r (wBytes 4 o ++ leBytes 2 vs.length ++ zeros 2 ++ (vs.map fun v => wBytes 8 v).flatten)
    s ∧
    dcwBad o.toNat 1 = false ∧ 1 ≤ vs.length ∧ vs.length ≤ 512 ∧ dcwBad o.toNat vs.length = false) ∧
  (∃ (r : Req) (p vf : BitVec 8) (n : BitVec 16) (s : State),
    serves 0x0109 false r ([p, vf] ++ wBytes 2 n) s ∧ p.toNat < 96 ∧ vf.toNat < 64 ∧ n = 0xFFFF ∧
    (tabGet none s.mgmt.vfs (p.toNat * 64 + vf.toNat)).any (instBusy s) = false) ∧
  (∃ (r : Req) (p vf : BitVec 8) (n : BitVec 16) (s : State),
    serves 0x0109 false r ([p, vf] ++ wBytes 2 n) s ∧ p.toNat < 96 ∧ vf.toNat < 64 ∧ n.toNat < 1024 ∧
    (tabGet none s.mgmt.vfs (p.toNat * 64 + vf.toNat)).any (instBusy s) = false ∧
    instBusy s (n.setWidth 10) = false ∧
    s.mgmt.vfs.any (fun e => decide (e.1 ≠ p.toNat * 64 + vf.toNat) && decide (e.2 = some (n.setWidth 10))) =
    false) ∧
  (∃ (r : Req) (e f l t i : BitVec 8) (s : State),
    serves 0x010A false r ([e, f, l, t, i] ++ zeros 3) s ∧ e.toNat < 64 ∧ t.toNat ≤ 3 ∧
    i.toNat < transportCount t.toNat) ∧
  (∃ (r : Req) (type : BitVec 8) (s : State),
    serves 0x010B false r ([type] ++ zeros 3) s ∧ type.toNat ≤ 2) ∧
  (∃ (r : Req) (s : State),
    serves 0x0101 false r [] s) := by
  refine ⟨?_, ?_, ?_, ?_, ?_, ?_, ?_, ?_, ?_, ?_, ?_, ?_, ?_⟩
  · refine ⟨r0, asked 0x0102 [] base, asked_serves ?_⟩ <;> first | decide +kernel | rfl
  · refine ⟨r0, 1#16, { num := 1, opcode := 5, tag := 6, result := some ok }, ok,
      asked 0x0103 (wBytes 2 1#16 ++ zeros 2) ({ base with
        mgmt := { base.mgmt with tickets := [{ num := 1, opcode := 5, tag := 6, result := some ok }] } }),
      asked_serves ?_, ?_, ?_, ?_⟩ <;> first | decide +kernel | rfl
  · refine ⟨r0, 0#32, 1#16, _, asked 0x0104 (wBytes 4 0#32 ++ wBytes 2 1#16 ++ zeros 2) base, asked_serves ?_, ?_, ?_,
      ?_, rfl⟩ <;> first | decide +kernel | rfl
  · refine ⟨r0, 0xFFFFFFFF#32, _, asked 0x0105 (wBytes 4 0xFFFFFFFF#32) base, asked_serves ?_, ?_, rfl⟩ <;> first | decide +kernel | rfl
  · refine ⟨r0, 0#8, asked 0x0106 ([0#8, 0] ++ zeros 2) base, asked_serves ?_⟩ <;> first | decide +kernel | rfl
  · refine ⟨r0, 0#8, asked 0x0106 ([0#8, 1] ++ zeros 2) base, asked_serves ?_, ?_, ?_⟩ <;> first | decide +kernel | rfl
  · refine ⟨r0, 0#32, 1#16, asked 0x0107 (wBytes 4 0#32 ++ wBytes 2 1#16 ++ zeros 2) base, asked_serves ?_, ?_, ?_, ?_,
      ?_⟩ <;> first | decide +kernel | rfl
  · refine ⟨r0, 0#32, [0],
      asked 0x0108 (wBytes 4 0#32 ++ leBytes 2 [0].length ++ zeros 2 ++ ([0].map fun v => wBytes 8 v).flatten)
      base,
      asked_serves ?_, ?_, ?_, ?_, ?_⟩ <;> first | decide +kernel | rfl
  · refine ⟨r0, 0#8, 0#8, 0xFFFF#16, asked 0x0109 ([0#8, 0#8] ++ wBytes 2 0xFFFF#16) base, asked_serves ?_, ?_, ?_, ?_,
      ?_⟩ <;> first | decide +kernel | rfl
  · refine ⟨r0, 0#8, 0#8, 0#16, asked 0x0109 ([0#8, 0#8] ++ wBytes 2 0#16) base, asked_serves ?_, ?_, ?_, ?_, ?_, ?_,
      ?_⟩ <;> first | decide +kernel | rfl
  · refine ⟨r0, 0#8, 0#8, 0#8, 0#8, 0#8, asked 0x010A ([0#8, 0#8, 0#8, 0#8, 0#8] ++ zeros 3) base, asked_serves ?_, ?_,
      ?_, ?_⟩ <;> first | decide +kernel | rfl
  · refine ⟨r0, 0#8, asked 0x010B ([0#8] ++ zeros 3) base, asked_serves ?_, ?_⟩ <;> first | decide +kernel | rfl
  · refine ⟨r0, asked 0x0101 [] base, asked_serves ?_⟩ <;> first | decide +kernel | rfl

/-- The hypotheses of every clause of `Obligations.FabricManagerCommandsAct` are met. -/
theorem wit_FabricManagerCommandsAct :
  (∃ (q : FmSrc) (s : State),
    fmServes q s) ∧
  (∃ (q : FmSrc) (us : List (BitVec 7)) (s : State),
    fmServes q s ∧ us.all (fun u => decide (u.toNat < 96)) = true) ∧
  (∃ (q : FmSrc) (u : BitVec 7) (s : State),
    fmServes q s ∧ fmPort s u.toNat = true) ∧
  (∃ (q : FmSrc) (u : BitVec 7) (s : State),
    fmServes q s ∧ fmPort s u.toNat = true ∧ (port s u.toNat).role = 2 ∧
    prSlot (portRec s (u.toNat / 2)) (u.toNat % 2) < 24) ∧
  (∃ (q : FmSrc) (u : BitVec 7) (reg : BitVec 12) (d : BitVec 32) (s : State),
    fmServes q s ∧ fmPort s u.toNat = true) ∧
  (∃ (q : FmSrc) (u : BitVec 7) (s : State),
    fmServes q s ∧ isUsp s u.toNat = true) ∧
  (∃ (q : FmSrc) (usp : BitVec 7) (v : BitVec 4) (u : BitVec 7) (ld : Option (BitVec 4)) (c : BindMark)
    (s : State),
    fmServes q s ∧ isUsp s usp.toNat = true ∧ fmPort s u.toNat = true ∧ (port s u.toNat).role = 2 ∧
    tabGet none s.mgmt.vppbs (usp.toNat * 16 + v.toNat) = none ∧ (c.cache = true → cacheBound s < 16)) ∧
  (∃ (q : FmSrc) (usp : BitVec 7) (v : BitVec 4) (b : VppbBind) (t : State) (s : State),
    fmServes q s ∧ tabGet none s.mgmt.vppbs (usp.toNat * 16 + v.toNat) = some b ∧
    t = vppbResolve (usp.toNat * 16 + v.toNat) b s) ∧
  (∃ (q : FmSrc) (u : BitVec 7) (v : BitVec 4) (e : BitVec 32) (hd : BitVec 128) (s : State),
    fmServes q s ∧ isUsp s u.toNat = true) ∧
  (∃ (q : FmSrc) (u : BitVec 7) (zs : List (BitVec 64)) (s : State),
    fmServes q s ∧ mldPort s u.toNat = true) ∧
  (∃ (q : FmSrc) (u : BitVec 7) (ld : BitVec 4) (reg : BitVec 12) (d : BitVec 32) (s : State),
    fmServes q s ∧ mldPort s u.toNat = true) ∧
  (∃ (q : FmSrc) (u : BitVec 7) (ld : BitVec 4) (o : BitVec 64) (d : List Byte) (s : State),
    fmServes q s ∧ mldPort s u.toNat = true) ∧
  (∃ (u : BitVec 7) (zs : List (BitVec 64)) (t : State) (s : State),
    s.mgmt.tunnels.contains u = true ∧
    t = { s with mgmt := { s.mgmt with tunnels := s.mgmt.tunnels.filter (· ≠ u) } }) ∧
  (∃ (q : FmSrc) (c : BitVec 16) (s : State),
    fmServes q s) := by
  refine ⟨?_, ?_, ?_, ?_, ?_, ?_, ?_, ?_, ?_, ?_, ?_, ?_, ?_, ?_⟩
  · refine ⟨f0, base, by unfold fmServes; decide +kernel⟩ <;> first | decide +kernel | rfl
  · refine ⟨f0, [0], base, by unfold fmServes; decide +kernel, ?_⟩ <;> first | decide +kernel | rfl
  · refine ⟨f0, 0#7, xport, by unfold fmServes; decide +kernel, ?_⟩ <;> first | decide +kernel | rfl
  · refine ⟨f0, 0#7, xport, by unfold fmServes; decide +kernel, ?_, ?_, ?_⟩ <;> first | decide +kernel | rfl
  · refine ⟨f0, 0#7, 0#12, 0#32, xport, by unfold fmServes; decide +kernel, ?_⟩ <;> first | decide +kernel | rfl
  · refine ⟨f0, 0#7, xswitch, by unfold fmServes; decide +kernel, ?_⟩ <;> first | decide +kernel | rfl
  · refine ⟨f0, 0#7, 0#4, 2#7, none, { cache := true, owner := true }, xswitch, by unfold fmServes; decide +kernel, ?_,
      ?_, ?_, ?_, ?_⟩ <;> first | decide +kernel | rfl
  · refine ⟨f0, 0#7, 0#4, { port := 0, ld := none, cache := false, owner := false }, _, xvppb,
      by unfold fmServes; decide +kernel, ?_, rfl⟩ <;> first | decide +kernel | rfl
  · refine ⟨f0, 0#7, 0#4, 0#32, 0#128, xswitch, by unfold fmServes; decide +kernel, ?_⟩ <;> first | decide +kernel | rfl
  · refine ⟨f0, 0#7, [], xmld, by unfold fmServes; decide +kernel, ?_⟩ <;> first | decide +kernel | rfl
  · refine ⟨f0, 0#7, 0#4, 0#12, 0#32, xmld, by unfold fmServes; decide +kernel, ?_⟩ <;> first | decide +kernel | rfl
  · refine ⟨f0, 0#7, 0#4, 0#64, [], xmld, by unfold fmServes; decide +kernel, ?_⟩ <;> first | decide +kernel | rfl
  · refine ⟨0#7, [], _, { base with mgmt := { base.mgmt with tunnels := [0] } }, ?_, rfl⟩ <;> first | decide +kernel | rfl
  · refine ⟨f0, 0#16, base, by unfold fmServes; decide +kernel⟩ <;> first | decide +kernel | rfl

/-- The hypotheses of every clause of `Obligations.CrossbarSlotsAndCellsAct` are met. -/
theorem wit_CrossbarSlotsAndCellsAct :
  (∃ (pl : BitVec 1) (k : Nat) (t v : State) (s : State),
    s.fault.safeStop = false ∧ (plane s pl.toNat).st = .up ∧
    k = max (plane s pl.toNat).nextSlot (slotAt (now s)) ∧ t = reach (slotTick k) s ∧
    (v = if pl = 1 ∧ (plane t 0).st = .up ∧ (plane t 0).nextSlot ≤ k then runSlot 0 k t else t)) ∧
  (∃ (src dst : BitVec 6) (seq : BitVec 12) (u : Unacked) (t : State) (s : State),
    s.fault.safeStop = false ∧
    (pair s (pairIx src.toNat dst.toNat)).window.find? (fun u => decide (u.seq = seq) && u.flying) = some u ∧
    (plane s u.plane.toNat).st = .up ∧ u.resends = 0 ∧
    t = setPair (pairIx src.toNat dst.toNat) { (pair s (pairIx src.toNat dst.toNat)) with
      window := (pair s (pairIx src.toNat dst.toNat)).window.map fun v => if v.seq = seq then
        { v with flying := false, acked := v.acked || true } else v } s) ∧
  (∃ (src dst : BitVec 6) (seq : BitVec 12) (u : Unacked) (s : State),
    (pair s (pairIx src.toNat dst.toNat)).window.find? (fun u => decide (u.seq = seq) && u.acked) = some u) ∧
  (∃ (src dst : BitVec 6) (seq : BitVec 12) (u : Unacked) (t : State) (s : State),
    (pair s (pairIx src.toNat dst.toNat)).window.find? (fun u => decide (u.seq = seq) && !u.due) = some u ∧
    u.resends < 3 ∧ t = reach (u.sentAt.toNat + 205) s) ∧
  (∃ (src dst : BitVec 6) (seq : BitVec 12) (u : Unacked) (s : State),
    (pair s (pairIx src.toNat dst.toNat)).window.find? (fun u => decide (u.seq = seq) && !u.due) = some u ∧
    u.resends = 3) ∧
  (∃ (x p : BitVec 6) (c : BitVec 3) (g : Starve) (t : State) (s : State),
    promote (starveTicks s x.toNat) (tabGet Starve.init (output s x.toNat).starve c.toNat) s = some (g, t)) ∧
  (∃ (x p : BitVec 6) (c : BitVec 3) (g : Starve) (t : State) (s : State),
    promote (starveTicks s x.toNat) (tabGet Starve.init s.xbar.starve (groupIx x.toNat p.toNat c.toNat)) s = some
    (g, t)) := by
  refine ⟨?_, ?_, ?_, ?_, ?_, ?_, ?_⟩
  · refine ⟨0#1, _, _, _, base, ?_, ?_, rfl, rfl, rfl⟩ <;> first | decide +kernel | rfl
  · refine ⟨0#6, 0#6, 0#12, u0, _, setPair (pairIx 0 0) { Pair.init with window := [u0] } base, ?_, ?_, ?_, ?_, rfl⟩ <;> first | decide +kernel | rfl
  · refine ⟨0#6, 0#6, 0#12, { u0 with acked := true },
      setPair (pairIx 0 0) { Pair.init with window := [{ u0 with acked := true }] } base, ?_⟩ <;> first | decide +kernel | rfl
  · refine ⟨0#6, 0#6, 0#12, u0, _, setPair (pairIx 0 0) { Pair.init with window := [u0] } base, ?_, ?_, rfl⟩ <;> first | decide +kernel | rfl
  · refine ⟨0#6, 0#6, 0#12, { u0 with resends := 3 },
      setPair (pairIx 0 0) { Pair.init with window := [{ u0 with resends := 3 }] } base, ?_, ?_⟩ <;> first | decide +kernel | rfl
  · refine ⟨0#6, 0#6, 0#3, _, _,
      setOutput 0
      { Output.init with starve := [(0, { since := some 0, urgent := 0, order := 0, promoted := 0 })] } base,
      rfl⟩ <;> first | decide +kernel | rfl
  · refine ⟨0#6, 0#6, 0#3, _, _,
      { base with
        xbar := { base.xbar with starve := [(0, { since := some 0, urgent := 0, order := 0, promoted := 0 })] } },
      rfl⟩ <;> first | decide +kernel | rfl

/-- The hypotheses of every clause of `Obligations.PlanesAndLoomLinksAct` are met. -/
theorem wit_PlanesAndLoomLinksAct :
  (∃ (pl : BitVec 1) (c : PlaneCause) (t : BitVec 64) (s : State),
    (plane s pl.toNat).symptom = some (c, t)) ∧
  (∃ (pl : BitVec 1) (ok : Bool) (t v : State) (s : State),
    (plane s pl.toNat).st = .test ∧ (domain s (168 + pl.toNat)).step = 4 ∧
    t = reach (nextFrame ((plane s pl.toNat).testFrom.toNat - 1) + frameTicks) s ∧
    v = setDomain (168 + pl.toNat) { domain t (168 + pl.toNat) with st := .on, step := 0 } t ∧
    (plane v pl.toNat).st = .test ∧ comingBack v pl.toNat = false) ∧
  (∃ (pl : BitVec 1) (ok : Bool) (t v : State) (s : State),
    (plane s pl.toNat).st = .test ∧ (domain s (168 + pl.toNat)).step = 4 ∧
    t = reach (nextFrame ((plane s pl.toNat).testFrom.toNat - 1) + frameTicks) s ∧
    v = setDomain (168 + pl.toNat) { domain t (168 + pl.toNat) with st := .on, step := 0 } t ∧
    (plane v pl.toNat).st = .test ∧ comingBack v pl.toNat = true) ∧
  (∃ (pl : BitVec 1) (t : State) (s : State),
    (plane s pl.toNat).st = .standby ∧ (plane s pl.toNat).rejoin = true ∧ t = reach (nextFrame (now s)) s) ∧
  (∃ (lm : BitVec 3) (s : State),
    (loom s lm.toNat).st = .up ∧ (loom s lm.toNat).symptomAt = none) ∧
  (∃ (lm : BitVec 3) (t : BitVec 64) (s : State),
    (loom s lm.toNat).symptomAt = some t ∧ now s < t.toNat + 30 * usTicks) ∧
  (∃ (lm : BitVec 3) (t : BitVec 64) (s : State),
    (loom s lm.toNat).symptomAt = some t) ∧
  (∃ (lm : BitVec 3) (t : State) (s : State),
    (loom s lm.toNat).st ≠ .up ∧ t = reach ((loom s lm.toNat).lastTry.toNat + msTicks) s) ∧
  (∃ (lm : BitVec 3) (t v : State) (s : State),
    (loom s lm.toNat).st ≠ .up ∧
    t = (loomXps lm.toNat).foldl (fun s x => if x < 48 then expireDue x (2 * x + 1) (expireDue x (2 * x) s) else
    s) (setLoom lm.toNat { loom s lm.toNat with st := .up } s) ∧
    v = (loomXps lm.toNat).foldl (fun s x => if linkLive s x && decide ((output s x).st = .held) then resumeOutput
    x s else s) t) := by
  refine ⟨?_, ?_, ?_, ?_, ?_, ?_, ?_, ?_, ?_⟩
  · refine ⟨0#1, .resends, 5#64, setPlane 0 { plane base 0 with symptom := some (.resends, 5) } base, ?_⟩ <;> first | decide +kernel | rfl
  · refine ⟨0#1, false, _, _,
      setDomain 168 { domain base 168 with step := 4 } (setPlane 0 { plane base 0 with st := .test } base), ?_,
      ?_, rfl, rfl, ?_, ?_⟩ <;> first | decide +kernel | rfl
  · refine ⟨0#1, false, _, _,
      setDomain 168 { domain base 168 with step := 4 } (setPlane 0 { plane base 0 with st := .test }
      { base with pmu := { base.pmu with exiting := true } }),
      ?_, ?_, rfl, rfl, ?_, ?_⟩ <;> first | decide +kernel | rfl
  · refine ⟨0#1, _, setPlane 0 { plane base 0 with st := .standby, rejoin := true } base, ?_, ?_, rfl⟩ <;> first | decide +kernel | rfl
  · refine ⟨0#3, base, ?_, ?_⟩ <;> first | decide +kernel | rfl
  · refine ⟨0#3, 0#64, setLoom 0 { loom base 0 with symptomAt := some 0 } base, ?_, ?_⟩ <;> first | decide +kernel | rfl
  · refine ⟨0#3, 0#64, setLoom 0 { loom base 0 with symptomAt := some 0 } base, ?_⟩ <;> first | decide +kernel | rfl
  · refine ⟨0#3, _, setLoom 0 { loom base 0 with st := .retraining } base, ?_, rfl⟩ <;> first | decide +kernel | rfl
  · refine ⟨0#3, _, _, setLoom 0 { loom base 0 with st := .retraining } base, ?_, rfl, rfl⟩ <;> first | decide +kernel | rfl

/-- The hypotheses of every clause of `Obligations.CellBufferAndReservoirAct` are met. -/
theorem wit_CellBufferAndReservoirAct :
  (∃ (i : BitVec 6) (c : BitVec 3) (w : Waiting) (l : List Waiting) (v : State) (s : State),
    s.fault.safeStop = false ∧ tabGet [] s.xbar.rx (i.toNat * 8 + c.toNat) = w :: l ∧
    (tryPlace w.outXp.toNat w.msg s).1 = some v) ∧
  (∃ (x : BitVec 6) (s : State),
    (output s x.toNat).st = .resuming ∧ marksDone s x.toNat = true ∧ (output s x.toNat).stagedMark = 0) ∧
  (∃ (i o : BitVec 6) (mc sc : BitVec 3) (pl : CellPlace) (c : Chunk) (l : List Chunk) (k : Nat) (s : State),
    s.fault.safeStop = false ∧ k = voqIx i.toNat o.toNat mc.toNat sc.toNat ∧ (voq s k).chunks = c :: l ∧
    segCells (voq s k) < 51) ∧
  (∃ (i o : BitVec 6) (mc sc : BitVec 3) (pl : CellPlace) (w : BitVec 64) (c : Chunk) (l : List Chunk) (k : Nat)
    (s : State),
    s.fault.safeStop = false ∧ k = voqIx i.toNat o.toNat mc.toNat sc.toNat ∧ (voq s k).chunks = c :: l ∧
    segCells (voq s k) < 51) ∧
  (∃ (s : State),
    s.xbar.auditPhase = .idle) ∧
  (∃ (s : State),
    s.xbar.auditPhase = .idle) ∧
  (∃ (bs : List BrokenList) (t v : State) (s : State),
    s.xbar.auditPhase = .walk ∧ t = bs.foldl breakList s ∧ v = (listed t).foldl colourCell t) ∧
  (∃ (l : List Nat) (k : Nat) (t v : State) (s : State),
    s.xbar.auditPhase = .sweep ∧ l = leaked s ∧ k = l.length + (s.xbar.cutFree.map (·.2)).sum ∧
    t = ownAll l .free s ∧
    (v = { t with
      xbar := { t.xbar with
          auditPhase := .idle, passes := t.xbar.passes + 1, lastLeaked := BitVec.ofNat 20 k, cutFree := [],
          repairPasses := if k = 0 then t.xbar.repairPasses else satAdd t.xbar.repairPasses 1 } })) ∧
  (∃ (u : BitVec 7) (x : Nat) (t : BitVec 64) (v : State) (s : State),
    x = queueXp s (u.toNat / 2) ∧ tabGet none (output s x).upHold (u.toNat % 2) = some t ∧ upHoldEnds s = true ∧
    v = reach (t.toNat + bfUpHold (bufRec s 64) * usTicks) s) := by
  refine ⟨?_, ?_, ?_, ?_, ?_, ?_, ?_, ?_, ?_⟩
  · refine ⟨0#6, 0#3, { msg := m0, outXp := 3 }, [], (tryPlace 3 m0 xw).1.get xw_placed, xw, ?_, ?_,
      (Option.some_get _).symm⟩ <;> first | decide +kernel | rfl
  · refine ⟨0#6, setOutSt 0 .resuming base, ?_, ?_, ?_⟩ <;> first | decide +kernel | rfl
  · refine ⟨0#6, 0#6, 0#3, 0#3, { inHeader := false, which := 0 }, { stackB := false, cells := 2, filled := 2 }, [], _,
      setVoq 0 { voq base 0 with chunks := [{ stackB := false, cells := 2, filled := 2 }] } base, ?_, rfl, ?_, ?_⟩ <;> first | decide +kernel | rfl
  · refine ⟨0#6, 0#6, 0#3, 0#3, { inHeader := false, which := 0 }, 0#64, { stackB := false, cells := 2, filled := 2 },
      [], _, setVoq 0 { voq base 0 with chunks := [{ stackB := false, cells := 2, filled := 2 }] } base, ?_, rfl,
      ?_, ?_⟩ <;> first | decide +kernel | rfl
  · refine ⟨base, ?_⟩ <;> first | decide +kernel | rfl
  · refine ⟨base, ?_⟩ <;> first | decide +kernel | rfl
  · refine ⟨[], _, _, { base with xbar := { base.xbar with auditPhase := .walk } }, ?_, rfl, rfl⟩ <;> first | decide +kernel | rfl
  · refine ⟨_, _, _, _, { base with xbar := { base.xbar with auditPhase := .sweep } }, ?_, rfl, rfl, rfl, rfl⟩ <;> first | decide +kernel | rfl
  · refine ⟨0#7, _, 0#64, _, setOutput 0 { Output.init with upHold := [(0, some 0)] } base, rfl, ?_, ?_, rfl⟩ <;> first | decide +kernel | rfl

/-- The hypotheses of every clause of `Obligations.TrafficEventsAct` are met. -/
theorem wit_TrafficEventsAct :
  (∃ (ue : Option (BitVec 13 × BitVec 64)) (t : State) (s : State),
    t = trafSync (reach (nextFrame (now s)) s)) ∧
  (∃ (k : Nat) (s : State),
    firstSet s = some k) ∧
  (∃ (b : BitVec 13) (w : Waiting) (l : List Waiting) (t : State) (s : State),
    t = trafSync s ∧ (meter t b.toNat).list = w :: l ∧ tfShape (traf t b.toNat) = false) ∧
  (∃ (b : BitVec 13) (w : Waiting) (l : List Waiting) (t v : State) (k : Nat) (s : State),
    t = trafSync s ∧ (meter t b.toNat).list = w :: l ∧ tfShape (traf t b.toNat) = true ∧
    tfSr (traf t b.toNat) ≠ 0 ∧ k = framesFor (bucketS t b.toNat) (debit t w.msg * 256) (tfSr (traf t b.toNat)) ∧
    v = (if 0 < k then trafSync (reach ((now t / frameTicks + k) * frameTicks) t) else t) ∧
    tfShape (traf v b.toNat) = true ∧ debit t w.msg * 256 ≤ bucketS v b.toNat) ∧
  (∃ (x : BitVec 6) (w k : Nat) (v t : State) (s : State),
    w = 256 * samplePeriod s x.toNat ∧
    k = multipleFrom (samplePeriod s x.toNat) (max (now s) (tabGet 0 s.traffic.sampled x.toNat).toNat) ∧
    (v = if tabGet 0 s.traffic.sampled x.toNat ≠ 0 ∧ lastSample s x.toNat / w < k / w ∧ windowLatched s x.toNat =
    false then windowEnd x.toNat s else s) ∧
    t = (List.range 8).foldl (sampleClass x.toNat) (reach k v)) ∧
  (∃ (x : BitVec 6) (w k : Nat) (t : State) (s : State),
    w = 256 * samplePeriod s x.toNat ∧ k = (lastSample s x.toNat / w + 1) * w ∧
    t = (List.range 8).foldl (latchClass x.toNat) (reach k s)) := by
  refine ⟨?_, ?_, ?_, ?_, ?_, ?_⟩
  · refine ⟨none, _, base, rfl⟩ <;> first | decide +kernel | rfl
  · refine ⟨64000, { base with traffic := { base.traffic with sets := [(0, some (0, 64000))] } }, ?_⟩ <;> first | decide +kernel | rfl
  · refine ⟨0#13, { msg := m0, outXp := 3 }, [], _,
      (setMeter 0 { meter base 0 with list := [{ msg := m0, outXp := 3 }] } base), rfl, ?_, ?_⟩ <;> first | decide +kernel | rfl
  · refine ⟨0#13, { msg := m0, outXp := 3 }, [], _, _, _, xshape, rfl, ?_, ?_, ?_, rfl, rfl, ?_, ?_⟩ <;> first | decide +kernel | rfl
  · refine ⟨0#6, _, _, _, _, base, rfl, rfl, rfl, rfl⟩ <;> first | decide +kernel | rfl
  · refine ⟨0#6, _, _, _, base, rfl, rfl, rfl⟩ <;> first | decide +kernel | rfl

/-- The hypotheses of every clause of `Obligations.TrafficCommandsAct` are met. -/
theorem wit_TrafficCommandsAct :
  (∃ (r : Req) (b : BitVec 16) (t : State) (s : State),
    serves 0x0801 false r (wBytes 2 b) s ∧ b.toNat < 8192 ∧ t = trafSync s) ∧
  (∃ (r : Req) (b : BitVec 16) (rec_ : BitVec 512) (s : State),
    serves 0x0802 false r (wBytes 2 b ++ zeros 2 ++ wBytes 64 rec_) s ∧ b.toNat < 8192 ∧
    trafBindOk rec_ (ctxKind (ctx s b.toNat)) (ctxClass (ctx s b.toNat)) = true ∧ planBusy s = false ∧
    (planWeaves s).any (fun w => overWoven (withSets s b.toNat rec_) w b.toNat) = false) ∧
  (∃ (r : Req) (x : BitVec 8) (t : State) (s : State),
    serves 0x0803 false r (wBytes 1 x) s ∧ x.toNat < 64 ∧ t = trafSync s) ∧
  (∃ (r : Req) (x : BitVec 8) (rec_ : BitVec 512) (s : State),
    serves 0x0804 false r (wBytes 1 x ++ zeros 3 ++ wBytes 64 rec_) s ∧ x.toNat < 64 ∧ trafXpOk rec_ = true ∧
    planBusy s = false) ∧
  (∃ (r : Req) (b : BitVec 16) (s : State),
    serves 0x0805 false r (wBytes 2 b) s ∧ b.toNat < 8192) := by
  refine ⟨?_, ?_, ?_, ?_, ?_⟩
  · refine ⟨r0, 0#16, _, asked 0x0801 (wBytes 2 0#16) base, asked_serves ?_, ?_, rfl⟩ <;> first | decide +kernel | rfl
  · refine ⟨r0, 0#16, 0#512, asked 0x0802 (wBytes 2 0#16 ++ zeros 2 ++ wBytes 64 0#512) base, asked_serves ?_, ?_, ?_,
      ?_, ?_⟩ <;> first | decide +kernel | rfl
  · refine ⟨r0, 0#8, _, asked 0x0803 (wBytes 1 0#8) base, asked_serves ?_, ?_, rfl⟩ <;> first | decide +kernel | rfl
  · refine ⟨r0, 0#8, 0#512, asked 0x0804 (wBytes 1 0#8 ++ zeros 3 ++ wBytes 64 0#512) base, asked_serves ?_, ?_, ?_, ?_⟩ <;> first | decide +kernel | rfl
  · refine ⟨r0, 0#16, asked 0x0805 (wBytes 2 0#16) base, asked_serves ?_, ?_⟩ <;> first | decide +kernel | rfl

/-- The hypotheses of every clause of `Obligations.ProtectionCommandsAct` are met. -/
theorem wit_ProtectionCommandsAct :
  (∃ (r : Req) (i n : BitVec 16) (s : State),
    serves 0x0901 false r (wBytes 2 i ++ wBytes 2 n) s ∧ 1 ≤ n.toNat ∧ n.toNat ≤ 64 ∧ i.toNat + n.toNat ≤ 16384) ∧
  (∃ (r : Req) (i : BitVec 16) (e : BitVec 256) (s : State),
    serves 0x0902 false r (wBytes 2 i ++ zeros 2 ++ wBytes 32 e) s ∧ i.toNat < 16384 ∧ protOk e = true ∧
    planBusy s = false ∧ ptLock (protEntry s i.toNat) = false) ∧
  (∃ (r : Req) (i n : BitVec 16) (s : State),
    serves 0x0903 false r (wBytes 2 i ++ wBytes 2 n) s ∧ 1 ≤ n.toNat ∧ i.toNat + n.toNat ≤ 16384 ∧
    planBusy s = false) ∧
  (∃ (r : Req) (us : BitVec 32) (t : State) (s : State),
    serves 0x0904 false r (wBytes 4 us) s ∧ s.mgmt.tickets.length < 256 ∧ t = holdTicket 0x0904 r s) ∧
  (∃ (k : BitVec 16) (f : Fence) (t : State) (s : State),
    s.prot.fences.find? (fun f => decide (f.ticket = k)) = some f ∧ f.limit ≠ 0 ∧
    t = reach (f.since.toNat + f.limit.toNat * usTicks) s) ∧
  (∃ (r : Req) (s : State),
    serves 0x0905 false r [] s) ∧
  (∃ (r : Req) (s : State),
    serves 0x0906 false r [] s) ∧
  (∃ (s : State),
    s.prot.fresh = none ∧ violNow s.prot.viol s = false) ∧
  (∃ (s : State),
    s.prot.fresh = none ∧ violNow s.prot.viol s = true) ∧
  (∃ (f : ViolRec) (s : State),
    s.prot.fresh = some f ∧ violNow f s = true) ∧
  (∃ (i : BitVec 14) (t : State) (s : State),
    t = tableMend 9 i.toNat s) := by
  refine ⟨?_, ?_, ?_, ?_, ?_, ?_, ?_, ?_, ?_, ?_, ?_⟩
  · refine ⟨r0, 0#16, 1#16, asked 0x0901 (wBytes 2 0#16 ++ wBytes 2 1#16) base, asked_serves ?_, ?_, ?_, ?_⟩ <;> first | decide +kernel | rfl
  · refine ⟨r0, 0#16, 0#256, asked 0x0902 (wBytes 2 0#16 ++ zeros 2 ++ wBytes 32 0#256) base, asked_serves ?_, ?_, ?_,
      ?_, ?_⟩ <;> first | decide +kernel | rfl
  · refine ⟨r0, 0#16, 1#16, asked 0x0903 (wBytes 2 0#16 ++ wBytes 2 1#16) base, asked_serves ?_, ?_, ?_, ?_⟩ <;> first | decide +kernel | rfl
  · refine ⟨r0, 0#32, _, asked 0x0904 (wBytes 4 0#32) base, asked_serves ?_, ?_, rfl⟩ <;> first | decide +kernel | rfl
  · refine ⟨0#16, { ticket := 0, epoch := 1, since := 0, limit := 5 }, _,
      { base with prot := { base.prot with fences := [{ ticket := 0, epoch := 1, since := 0, limit := 5 }] } },
      ?_, ?_, rfl⟩ <;> first | decide +kernel | rfl
  · refine ⟨r0, asked 0x0905 [] base, asked_serves ?_⟩ <;> first | decide +kernel | rfl
  · refine ⟨r0, asked 0x0906 [] base, asked_serves ?_⟩ <;> first | decide +kernel | rfl
  · refine ⟨base, ?_, ?_⟩ <;> first | decide +kernel | rfl
  · refine ⟨{ base with
        prot := { base.prot with viol := { ViolRec.init with valid := true, stampFull := base.tele.time } } },
      ?_, ?_⟩ <;> first | decide +kernel | rfl
  · refine ⟨{ ViolRec.init with valid := true, stampFull := base.tele.time },
      { base with
        prot := { base.prot with fresh := some { ViolRec.init with valid := true, stampFull := base.tele.time } } },
      ?_, ?_⟩ <;> first | decide +kernel | rfl
  · refine ⟨0#14, _, base, rfl⟩ <;> first | decide +kernel | rfl

/-- The hypotheses of every clause of `Obligations.ProxyRequestsAct` are met. -/
theorem wit_ProxyRequestsAct :
  (∃ (k : BitVec 3) (e : EMsg) (t : State) (s : State),
    s.fault.safeStop = false ∧ sliceHead s k.toNat = some e ∧ t = sliceTake k.toNat e s) ∧
  (∃ (k : BitVec 3) (e : EMsg) (s : State),
    s.fault.safeStop = false ∧ sliceHead s k.toNat = some e ∧ holderWrites s (delivered e) = true) ∧
  (∃ (k : BitVec 3) (e : EMsg) (s : State),
    s.fault.safeStop = false ∧ sliceHead s k.toNat = some e ∧ (delivered e).op = .biConflict) ∧
  (∃ (k : BitVec 3) (q : Parked) (t : State) (s : State),
    s.fault.safeStop = false ∧
    (slice s k.toNat).park.find? (fun q => kindFree s k.toNat (holderWrites s q.msg)) = some q ∧
    t = uncharge (keyIx (56 + k.toNat / 2) 1) (cellsOf q.msg) (ownAll q.cells .free (setSlice k.toNat
    { slice s k.toNat with park := (slice s k.toNat).park.erase q } s))) ∧
  (∃ (sa : BitVec 48) (x : Tracker) (s : State),
    s.fault.safeStop = false ∧ trackerOf s sa = some x ∧ x.stage = .fill) ∧
  (∃ (k : BitVec 3) (e : EMsg) (t v : State) (s : State),
    s.fault.safeStop = false ∧
    stagedFirst s (56 + k.toNat / 2) 4 (fun m => decide (m.req = .slice k m.sa)) = some e ∧
    answerNo (delivered e).op ≠ 0 ∧ t = unstage (56 + k.toNat / 2) e s ∧
    countAnswer (delivered e).sa (delivered e).feid.toNat (answerNo (delivered e).op) t = some v) ∧
  (∃ (k : BitVec 3) (c : Msg) (x : Tracker) (b : Bool) (t : State) (s : State),
    s.fault.safeStop = false ∧ nextBacking k.toNat s = some (c, b, t) ∧ c.tag = 0 ∧ trackerOf t c.sa = some x ∧
    x.stage = .backing) ∧
  (∃ (k : BitVec 3) (c m : Msg) (b : Bool) (t : State) (g : PxEvent) (s : State),
    s.fault.safeStop = false ∧ nextBacking k.toNat s = some (c, b, t) ∧ c.tag = 1 ∧
    (slice t k.toNat).wbs.find? (fun m => decide (lineNo m.sa = lineNo c.sa)) = some m ∧
    (g = if b then .wrI else (pxEvent t m).getD .wrI)) ∧
  (∃ (sa : BitVec 48) (u : BitVec 7) (k : BitVec 64) (s : State),
    s.fault.safeStop = false ∧ snoopSince s sa u.toNat = some k ∧ (port s u.toNat).st = .up) ∧
  (∃ (u : Nat) (l : List Nat) (s : State),
    s.fault.safeStop = false ∧ s.proxy.sweeps = u :: l) := by
  refine ⟨?_, ?_, ?_, ?_, ?_, ?_, ?_, ?_, ?_, ?_⟩
  · refine ⟨0#3, xe .memRd, _, xpx .memRd, ?_, ?_, rfl⟩ <;> first | decide +kernel | rfl
  · refine ⟨0#3, xe .memWr,
      setSlice 0 { slice (xpx .memWr) 0 with
        evicts := [{ sa := 0, hs := false, entry := ptrEntry 0 false 2 [6], waiting := [] }] } (xpx .memWr),
      ?_, ?_, ?_⟩ <;> first | decide +kernel | rfl
  · refine ⟨0#3, xe .biConflict, xpx .biConflict, ?_, ?_, ?_⟩ <;> first | decide +kernel | rfl
  · refine ⟨0#3, { msg := m0, cells := [0] }, _,
      setSlice 0 { slice base 0 with park := [{ msg := m0, cells := [0] }] } base, ?_, ?_, rfl⟩ <;> first | decide +kernel | rfl
  · refine ⟨0#48, xt .fill, setSlice 0 { slice base 0 with trackers := [xt .fill] } base, ?_, ?_, ?_⟩ <;> first | decide +kernel | rfl
  · refine ⟨0#3, xb, _, _, xbi, ?_, ?_, ?_, rfl, rfl⟩ <;> first | decide +kernel | rfl
  · refine ⟨0#3, { m0 with op := .memData, req := .slice 0 0 }, xt .backing, false, _, xback 0, ?_, rfl, ?_, ?_, ?_⟩ <;> first | decide +kernel | rfl
  · refine ⟨0#3, { m0 with op := .cmp, req := .slice 0 0, tag := 1 }, m0, false, _, _,
      setSlice 0 { slice (xback 1) 0 with wbs := [m0] } (xback 1), ?_, rfl, ?_, ?_, rfl⟩ <;> first | decide +kernel | rfl
  · refine ⟨0#48, 6#7, 0#64,
      setPort 6 { port base 6 with st := .up } (setSlice 0
      { slice base 0 with trackers := [{ xt .snoop with waiting := [(6, 0)] }] } base),
      ?_, ?_, ?_⟩ <;> first | decide +kernel | rfl
  · refine ⟨0, [], { base with proxy := { base.proxy with sweeps := [0] } }, ?_, ?_⟩ <;> first | decide +kernel | rfl

/-- The hypotheses of every clause of `Obligations.InstancePageWritesAct` are met. -/
theorem wit_InstancePageWritesAct :
  (∃ (i : BitVec 10) (q : BitVec 2) (v : BitVec 32) (t : State) (s : State),
    t = cfgQueue i.toNat q.toNat v s) ∧
  (∃ (i : BitVec 10) (s : State),
    ((inst s i.toNat).st = .ready ∨ (inst s i.toNat).st = .freezing ∨ (inst s i.toNat).st = .frozen)) ∧
  (∃ (i : BitVec 10) (s : State),
    (inst s i.toNat).st = .disabled) ∧
  (∃ (i : BitVec 10) (s : State),
    (inst s i.toNat).st = .resetting) ∧
  (∃ (i : BitVec 10) (k : BitVec 9) (s : State),
    (inst s i.toNat).t2oFull = false ∧ (inst s i.toNat).st ≠ .resetting) ∧
  (∃ (i : BitVec 10) (s : State),
    (inst s i.toNat).o2tAt = some s.tele.time) ∧
  (∃ (i : BitVec 10) (s : State),
    (inst s i.toNat).st ≠ .resetting ∧ (inst s i.toNat).o2tAt ≠ some s.tele.time) := by
  refine ⟨?_, ?_, ?_, ?_, ?_, ?_, ?_⟩
  · refine ⟨0#10, 0#2, 0#32, _, base, rfl⟩ <;> first | decide +kernel | rfl
  · refine ⟨0#10, setInst 0 { inst base 0 with st := .ready } base, ?_⟩ <;> first | decide +kernel | rfl
  · refine ⟨0#10, base, ?_⟩ <;> first | decide +kernel | rfl
  · refine ⟨0#10, setInst 0 { inst base 0 with st := .resetting } base, ?_⟩ <;> first | decide +kernel | rfl
  · refine ⟨0#10, 256#9, base, ?_, ?_⟩ <;> first | decide +kernel | rfl
  · refine ⟨0#10, setInst 0 { inst base 0 with o2tAt := some base.tele.time } base, ?_⟩ <;> first | decide +kernel | rfl
  · refine ⟨0#10, base, ?_, ?_⟩ <;> first | decide +kernel | rfl

/-- The hypotheses of every clause of `Obligations.ScribeEnginesAct` are met. -/
theorem wit_ScribeEnginesAct :
  (∃ (h : BitVec 1) (m : Msg) (e : Bool) (t : State) (s : State),
    s.fault.safeStop = false ∧ takeBack true h s = some ((m, e), t)) ∧
  (∃ (h : BitVec 1) (m : Msg) (e : Bool) (t : State) (s : State),
    s.fault.safeStop = false ∧ takeBack false h s = some ((m, e), t)) ∧
  (∃ (d : Desc) (e : Nat) (s : State),
    s.fault.safeStop = false ∧ s.scribe.descs = [d] ∧ d.stage = .ready ∧ (inst s d.inst.toNat).st = .ready ∧
    pickEngine s d.inst.toNat = some e) ∧
  (∃ (e : BitVec 4) (ue : DecodeUe) (d : Desc) (t : State) (s : State),
    s.fault.safeStop = false ∧ t = scribeSync (reach (((engine s e.toNat).nextIssue + 4) / 5) s) ∧
    engineRuns t e.toNat = true ∧ nextChannel t e.toNat = some d) ∧
  (∃ (k : BitVec 4) (d : Desc) (s : State),
    s.fault.safeStop = false ∧ (migDesc s k.toNat) = some d ∧ (migSlot s k.toNat).st = .copying ∧
    (migSlot s k.toNat).span = 0 ∧ (inst s d.inst.toNat).st = .ready ∧ engineRuns s d.engine.toNat = true ∧
    inTurn s d = true) ∧
  (∃ (k : BitVec 4) (d : Desc) (w : Nat) (s : State),
    s.fault.safeStop = false ∧ (migDesc s k.toNat) = some d ∧
    w = (migSlot s k.toNat).watermark.toNat + (migSlot s k.toNat).span.toNat ∧ (migSlot s k.toNat).span ≠ 0 ∧
    d.next = w ∧ d.flight = [] ∧ w < 32768) ∧
  (∃ (k : BitVec 4) (d : Desc) (t v : State) (s : State),
    s.fault.safeStop = false ∧ (migDesc s k.toNat) = some d ∧
    (migSlot s k.toNat).watermark.toNat + (migSlot s k.toNat).span.toNat = 32768 ∧ (migSlot s k.toNat).span ≠ 0 ∧
    d.next = 32768 ∧ d.flight = [] ∧
    t = releaseStall true k.toNat (setMig k.toNat { migSlot s k.toNat with watermark := 32768, span := 0 } s) ∧
    v = setMig k.toNat { migSlot t k.toNat with st := .idle, watermark := 0 } (setPage (migSlot s
    k.toNat).page.toNat (pgMoved (pageEntry t (migSlot s k.toNat).page.toNat)) t)) ∧
  (∃ (i : BitVec 10) (s : State),
    (inst s i.toNat).st = .freezing ∧ quiet s i.toNat = true) ∧
  (∃ (i : BitVec 10) (t : State) (s : State),
    (inst s i.toNat).st = .resetting ∧ liveLines s i.toNat = 0 ∧ t = endReset i.toNat (scribeSync s)) := by
  refine ⟨?_, ?_, ?_, ?_, ?_, ?_, ?_, ?_, ?_⟩
  · refine ⟨0#1, _, false, _,
      { base with
        scribe :=
          { base.scribe with back := [({ m0 with op := .memData, req := .engine 0 0 0 (ringMark + 1) }, false)] } },
      ?_, rfl⟩ <;> first | decide +kernel | rfl
  · refine ⟨0#1, _, false, _,
      { base with
        scribe := { base.scribe with back := [({ m0 with op := .memData, req := .engine 0 0 0 0 }, false)] } },
      ?_, rfl⟩ <;> first | decide +kernel | rfl
  · refine ⟨xd .ready, 0,
      setInst 0 { inst base 0 with st := .ready, engineMask := 1 }
      { base with scribe := { base.scribe with descs := [xd .ready] } },
      ?_, ?_, ?_, ?_, ?_⟩ <;> first | decide +kernel | rfl
  · refine ⟨0#4, noUe, { xd .running with raw := xraw }, _,
      setInst 0 { inst base 0 with st := .ready, engineMask := 1, tokens := 5 }
      { base with scribe := { base.scribe with descs := [{ xd .running with raw := xraw }] } },
      ?_, rfl, ?_, ?_⟩ <;> first | decide +kernel | rfl
  · refine ⟨0#4, { xd .running with slot := some 0 },
      setMig 0 { migSlot base 0 with st := .copying } (setInst 0 { inst base 0 with st := .ready }
      { base with scribe := { base.scribe with descs := [{ xd .running with slot := some 0 }] } }),
      ?_, ?_, ?_, ?_, ?_, ?_, ?_⟩ <;> first | decide +kernel | rfl
  · refine ⟨0#4, { xd .running with slot := some 0, next := 64 }, 64,
      setMig 0 { migSlot base 0 with st := .copying, span := 64 }
      { base with scribe := { base.scribe with descs := [{ xd .running with slot := some 0, next := 64 }] } },
      ?_, ?_, ?_, ?_, ?_, ?_, ?_⟩ <;> first | decide +kernel | rfl
  · refine ⟨0#4, { xd .running with slot := some 0, next := 32768 }, _, _,
      setMig 0 { migSlot base 0 with st := .copying, watermark := 32704, span := 64 }
      { base with scribe := { base.scribe with descs := [{ xd .running with slot := some 0, next := 32768 }] } },
      ?_, ?_, ?_, ?_, ?_, ?_, rfl, rfl⟩ <;> first | decide +kernel | rfl
  · refine ⟨0#10, setInst 0 { inst base 0 with st := .freezing } base, ?_, ?_⟩ <;> first | decide +kernel | rfl
  · refine ⟨0#10, _, setInst 0 { inst base 0 with st := .resetting } base, ?_, ?_, rfl⟩ <;> first | decide +kernel | rfl

/-- The hypotheses of every clause of `Obligations.ScribeCommandsAct` are met. -/
theorem wit_ScribeCommandsAct :
  (∃ (r : Req) (i f em dq sh bu : BitVec 16) (bs : BitVec 128) (s : State),
    serves 0x0701 false r (wBytes 2 i ++ wBytes 2 f ++ wBytes 2 em ++ wBytes 2 dq ++ wBytes 2 sh ++ wBytes 2 bu ++
    wBytes 16 bs) s ∧
    i.toNat < 1024 ∧ f.toNat < 2 ∧ dq.toNat ≤ 4096 ∧ sh.toNat ≤ 20000 ∧
    (List.range 8).find? (fun k => decide (8192 ≤ fnat bs (16 * k) 16 ∧ fnat bs (16 * k) 16 ≠ 0xFFFF)) = none ∧
    (inst s i.toNat).st = .disabled ∧
    (List.range 8).any (fun k => decide (fnat bs (16 * k) 16 < 8192) && decide (ctxKind (ctx s (fnat bs (16 * k)
    16)) ≠ 1)) = false ∧
    s.scribe.insts.foldl (fun t p => if p.1 = i.toNat then t else t + p.2.descQuota.toNat) 0 + dq.toNat ≤ 65536) ∧
  (∃ (r : Req) (i : BitVec 16) (t : State) (v : Inst) (s : State),
    serves 0x0702 false r (wBytes 2 i) s ∧ i.toNat < 1024 ∧ t = scribeSync s ∧ v = inst t i.toNat) ∧
  (∃ (r : Req) (i : BitVec 16) (s : State),
    serves 0x0703 false r (wBytes 2 i) s ∧ i.toNat < 1024 ∧ (inst s i.toNat).st = .disabled) ∧
  (∃ (r : Req) (i f : BitVec 16) (t : State) (s : State),
    serves 0x0704 false r (wBytes 2 i ++ wBytes 2 f) s ∧ i.toNat < 1024 ∧ f.toNat < 2 ∧
    ((inst s i.toNat).st = .ready ∨ (inst s i.toNat).st = .freezing ∨ (inst s i.toNat).st = .frozen) ∧
    s.mgmt.tickets.length < 256 ∧ t = startReset i.toNat (bit f 0) (holdTicket 0x0704 r s)) ∧
  (∃ (r : Req) (i : BitVec 16) (t : State) (s : State),
    serves 0x0705 false r (wBytes 2 i) s ∧ i.toNat < 1024 ∧
    ((inst s i.toNat).st = .ready ∨ (inst s i.toNat).st = .freezing) ∧ s.mgmt.tickets.length < 256 ∧
    t = freezeInst i.toNat false (holdTicket 0x0705 r s)) ∧
  (∃ (r : Req) (i : BitVec 16) (s : State),
    serves 0x0705 false r (wBytes 2 i) s ∧ i.toNat < 1024 ∧ (inst s i.toNat).st = .frozen ∧
    s.mgmt.tickets.length < 256) ∧
  (∃ (r : Req) (i c : BitVec 16) (s : State),
    serves 0x0706 false r (wBytes 2 i ++ wBytes 2 c) s ∧ i.toNat < 1024 ∧ c.toNat < 4 ∧
    ((inst s i.toNat).st = .freezing ∨ (inst s i.toNat).st = .frozen) ∧
    ((inst s i.toNat).causeProt && !bit c 0 || (inst s i.toNat).causeOwner && !bit c 1) = true) ∧
  (∃ (r : Req) (i c : BitVec 16) (s : State),
    serves 0x0706 false r (wBytes 2 i ++ wBytes 2 c) s ∧ i.toNat < 1024 ∧ c.toNat < 4 ∧
    ((inst s i.toNat).st = .freezing ∨ (inst s i.toNat).st = .frozen) ∧
    ((inst s i.toNat).causeProt && !bit c 0 || (inst s i.toNat).causeOwner && !bit c 1) = false) ∧
  (∃ (r : Req) (i : BitVec 16) (s : State),
    serves 0x0707 false r (wBytes 2 i) s ∧ i.toNat < 1024 ∧ (inst s i.toNat).st = .frozen ∧
    s.scribe.descs.any (fun d => decide (d.inst.toNat = i.toNat) && d.slot.isSome) = false) ∧
  (∃ (r : Req) (i : BitVec 16) (b : List Byte) (t : State) (s : State),
    serves 0x0708 false r (wBytes 2 i ++ zeros 2 ++ b) s ∧ b.length = 4096 ∧ i.toNat < 1024 ∧
    (inst s i.toNat).st = .disabled ∧ blobOk b = true ∧
    (List.range 8).any (fun k => decide (leAt b (0x20 + 4 * k) 4 ≠ (slotCookie s (inst s i.toNat) k).toNat)) =
    false ∧
    t = scribeSync s) ∧
  (∃ (r : Req) (i sh bu : BitVec 16) (t : State) (s : State),
    serves 0x0709 false r (wBytes 2 i ++ wBytes 2 sh ++ wBytes 2 bu) s ∧ i.toNat < 1024 ∧ sh.toNat ≤ 20000 ∧
    t = scribeSync s) ∧
  (∃ (r : Req) (i : BitVec 16) (s : State),
    serves 0x070A false r (wBytes 2 i) s ∧ i.toNat < 1024 ∧ (inst s i.toNat).st ≠ .resetting ∧
    (inst s i.toNat).t2oFull = true) ∧
  (∃ (r : Req) (i k : BitVec 16) (d : List Byte) (t : State) (s : State),
    serves 0x070B false r (wBytes 2 i ++ wBytes 2 k ++ d) s ∧ i.toNat < 1024 ∧ k.toNat ≤ 256 ∧
    d.length = k.toNat ∧ (inst s i.toNat).st ≠ .resetting ∧ (inst s i.toNat).o2tFull = false ∧
    t = setInst i.toNat { inst s i.toNat with
      o2tLen := k.setWidth 9, o2tFull := true, o2tAt := some s.tele.time,
      o2tData := tabWrite 0 (inst s i.toNat).o2tData 0 d } s) ∧
  (∃ (r : Req) (e : BitVec 8) (s : State),
    serves 0x070C false r (wBytes 1 e) s ∧ e.toNat < 16) := by
  refine ⟨?_, ?_, ?_, ?_, ?_, ?_, ?_, ?_, ?_, ?_, ?_, ?_, ?_, ?_⟩
  · refine ⟨r0, 0#16, 0#16, 0#16, 0#16, 0#16, 0#16, BitVec.allOnes 128,
      asked 0x0701 (wBytes 2 0#16 ++ wBytes 2 0#16 ++ wBytes 2 0#16 ++ wBytes 2 0#16 ++ wBytes 2 0#16 ++ wBytes 2
      0#16 ++ wBytes 16 (BitVec.allOnes 128)) base,
      asked_serves ?_, ?_, ?_, ?_, ?_, ?_, ?_, ?_, ?_⟩ <;> first | decide +kernel | rfl
  · refine ⟨r0, 0#16, _, _, asked 0x0702 (wBytes 2 0#16) base, asked_serves ?_, ?_, rfl, rfl⟩ <;> first | decide +kernel | rfl
  · refine ⟨r0, 0#16, asked 0x0703 (wBytes 2 0#16) base, asked_serves ?_, ?_, ?_⟩ <;> first | decide +kernel | rfl
  · refine ⟨r0, 0#16, 0#16, _,
      asked 0x0704 (wBytes 2 0#16 ++ wBytes 2 0#16) (setInst 0 { inst base 0 with st := .ready } base),
      asked_serves ?_, ?_, ?_, ?_, ?_, rfl⟩ <;> first | decide +kernel | rfl
  · refine ⟨r0, 0#16, _, asked 0x0705 (wBytes 2 0#16) (setInst 0 { inst base 0 with st := .ready } base),
      asked_serves ?_, ?_, ?_, ?_, rfl⟩ <;> first | decide +kernel | rfl
  · refine ⟨r0, 0#16, asked 0x0705 (wBytes 2 0#16) (setInst 0 { inst base 0 with st := .frozen } base), asked_serves ?_,
      ?_, ?_, ?_⟩ <;> first | decide +kernel | rfl
  · refine ⟨r0, 0#16, 0#16,
      asked 0x0706 (wBytes 2 0#16 ++ wBytes 2 0#16) (setInst 0
      { inst base 0 with st := .frozen, causeProt := true } base),
      asked_serves ?_, ?_, ?_, ?_, ?_⟩ <;> first | decide +kernel | rfl
  · refine ⟨r0, 0#16, 3#16,
      asked 0x0706 (wBytes 2 0#16 ++ wBytes 2 3#16) (setInst 0
      { inst base 0 with st := .frozen, causeProt := true } base),
      asked_serves ?_, ?_, ?_, ?_, ?_⟩ <;> first | decide +kernel | rfl
  · refine ⟨r0, 0#16, asked 0x0707 (wBytes 2 0#16) (setInst 0 { inst base 0 with st := .frozen } base), asked_serves ?_,
      ?_, ?_, ?_⟩ <;> first | decide +kernel | rfl
  · refine ⟨r0, 0#16, xblob, _, asked 0x0708 (wBytes 2 0#16 ++ zeros 2 ++ xblob) base, asked_serves ?_, ?_, ?_, ?_,
      xblob_ok, ?_, rfl⟩ <;> first | decide +kernel | rfl
  · refine ⟨r0, 0#16, 20000#16, 0#16, _, asked 0x0709 (wBytes 2 0#16 ++ wBytes 2 20000#16 ++ wBytes 2 0#16) base,
      asked_serves ?_, ?_, ?_, rfl⟩ <;> first | decide +kernel | rfl
  · refine ⟨r0, 0#16,
      asked 0x070A (wBytes 2 0#16) (setInst 0 { inst base 0 with st := .ready, t2oFull := true, t2oLen := 256 }
      base),
      asked_serves ?_, ?_, ?_, ?_⟩ <;> first | decide +kernel | rfl
  · refine ⟨r0, 0#16, 1#16, [1], _, asked 0x070B (wBytes 2 0#16 ++ wBytes 2 1#16 ++ [1]) base, asked_serves ?_, ?_, ?_,
      ?_, ?_, ?_, rfl⟩ <;> first | decide +kernel | rfl
  · refine ⟨r0, 15#8, asked 0x070C (wBytes 1 15#8) base, asked_serves ?_, ?_⟩ <;> first | decide +kernel | rfl

/-- The hypotheses of every clause of `Obligations.PlanLoadingActs` are met. -/
theorem wit_PlanLoadingActs :
  (∃ (r : Req) (k : BitVec 16) (n : BitVec 64) (s : State),
    serves 0x0201 false r (wBytes 2 k ++ zeros 2 ++ wBytes 8 n) s ∧ k.toNat < 2 ∧ s.plan.shadowState = .empty) ∧
  (∃ (r : Req) (o : BitVec 64) (d : List Byte) (s : State),
    serves 0x0202 false r (wBytes 8 o ++ leBytes 4 d.length ++ d) s ∧ 1 ≤ d.length ∧ d.length ≤ 4096 ∧
    s.plan.shadowState = .loading ∧ s.plan.loadOwner = some r.src ∧ o.toNat = s.plan.loadBytes.length ∧
    s.plan.loadBytes.length + d.length ≤ s.plan.loadLength.toNat) ∧
  (∃ (r : Req) (f : BitVec 32) (t : State) (s : State),
    serves 0x0203 false r (wBytes 4 f) s ∧ f.toNat < 2 ∧ s.plan.shadowState = .loading ∧
    s.plan.loadOwner = some r.src ∧ s.sealu.ringFault = false ∧ s.mgmt.tickets.length < 256 ∧
    t = holdTicket 0x0203 r s) ∧
  (∃ (k : BitVec 64) (env : Env) (s : State),
    s.plan.shadowState = .validating) ∧
  (∃ (r : Req) (env : Env) (s : State),
    serves 0x0204 false r [] s ∧ s.plan.shadowState = .loading ∧ s.plan.loadOwner = some r.src ∧
    s.plan.commitTicket = none) ∧
  (∃ (r : Req) (env : Env) (t : State) (s : State),
    serves 0x0204 false r [] s ∧ s.plan.shadowState = .armed ∧ s.plan.loadOwner = some r.src ∧
    now s < s.plan.boundary.toNat ∧ appendNow env.append (planAppend s true s.plan.loadBytes) s = (true, t)) ∧
  (∃ (r : Req) (s : State),
    serves 0x0205 false r [] s ∧ s.plan.chain.length ≤ 15) ∧
  (∃ (s : State),
    s.plan.shadowState = .armed) ∧
  (∃ (s : State),
    s.plan.persistDue = true) ∧
  (∃ (r : Req) (ty : BitVec 16) (i : BitVec 32) (n : BitVec 16) (p : List Byte) (s : State),
    serves 0x0208 false r (wBytes 2 ty ++ zeros 2 ++ wBytes 4 i ++ wBytes 2 n) s ∧ 1 ≤ ty.toNat ∧ ty.toNat ≤ 12 ∧
    1 ≤ n.toNat ∧ n.toNat ≤ 64 ∧ i.toNat + n.toNat ≤ heddleLimit s ty.toNat ∧
    p = ((List.range n.toNat).map fun k => (heddleRecord s ty.toNat (i.toNat + k)).getD []).flatten ∧
    16 + p.length ≤ maxResponse r.src) := by
  refine ⟨?_, ?_, ?_, ?_, ?_, ?_, ?_, ?_, ?_, ?_⟩
  · refine ⟨r0, 0#16, 0#64, asked 0x0201 (wBytes 2 0#16 ++ zeros 2 ++ wBytes 8 0#64) base, asked_serves ?_, ?_, ?_⟩ <;> first | decide +kernel | rfl
  · refine ⟨r0, 0#64, [5],
      asked 0x0202 (wBytes 8 0#64 ++ leBytes 4 [5].length ++ [5]) ({ base with
        plan := { base.plan with shadowState := .loading, loadOwner := some (.mailbox 0), loadLength := 300 } }),
      asked_serves ?_, ?_, ?_, ?_, ?_, ?_, ?_⟩ <;> first | decide +kernel | rfl
  · refine ⟨r0, 0#32, _,
      asked 0x0203 (wBytes 4 0#32)
      ({ base with plan := { base.plan with shadowState := .loading, loadOwner := some (.mailbox 0) } }),
      asked_serves ?_, ?_, ?_, ?_, ?_, ?_, rfl⟩ <;> first | decide +kernel | rfl
  · refine ⟨0#64, Env.good, { base with plan := { base.plan with shadowState := .validating } }, ?_⟩ <;> first | decide +kernel | rfl
  · refine ⟨r0, Env.good,
      asked 0x0204 []
      ({ base with plan := { base.plan with shadowState := .loading, loadOwner := some (.mailbox 0) } }),
      asked_serves ?_, ?_, ?_, ?_⟩ <;> first | decide +kernel | rfl
  · refine ⟨r0, Env.good, _,
      asked 0x0204 [] ({ base with
        plan := { base.plan with shadowState := .armed, loadOwner := some (.mailbox 0), boundary := 5 } }),
      asked_serves ?_, ?_, ?_, ?_, rfl⟩ <;> first | decide +kernel | rfl
  · refine ⟨r0, asked 0x0205 [] base, asked_serves ?_, ?_⟩ <;> first | decide +kernel | rfl
  · refine ⟨{ base with plan := { base.plan with shadowState := .armed } }, ?_⟩ <;> first | decide +kernel | rfl
  · refine ⟨{ base with plan := { base.plan with persistDue := true } }, ?_⟩ <;> first | decide +kernel | rfl
  · refine ⟨r0, 1#16, 0#32, 1#16, _, asked 0x0208 (wBytes 2 1#16 ++ zeros 2 ++ wBytes 4 0#32 ++ wBytes 2 1#16) base,
      asked_serves ?_, ?_, ?_, ?_, ?_, ?_, rfl, ?_⟩ <;> first | decide +kernel | rfl

/-- The hypotheses of every clause of `Obligations.AlternatesAct` are met. -/
theorem wit_AlternatesAct :
  (∃ (r : Req) (k : BitVec 16) (s : State),
    serves 0x0206 false r (wBytes 2 k) s ∧ 1 ≤ k.toNat ∧ k.toNat < setCount s ∧
    dParent (altSet s k.toNat).desc = currentSet s ∧ s.plan.work = .idle ∧ s.plan.restoreWant = none) ∧
  (∃ (r : Req) (k : BitVec 16) (s : State),
    serves 0x0207 false r (wBytes 2 k) s ∧ k ≠ 0 ∧ s.plan.chain.dropLast.any (fun c => decide (c.set = k)) = true) ∧
  (∃ (r : Req) (s : State),
    serves 0x0207 false r (wBytes 2 0#16) s) ∧
  (∃ (s : State),
    s.plan.weaveDue.isSome = true) ∧
  (∃ (l : BitVec 3) (id : BitVec 8) (t : State) (s : State),
    takeHeard l.toNat .apply id s = some t) ∧
  (∃ (l : BitVec 3) (id : BitVec 8) (t : State) (s : State),
    takeHeard l.toNat .restore id s = some t) ∧
  (∃ (c : ChainLink) (k : BitVec 64) (s : State),
    s.plan.chain.getLast? = some c ∧ c.upSince = some k ∧ currentMode s = 1 ∧ stablePeriod s ≠ 0) ∧
  (∃ (k : BitVec 16) (s : State),
    s.plan.work = .idle ∧ s.plan.restoreWant = some k) ∧
  (∃ (s : State),
    s.plan.work = .rewriting) ∧
  (∃ (se : BitVec 16) (i : BitVec 32) (o : BitVec 28) (a b : Ecc) (t : State) (bad : Bool) (s : State),
    tableBad s se.toNat i.toNat = true ∧ mirrorRead o.toNat a b s = (bad, t)) := by
  refine ⟨?_, ?_, ?_, ?_, ?_, ?_, ?_, ?_, ?_, ?_⟩
  · refine ⟨r0, 1#16, asked 0x0206 (wBytes 2 1#16) xalt, asked_serves ?_, ?_, ?_, ?_, ?_, ?_⟩ <;> first | decide +kernel | rfl
  · refine ⟨r0, 1#16,
      asked 0x0207 (wBytes 2 1#16)
      ({ base with plan := { base.plan with chain := [{ xlink with set := 1 }, { xlink with set := 2 }] } }),
      asked_serves ?_, ?_, ?_⟩ <;> first | decide +kernel | rfl
  · refine ⟨r0, asked 0x0207 (wBytes 2 0#16) base, asked_serves ?_⟩ <;> first | decide +kernel | rfl
  · refine ⟨{ base with plan := { base.plan with weaveDue := some none } }, ?_⟩ <;> first | decide +kernel | rfl
  · refine ⟨0#3, 5#8, _, setWeft 0 { weft base 0 with heard := [vc0Msg .apply 5 0 0] } base, rfl⟩ <;> first | decide +kernel | rfl
  · refine ⟨0#3, 5#8, _, setWeft 0 { weft base 0 with heard := [vc0Msg .restore 5 0 0] } base, rfl⟩ <;> first | decide +kernel | rfl
  · refine ⟨{ xlink with set := 1, upSince := some 0 }, 0#64, xstable, ?_, ?_, ?_, ?_⟩ <;> first | decide +kernel | rfl
  · refine ⟨0#16, { base with plan := { base.plan with restoreWant := some 0 } }, ?_, ?_⟩ <;> first | decide +kernel | rfl
  · refine ⟨{ base with plan := { base.plan with work := .rewriting } }, ?_⟩ <;> first | decide +kernel | rfl
  · refine ⟨0#16, 0#32, 0#28, .ok, .ok, _, _, { base with plan := { base.plan with badWords := [((0, 0), 0)] } }, ?_,
      rfl⟩ <;> first | decide +kernel | rfl

/-- The hypotheses of every clause of `Obligations.SlotInsertionActs` are met. -/
theorem wit_SlotInsertionActs :
  (∃ (n : BitVec 5) (b : Bool) (s : State),
    n.toNat ≤ 23 ∧ (slotCh s n.toNat).prsntL ≠ b) ∧
  (∃ (n : BitVec 5) (t : State) (s : State),
    n.toNat ≤ 23 ∧ (slotCh s n.toNat).shortPin = false ∧
    t = setSlot n.toNat { slotCh s n.toNat with shortPin := true, closeAt := some s.aon, openAt := none } s) ∧
  (∃ (n : BitVec 5) (k : BitVec 64) (t v w : State) (s : State),
    (slotCh s n.toNat).closeAt = some k ∧ t = reachAon (k.toNat + 20 * msTicks) s ∧
    v = setSlot n.toNat
    { slotCh t n.toNat with closeAt := none, prsntS := true, insertions := (slotCh t n.toNat).insertions + 1 } t ∧
    w = (if ctlAuto (slotCh t n.toNat) then setOn n.toNat true v else v)) ∧
  (∃ (n : BitVec 5) (s : State),
    (slotCh s n.toNat).st = .wait ∧ ctlOn (slotCh s n.toNat) = true ∧ (slotCh s n.toNat).retryActive = false ∧
    s.slot.busUv = false ∧ s.slot.busOv = false ∧ s.slot.vselLost = false) ∧
  (∃ (n : BitVec 5) (v : BitVec 16) (s : State),
    (slotCh s n.toNat).st = .ramp ∧ pgLevel s ≤ v.toNat) ∧
  (∃ (n : BitVec 5) (k : BitVec 64) (t : State) (s : State),
    (slotCh s n.toNat).pgFrom = some k ∧ (slotCh s n.toNat).st = .pgDelay ∧
    t = reachAon (k.toNat + pgDelay (slotCh s n.toNat) * usTicks) s) ∧
  (∃ (n : BitVec 5) (k : BitVec 64) (s : State),
    (slotCh s n.toNat).perstFrom = some k ∧ (slotCh s n.toNat).pg = true ∧ (slotCh s n.toNat).perstHold = false) ∧
  (∃ (n : BitVec 5) (v : BitVec 16) (s : State),
    (slotCh s n.toNat).st = .pgDelay) ∧
  (∃ (n : BitVec 5) (v : BitVec 16) (s : State),
    (slotCh s n.toNat).st = .on) := by
  refine ⟨?_, ?_, ?_, ?_, ?_, ?_, ?_, ?_, ?_⟩
  · refine ⟨0#5, true, base, ?_, ?_⟩ <;> first | decide +kernel | rfl
  · refine ⟨0#5, _, base, ?_, ?_, rfl⟩ <;> first | decide +kernel | rfl
  · refine ⟨0#5, 0#64, _, _, _, setSlot 0 { slotCh base 0 with closeAt := some 0 } base, ?_, rfl, rfl, rfl⟩ <;> first | decide +kernel | rfl
  · refine ⟨0#5, setSlot 0 { slotCh base 0 with st := .wait, ctl := 1 } base, ?_, ?_, ?_, ?_, ?_, ?_⟩ <;> first | decide +kernel | rfl
  · refine ⟨0#5, 12000#16, setSlot 0 { slotCh base 0 with st := .ramp } base, ?_, ?_⟩ <;> first | decide +kernel | rfl
  · refine ⟨0#5, 0#64, _, setSlot 0 { slotCh base 0 with st := .pgDelay, pgFrom := some 0 } base, ?_, ?_, rfl⟩ <;> first | decide +kernel | rfl
  · refine ⟨0#5, 0#64, setSlot 0 { slotCh base 0 with perstFrom := some 0, pg := true } base, ?_, ?_, ?_⟩ <;> first | decide +kernel | rfl
  · refine ⟨0#5, 0#16, setSlot 0 { slotCh base 0 with st := .pgDelay } base, ?_⟩ <;> first | decide +kernel | rfl
  · refine ⟨0#5, 0#16, setSlot 0 { slotCh base 0 with st := .on } base, ?_⟩ <;> first | decide +kernel | rfl

/-- The hypotheses of every clause of `Obligations.SlotOverloadAndRemovalAct` are met. -/
theorem wit_SlotOverloadAndRemovalAct :
  (∃ (n : BitVec 5) (i : BitVec 16) (s : State),
    (slotCh s n.toNat).gateOn = true ∧ gcIlimit (slotCh s n.toNat).gateCtl * 100 ≤ i.toNat) ∧
  (∃ (n : BitVec 5) (i : BitVec 16) (s : State),
    (slotCh s n.toNat).breakerAt.isSome = true ∧ i.toNat < gcIlimit (slotCh s n.toNat).gateCtl * 100) ∧
  (∃ (n : BitVec 5) (k : BitVec 64) (s : State),
    (slotCh s n.toNat).breakerAt = some k) ∧
  (∃ (n : BitVec 5) (i : BitVec 16) (s : State),
    (slotCh s n.toNat).gateOn = true ∧ gcFast (slotCh s n.toNat).gateCtl * 1000 ≤ i.toNat) ∧
  (∃ (n : BitVec 5) (k : BitVec 64) (s : State),
    (slotCh s n.toNat).rampAt = some k ∧ (slotCh s n.toNat).st = .ramp) ∧
  (∃ (n : BitVec 5) (s : State),
    (slotCh s n.toNat).retryActive = true) ∧
  (∃ (n : BitVec 5) (t : State) (s : State),
    n.toNat ≤ 23 ∧ (slotCh s n.toNat).shortPin = true ∧
    t = setSlot n.toNat { slotCh s n.toNat with shortPin := false, closeAt := none, openAt := some s.aon } s) ∧
  (∃ (n : BitVec 5) (k : BitVec 64) (t v : State) (s : State),
    (slotCh s n.toNat).openAt = some k ∧ t = reachAon (k.toNat + 1000 * msTicks) s ∧
    v = setSlot n.toNat { slotCh t n.toNat with retryCount := 0, openAt := none } t) ∧
  (∃ (n : BitVec 5) (k : BitVec 64) (s : State),
    (slotCh s n.toNat).offAt = some k) ∧
  (∃ (n : BitVec 5) (v : BitVec 16) (s : State),
    v.toNat < 2000 ∧ (slotCh s n.toNat).st = .decay) ∧
  (∃ (n : BitVec 5) (v : BitVec 16) (k : BitVec 64) (t : State) (s : State),
    n.toNat ≤ 23 ∧ (slotCh s n.toNat).gateOn = false ∧ (slotCh s n.toNat).st ≠ .damaged ∧ 2000 ≤ v.toNat ∧
    (slotCh s n.toNat).gateOffAt = some k ∧
    t = reachAon (k.toNat + (dmgDelay (slotCh s n.toNat) + 10) * msTicks) s) ∧
  (∃ (n : BitVec 5) (v : BitVec 16) (s : State),
    n.toNat ≤ 23 ∧ (slotCh s n.toNat).gateOn = false ∧ (slotCh s n.toNat).st ≠ .damaged ∧ 2000 ≤ v.toNat ∧
    (slotCh s n.toNat).gateOffAt = none) ∧
  (∃ (v : BitVec 16) (t : State) (s : State),
    14400 ≤ v.toNat ∧ s.slot.busOv = false ∧
    t = raiseFreeCond 17 0x30 (source 0 0) { s with slot := { s.slot with vbus := v, busOv := true } }) ∧
  (∃ (v : BitVec 16) (s : State),
    v.toNat < 13800 ∧ s.slot.busOv = true) ∧
  (∃ (v : BitVec 16) (s : State),
    v.toNat < 10200 ∧ s.slot.busUv = false) ∧
  (∃ (v : BitVec 16) (s : State),
    10200 ≤ v.toNat ∧ s.slot.busUv = true) := by
  refine ⟨?_, ?_, ?_, ?_, ?_, ?_, ?_, ?_, ?_, ?_, ?_, ?_, ?_, ?_, ?_, ?_⟩
  · refine ⟨0#5, 65535#16, setSlot 0 { slotCh base 0 with gateOn := true } base, ?_, ?_⟩ <;> first | decide +kernel | rfl
  · refine ⟨0#5, 0#16, setSlot 0 { slotCh base 0 with breakerAt := some 0, gateCtl := 255 } base, ?_, ?_⟩ <;> first | decide +kernel | rfl
  · refine ⟨0#5, 0#64, setSlot 0 { slotCh base 0 with breakerAt := some 0 } base, ?_⟩ <;> first | decide +kernel | rfl
  · refine ⟨0#5, 65535#16, setSlot 0 { slotCh base 0 with gateOn := true } base, ?_, ?_⟩ <;> first | decide +kernel | rfl
  · refine ⟨0#5, 0#64, setSlot 0 { slotCh base 0 with rampAt := some 0, st := .ramp } base, ?_, ?_⟩ <;> first | decide +kernel | rfl
  · refine ⟨0#5, setSlot 0 { slotCh base 0 with retryActive := true } base, ?_⟩ <;> first | decide +kernel | rfl
  · refine ⟨23#5, _, setSlot 23 { slotCh base 23 with shortPin := true } base, ?_, ?_, rfl⟩ <;> first | decide +kernel | rfl
  · refine ⟨0#5, 0#64, _, _, setSlot 0 { slotCh base 0 with openAt := some 0 } base, ?_, rfl, rfl⟩ <;> first | decide +kernel | rfl
  · refine ⟨0#5, 0#64, setSlot 0 { slotCh base 0 with offAt := some 0 } base, ?_⟩ <;> first | decide +kernel | rfl
  · refine ⟨0#5, 1999#16, setSlot 0 { slotCh base 0 with st := .decay } base, ?_, ?_⟩ <;> first | decide +kernel | rfl
  · refine ⟨0#5, 2000#16, 0#64, _, setSlot 0 { slotCh base 0 with gateOffAt := some 0 } base, ?_, ?_, ?_, ?_, ?_, rfl⟩ <;> first | decide +kernel | rfl
  · refine ⟨0#5, 2000#16, base, ?_, ?_, ?_, ?_, ?_⟩ <;> first | decide +kernel | rfl
  · refine ⟨14400#16, _, base, ?_, ?_, rfl⟩ <;> first | decide +kernel | rfl
  · refine ⟨13799#16, { base with slot := { base.slot with busOv := true } }, ?_, ?_⟩ <;> first | decide +kernel | rfl
  · refine ⟨10199#16, base, ?_, ?_⟩ <;> first | decide +kernel | rfl
  · refine ⟨10200#16, { base with slot := { base.slot with busUv := true } }, ?_, ?_⟩ <;> first | decide +kernel | rfl

/-- The hypotheses of every clause of `Obligations.SlotControlsAct` are met. -/
theorem wit_SlotControlsAct :
  (∃ (n : BitVec 5) (t : State) (s : State),
    n.toNat ≤ 23 ∧ t = raiseFree 17 0x21 (source 9 n.toNat) (slotSts n.toNat 0 s) ∧
    (hostHp s n.toNat || !ctlToggle (slotCh t n.toNat) || decide ((slotCh t n.toNat).st = .latched) || decide
    ((slotCh t n.toNat).st = .damaged)) = true) ∧
  (∃ (n : BitVec 5) (t : State) (s : State),
    n.toNat ≤ 23 ∧ t = raiseFree 17 0x21 (source 9 n.toNat) (slotSts n.toNat 0 s) ∧
    (hostHp s n.toNat || !ctlToggle (slotCh t n.toNat) || decide ((slotCh t n.toNat).st = .latched) || decide
    ((slotCh t n.toNat).st = .damaged)) = false ∧
    (slotCh t n.toNat).toggleAt = none) ∧
  (∃ (n : BitVec 5) (k : BitVec 64) (t : State) (s : State),
    n.toNat ≤ 23 ∧ t = raiseFree 17 0x21 (source 9 n.toNat) (slotSts n.toNat 0 s) ∧
    (hostHp s n.toNat || !ctlToggle (slotCh t n.toNat) || decide ((slotCh t n.toNat).st = .latched) || decide
    ((slotCh t n.toNat).st = .damaged)) = false ∧
    (slotCh t n.toNat).toggleAt = some k) ∧
  (∃ (n : BitVec 5) (k : BitVec 64) (t v : State) (s : State),
    (slotCh s n.toNat).toggleAt = some k ∧ t = reachAon (k.toNat + 5000 * msTicks) s ∧
    v = setSlot n.toNat { slotCh t n.toNat with toggleAt := none } t) ∧
  (∃ (n : BitVec 5) (b : Bool) (s : State),
    n.toNat ≤ 23) ∧
  (∃ (u : BitVec 7) (via : BitVec 11) (v : BitVec 16) (k : Nat) (l : List Nat) (s : State),
    k = prSlot (portRec s (u.toNat / 2)) (u.toNat % 2) ∧ l = vppbsOf u.toNat s ∧ k ≤ 23 ∧
    l.contains via.toNat = true) ∧
  (∃ (n : BitVec 5) (v : BitVec 64) (s : State),
    n.toNat ≤ 23) ∧
  (∃ (n : BitVec 5) (s : State),
    n.toNat ≤ 23) ∧
  (∃ (t : State) (s : State),
    s.slot.vselLost = false ∧
    t = raiseFree 17 0x32 (source 0 0) { s with slot := { s.slot with vselLost := true } }) ∧
  (∃ (m : BitVec 24) (s : State),
    s.slot.vselLost = true) := by
  refine ⟨?_, ?_, ?_, ?_, ?_, ?_, ?_, ?_, ?_, ?_⟩
  · refine ⟨0#5, _, base, ?_, rfl, ?_⟩ <;> first | decide +kernel | rfl
  · refine ⟨0#5, _, setSlot 0 { slotCh base 0 with ctl := 4 } base, ?_, rfl, ?_, ?_⟩ <;> first | decide +kernel | rfl
  · refine ⟨0#5, 0#64, _, setSlot 0 { slotCh base 0 with ctl := 4, toggleAt := some 0 } base, ?_, rfl, ?_, ?_⟩ <;> first | decide +kernel | rfl
  · refine ⟨0#5, 0#64, _, _, setSlot 0 { slotCh base 0 with toggleAt := some 0 } base, ?_, rfl, rfl⟩ <;> first | decide +kernel | rfl
  · refine ⟨23#5, false, base, ?_⟩ <;> first | decide +kernel | rfl
  · refine ⟨0#7, 0#11, 0#16, _, _, xvppb, rfl, rfl, ?_, ?_⟩ <;> first | decide +kernel | rfl
  · refine ⟨23#5, 0#64, base, ?_⟩ <;> first | decide +kernel | rfl
  · refine ⟨23#5, base, ?_⟩ <;> first | decide +kernel | rfl
  · refine ⟨_, base, ?_, rfl⟩ <;> first | decide +kernel | rfl
  · refine ⟨0#24, { base with slot := { base.slot with vselLost := true } }, ?_⟩ <;> first | decide +kernel | rfl

/-- The hypotheses of every clause of `Obligations.SlotCommandsAct` are met. -/
theorem wit_SlotCommandsAct :
  (∃ (r : Req) (n : BitVec 8) (s : State),
    serves 0x0D01 false r (wBytes 1 n) s ∧ n.toNat ≤ 23) ∧
  (∃ (r : Req) (n : BitVec 8) (f : BitVec 8) (s : State),
    serves 0x0D02 false r (wBytes 1 n ++ wBytes 1 1#8 ++ wBytes 1 f) s ∧ n.toNat ≤ 23 ∧ f.toNat ≤ 1 ∧
    (slotCh s n.toNat).prsntS = true ∧ (slotCh s n.toNat).st ≠ .latched ∧ ¬(hostHp s n.toNat = true ∧ f = 0) ∧
    (slotCh s n.toNat).st ≠ .damaged ∧ (slotCh s n.toNat).cmds = []) ∧
  (∃ (r : Req) (n : BitVec 8) (f : BitVec 8) (s : State),
    serves 0x0D02 false r (wBytes 1 n ++ wBytes 1 0#8 ++ wBytes 1 f) s ∧ n.toNat ≤ 23 ∧ f.toNat ≤ 1 ∧
    ¬(hostHp s n.toNat = true ∧ f = 0) ∧ (slotCh s n.toNat).cmds = []) ∧
  (∃ (r : Req) (n : BitVec 8) (g k p : BitVec 64) (s : State),
    serves 0x0D03 false r (wBytes 1 n ++ zeros 7 ++ wBytes 8 g ++ wBytes 8 k ++ wBytes 8 p) s ∧ n.toNat ≤ 23 ∧
    gateOk g = true ∧ ¬((slotCh s n.toNat).lock = true ∧ gateMask g ≠ (slotCh s n.toNat).gateCtl)) ∧
  (∃ (r : Req) (n : BitVec 8) (a p f : BitVec 8) (s : State),
    serves 0x0D04 false r (wBytes 1 n ++ wBytes 1 a ++ wBytes 1 p ++ wBytes 1 f) s ∧ n.toNat ≤ 23 ∧ a.toNat ≤ 3 ∧
    p.toNat ≤ 3 ∧ f.toNat ≤ 1 ∧ ¬(hostHp s n.toNat = true ∧ f = 0)) ∧
  (∃ (r : Req) (n : BitVec 8) (w : BitVec 8) (t : State) (s : State),
    serves 0x0D05 false r (wBytes 1 n ++ wBytes 1 w) s ∧ n.toNat ≤ 23 ∧ w.toNat ≤ 3 ∧
    ¬(bit w 1 = true ∧ (slotCh s n.toNat).st = .damaged ∧ 2000 ≤ (slotCh s n.toNat).vout.toNat) ∧
    t = (if bit w 0 then clearLatch n.toNat s else s)) ∧
  (∃ (r : Req) (n : BitVec 8) (h : BitVec 8) (s : State),
    serves 0x0D06 false r (wBytes 1 n ++ wBytes 1 h) s ∧ n.toNat ≤ 23 ∧ h.toNat ≤ 1) := by
  refine ⟨?_, ?_, ?_, ?_, ?_, ?_, ?_⟩
  · refine ⟨r0, 23#8, asked 0x0D01 (wBytes 1 23#8) base, asked_serves ?_, ?_⟩ <;> first | decide +kernel | rfl
  · refine ⟨r0, 0#8, 1#8,
      asked 0x0D02 (wBytes 1 0#8 ++ wBytes 1 1#8 ++ wBytes 1 1#8) (setSlot 0
      { slotCh base 0 with prsntS := true, st := .wait } base),
      asked_serves ?_, ?_, ?_, ?_, ?_, ?_, ?_, ?_⟩ <;> first | decide +kernel | rfl
  · refine ⟨r0, 0#8, 1#8, asked 0x0D02 (wBytes 1 0#8 ++ wBytes 1 0#8 ++ wBytes 1 1#8) base, asked_serves ?_, ?_, ?_, ?_,
      ?_⟩ <;> first | decide +kernel | rfl
  · refine ⟨r0, 0#8, (slotCh base 0).gateCtl, 0#64, 0#64,
      asked 0x0D03 (wBytes 1 0#8 ++ zeros 7 ++ wBytes 8 ((slotCh base 0).gateCtl) ++ wBytes 8 0#64 ++ wBytes 8
      0#64) base,
      asked_serves ?_, ?_, ?_, ?_⟩ <;> first | decide +kernel | rfl
  · refine ⟨r0, 0#8, 3#8, 3#8, 1#8, asked 0x0D04 (wBytes 1 0#8 ++ wBytes 1 3#8 ++ wBytes 1 3#8 ++ wBytes 1 1#8) base,
      asked_serves ?_, ?_, ?_, ?_, ?_, ?_⟩ <;> first | decide +kernel | rfl
  · refine ⟨r0, 0#8, 3#8, _, asked 0x0D05 (wBytes 1 0#8 ++ wBytes 1 3#8) base, asked_serves ?_, ?_, ?_, ?_, rfl⟩ <;> first | decide +kernel | rfl
  · refine ⟨r0, 0#8, 1#8, asked 0x0D06 (wBytes 1 0#8 ++ wBytes 1 1#8) base, asked_serves ?_, ?_, ?_⟩ <;> first | decide +kernel | rfl

/-- The hypotheses of every clause of `Obligations.SealCommandsAct` are met. -/
theorem wit_SealCommandsAct :
  (∃ (r : Req) (s : State),
    serves 0x0E01 false r [] s) ∧
  (∃ (r : Req) (env : Env) (s : State),
    serves 0x0E02 false r [] s ∧ s.sealu.entropyFail = false) ∧
  (∃ (k : BitVec 384) (e : BitVec 64) (t : State) (s : State),
    s.sealu.nonce = some (k, e) ∧ t = reachAon e.toNat s) ∧
  (∃ (r : Req) (g : BitVec 8) (l : Lc) (tok_ : Token) (env : Env) (t v : State) (x : Reply × State)
    (after : State) (s : State),
    serves 0x0E03 false r (wBytes 1 g ++ zeros 3 ++ tokenBody tok_) s ∧ lcOf g.toNat = some l ∧
    lcRow s.sealu.lc l tok_.kind.toNat = true ∧ planBusy s = false ∧
    t = { s with sealu := { s.sealu with nonce := none } } ∧ after = burnTransition l tok_.kind.toNat t ∧
    appendNow env.append (lcAppend t { after with sealu := { after.sealu with lc := l } } l tok_) t = (true, v) ∧
    env.fuse = 0 ∧
    x = (tokenFault [1, 3, 4, 5] tok_ s).elim (ok, burnTransition l tok_.kind.toNat v) (fun e => (rep e.1 e.2,
    raiseFree 14 1 (source 0 0) t))) ∧
  (∃ (r : Req) (key : BitVec 776) (tok_ : Token) (env : Env) (i : Nat) (t v : State) (x : Reply × State)
    (s : State),
    serves 0x0E04 false r (zeros 4 ++ wBytes 97 key ++ zeros 3 ++ tokenBody tok_) s ∧
    tok_.arg.setWidth 384 = Config.sha384 (wBytes 97 key) ∧
    t = { s with sealu := { s.sealu with nonce := none } } ∧ freeOwnerSlot s = some i ∧
    appendNow env.append (lcAppend t (burnClaim i (Config.sha384 (wBytes 97 key)) t) .owned tok_) t = (true, v) ∧
    env.fuse = 0 ∧
    x = (tokenFault [2] tok_ s).elim (ok [BitVec.ofNat 8 i], burnClaim i (Config.sha384 (wBytes 97 key)) v) (fun e
    => (rep e.1 e.2, raiseFree 14 1 (source 0 0) t))) ∧
  (∃ (r : Req) (ch : List Byte) (env : Env) (s : State),
    serves 0x0E0D true r (leBytes 2 ch.length ++ zeros 2 ++ ch) s ∧ s.sealu.entropyFail = false ∧ env.fuse = 0) ∧
  (∃ (r : Req) (ch : List Byte) (s : State),
    serves 0x0E0E true r (leBytes 2 ch.length ++ zeros 2 ++ ch) s) ∧
  (∃ (r : Req) (tok_ : Token) (env : Env) (t v : State) (x : Reply × State) (s : State),
    serves 0x0E05 false r (tokenBody tok_) s ∧ (s.mgmt.maker = none ∨ s.mgmt.maker = some r.src) ∧
    t = { s with sealu := { s.sealu with nonce := none } } ∧
    appendNow env.append (mkAppend t 12 0 0 (requesterBytes r.src)) t = (true, v) ∧
    x = (tokenFault [6] tok_ s).elim (ok,
    { v with mgmt := { v.mgmt with maker := some r.src, makerSince := v.aon } }) (fun e => (rep e.1 e.2, raiseFree
    14 1 (source 0 0) t))) ∧
  (∃ (r : Req) (s : State),
    serves 0x0E06 true r [] s) ∧
  (∃ (r : Req) (k : BitVec 8) (key : BitVec 776) (tok_ : Token) (env : Env) (t : State) (x : Reply × State)
    (s : State),
    serves 0x0E07 false r (wBytes 1 k ++ zeros 3 ++ wBytes 97 key ++ zeros 3 ++ tokenBody tok_) s ∧
    tok_.arg = keyArg k 1 (Config.sha384 (wBytes 97 key)) ∧ k.toNat < 4 ∧ keyPoint key = true ∧
    t = { s with sealu := { s.sealu with nonce := none } } ∧
    x = (tokenFault [7] tok_ s).elim ((keyChange env k 1 (some key) t).1, (keyChange env k 1 (some key) t).2) (fun
    e => (rep e.1 e.2, raiseFree 14 1 (source 0 0) t))) ∧
  (∃ (r : Req) (k : BitVec 8) (tok_ : Token) (env : Env) (t : State) (x : Reply × State) (s : State),
    serves 0x0E08 false r (wBytes 1 k ++ zeros 3 ++ tokenBody tok_) s ∧ tok_.arg = keyArg k 2 0 ∧ k.toNat < 4 ∧
    t = { s with sealu := { s.sealu with nonce := none } } ∧
    x = (tokenFault [7] tok_ s).elim ((keyChange env k 2 none t).1, (keyChange env k 2 none t).2) (fun e => (rep
    e.1 e.2, raiseFree 14 1 (source 0 0) t))) ∧
  (∃ (r : Req) (tok_ : Token) (f : BitVec 8) (t : State) (x : Reply × State) (s : State),
    serves 0x0E09 false r (tokenBody tok_) s ∧ f = tok_.arg.setWidth 8 ∧
    f &&& ~~~ (debugMask s.sealu.lc).setWidth 8 = 0 ∧ t = { s with sealu := { s.sealu with nonce := none } } ∧
    x = (tokenFault [8] tok_ s).elim (ok [f],
    { t with sealu := { t.sealu with staged := f.setWidth 4, isStaged := true } }) (fun e => (rep e.1 e.2,
    raiseFree 14 1 (source 0 0) t))) ∧
  (∃ (r : Req) (q : BitVec 64) (k : BitVec 16) (rs : List ColoRec) (p : List Byte) (s : State),
    serves 0x0E0A false r (wBytes 8 q ++ wBytes 2 k) s ∧ 1 ≤ k.toNat ∧ k.toNat ≤ 15 ∧
    (List.range k.toNat).map (fun i => ringRecord s (q.toNat + i)) = rs.map some ∧
    p = (rs.map (·.bytes)).flatten ∧ 16 + p.length ≤ maxResponse r.src) ∧
  (∃ (r : Req) (n : BitVec 384) (s : State),
    serves 0x0E0B false r (wBytes 48 n) s) ∧
  (∃ (r : Req) (w : BitVec 8) (o : BitVec 32) (n : BitVec 16) (s : State),
    serves 0x0E0C false r (wBytes 1 w ++ zeros 3 ++ wBytes 4 o ++ wBytes 2 n) s ∧ w.toNat ≤ 1 ∧
    o.toNat + n.toNat ≤ (if w = 0 then s.sealu.cert else s.sealu.aliasCert).length ∧ 1 ≤ n.toNat ∧ n.toNat ≤ 4096) := by
  refine ⟨?_, ?_, ?_, ?_, ?_, ?_, ?_, ?_, ?_, ?_, ?_, ?_, ?_, ?_, ?_⟩
  · refine ⟨r0, asked 0x0E01 [] base, asked_serves ?_⟩ <;> first | decide +kernel | rfl
  · refine ⟨r0, Env.good, asked 0x0E02 [] base, asked_serves ?_, ?_⟩ <;> first | decide +kernel | rfl
  · refine ⟨5#384, 1000#64, _, xtok .owned, ?_, rfl⟩ <;> first | decide +kernel | rfl
  · refine ⟨r0, 4#8, .returned, tok 4 0x10 0, Env.good, _, _, _, _,
      asked 0x0E03 (wBytes 1 4#8 ++ zeros 3 ++ tokenBody (tok 4 0x10 0)) (xtok .owned), asked_serves ?_, ?_, ?_,
      ?_, rfl, rfl, Prod.ext ?_ rfl, ?_, rfl⟩ <;> first | decide +kernel | rfl
  · refine ⟨r0, 0#776, tok 2 0 ((Config.sha384 (wBytes 97 0#776)).setWidth 512), Env.good, 0, _, _, _,
      asked 0x0E04 (zeros 4 ++ wBytes 97 0#776 ++ zeros 3 ++ tokenBody (tok 2 0 ((Config.sha384 (wBytes 97
      0#776)).setWidth 512))) (xtok .sealed),
      asked_serves ?_, by simp [tok], rfl, ?_, Prod.ext ?_ rfl, ?_, rfl⟩ <;> first | decide +kernel | rfl
  · refine ⟨r0, [], Env.good, asked 0x0E0D (leBytes 2 [].length ++ zeros 2 ++ []) baseMaker, asked_serves ?_, ?_, ?_⟩ <;> first | decide +kernel | rfl
  · refine ⟨r0, [], asked 0x0E0E (leBytes 2 [].length ++ zeros 2 ++ []) baseMk, asked_serves ?_⟩ <;> first | decide +kernel | rfl
  · refine ⟨r0, tok 6 0 0, Env.good, _, _, _, asked 0x0E05 (tokenBody (tok 6 0 0)) (xtok .maker), asked_serves ?_, ?_,
      rfl, Prod.ext ?_ rfl, rfl⟩ <;> first | decide +kernel | rfl
  · refine ⟨r0, asked 0x0E06 [] baseMk, asked_serves ?_⟩ <;> first | decide +kernel | rfl
  · refine ⟨r0, 3#8, xkey, tok 7 0x10 (keyArg 3 1 (Config.sha384 (wBytes 97 xkey))), Env.good, _, _,
      asked 0x0E07 (wBytes 1 3#8 ++ zeros 3 ++ wBytes 97 xkey ++ zeros 3 ++ tokenBody (tok 7 0x10 (keyArg 3 1
      (Config.sha384 (wBytes 97 xkey))))) (xtok .owned),
      asked_serves ?_, by simp [tok], ?_, ?_, rfl, rfl⟩ <;> first | decide +kernel | rfl
  · refine ⟨r0, 3#8, tok 7 0x10 (keyArg 3 2 0), Env.good, _, _,
      asked 0x0E08 (wBytes 1 3#8 ++ zeros 3 ++ tokenBody (tok 7 0x10 (keyArg 3 2 0))) (xtok .owned),
      asked_serves ?_, ?_, ?_, rfl, rfl⟩ <;> first | decide +kernel | rfl
  · refine ⟨r0, tok 8 0x10 3, 3#8, _, _, asked 0x0E09 (tokenBody (tok 8 0x10 3)) (xtok .owned), asked_serves ?_, ?_, ?_,
      rfl, rfl⟩ <;> first | decide +kernel | rfl
  · refine ⟨r0, 0#64, 1#16, [{ seq := 0, bytes := [] }], _,
      asked 0x0E0A (wBytes 8 0#64 ++ wBytes 2 1#16)
      ({ base with sealu := { base.sealu with ring := [(0, some { seq := 0, bytes := [] })] } }),
      asked_serves ?_, ?_, ?_, rfl, rfl, ?_⟩ <;> first | decide +kernel | rfl
  · refine ⟨r0, 0#384, asked 0x0E0B (wBytes 48 0#384) base, asked_serves ?_⟩ <;> first | decide +kernel | rfl
  · refine ⟨r0, 0#8, 0#32, 1#16,
      asked 0x0E0C (wBytes 1 0#8 ++ zeros 3 ++ wBytes 4 0#32 ++ wBytes 2 1#16)
      ({ base with sealu := { base.sealu with cert := [7] } }),
      asked_serves ?_, ?_, ?_, ?_, ?_⟩ <;> first | decide +kernel | rfl

/-- The hypotheses of every clause of `Obligations.AttestationEventsAct` are met. -/
theorem wit_AttestationEventsAct :
  (∃ (u : BitVec 7) (t : State) (s : State),
    s.mgmt.fw = .running ∧ s.sealu.spdm = [] ∧ s.mgmt.attachQ.head? = some u.toNat ∧
    t = { s with
      mgmt := { s.mgmt with attachQ := s.mgmt.attachQ.drop 1 },
      sealu := { s.sealu with spdm := [{ port := u.toNat, since := s.tele.time }] } }) ∧
  (∃ (u : BitVec 7) (m : Measured) (env : Env) (x : Spdm) (f : BitVec 32) (t v w : State) (s : State),
    s.sealu.spdm.find? (fun x => decide (x.port = u.toNat)) = some x ∧
    f = measFlags m (!m.timely || decide (x.since.toNat + 2000 * msTicks < now s)) ∧
    t = { s with sealu := { s.sealu with spdm := s.sealu.spdm.filter fun y => !decide (y.port = u.toNat) } } ∧
    v = (if m.spdm && !m.sigOk && !(!m.timely || decide (x.since.toNat + 2000 * msTicks < now s)) then raiseFree
    14 0x20 (source 1 u.toNat) t else t) ∧
    tabGet none s.sealu.devRecs u.toNat = none ∧
    appendNow env.append (mkAppend v 6 f (measSubject m (port s u.toNat).ident) (measPayload v u.toNat m)) v =
    (true, w)) ∧
  (∃ (tr : Transport) (e : BitVec 8) (s : State),
    s.sealu.lc ≠ .blank ∧ s.sealu.lc ≠ .spent ∧ s.mgmt.fw = .running) ∧
  (∃ (tr : Transport) (e : BitVec 8) (s : State),
    s.sealu.lc ≠ .blank ∧ s.sealu.lc ≠ .spent ∧ s.mgmt.fw = .running) ∧
  (∃ (tr : Transport) (e : BitVec 8) (s : State),
    s.sealu.lc ≠ .blank ∧ s.sealu.lc ≠ .spent ∧ s.mgmt.fw = .running) ∧
  (∃ (tr : Transport) (e : BitVec 8) (s : State),
    s.sealu.lc ≠ .blank ∧ s.sealu.lc ≠ .spent ∧ s.mgmt.fw = .running) ∧
  (∃ (tr : Transport) (e : BitVec 8) (o n : BitVec 16) (p : List Byte) (s : State),
    s.sealu.lc ≠ .blank ∧ s.sealu.lc ≠ .spent ∧ s.mgmt.fw = .running ∧
    p = ((spdmChain s).drop o.toNat).take n.toNat) ∧
  (∃ (tr : Transport) (e : BitVec 8) (n : BitVec 256) (p : List Byte) (s : State),
    s.sealu.lc ≠ .blank ∧ s.sealu.lc ≠ .spent ∧ s.mgmt.fw = .running ∧
    p = spdmHead 0x03 0 1 ++ wBytes 48 (Config.sha384 (spdmChain s))) ∧
  (∃ (tr : Transport) (e : BitVec 8) (k : BitVec 8) (n : BitVec 256) (p : List Byte) (s : State),
    s.sealu.lc ≠ .blank ∧ s.sealu.lc ≠ .spent ∧ s.mgmt.fw = .running ∧
    p = spdmHead 0x60 0 0 ++ leBytes 3 (spdmBlocks s k.toNat).length ++ spdmBlocks s k.toNat) ∧
  (∃ (tr : Transport) (e : BitVec 8) (n : BitVec 256) (p : List Byte) (s : State),
    s.sealu.lc ≠ .blank ∧ s.sealu.lc ≠ .spent ∧ s.mgmt.fw = .running ∧
    p = spdmHead 0x64 0 0 ++ wBytes 48 (Config.sha384 (spdmChain s)) ∧ s.sealu.entropyFail = false) ∧
  (∃ (tr : Transport) (e : BitVec 8) (n : BitVec 256) (s : State),
    s.sealu.lc ≠ .blank ∧ s.sealu.lc ≠ .spent ∧ s.mgmt.fw = .running ∧ s.sealu.entropyFail = true) ∧
  (∃ (tr : Transport) (e : BitVec 8) (u : BitVec 7) (k : IdeKm) (s : State),
    s.sealu.lc ≠ .blank ∧ s.sealu.lc ≠ .spent ∧ s.mgmt.fw = .running ∧ s.sealu.entropyFail = false) ∧
  (∃ (tr : Transport) (e : BitVec 8) (s : State),
    s.sealu.lc ≠ .blank ∧ s.sealu.lc ≠ .spent ∧ s.mgmt.fw = .running) := by
  refine ⟨?_, ?_, ?_, ?_, ?_, ?_, ?_, ?_, ?_, ?_, ?_, ?_, ?_⟩
  · refine ⟨28#7, _, { base with mgmt := { base.mgmt with attachQ := [28] } }, ?_, ?_, ?_, rfl⟩ <;> first | decide +kernel | rfl
  · refine ⟨28#7, xmeas, Env.good, { port := 28, since := 0 }, _, _, _, _,
      { base with sealu := { base.sealu with spdm := [{ port := 28, since := 0 }] } }, ?_, rfl, rfl, rfl, ?_,
      Prod.ext ?_ rfl⟩ <;> first | decide +kernel | rfl
  · refine ⟨.i3c 0, 0#8, base, ?_, ?_, ?_⟩ <;> first | decide +kernel | rfl
  · refine ⟨.i3c 0, 0#8, base, ?_, ?_, ?_⟩ <;> first | decide +kernel | rfl
  · refine ⟨.i3c 0, 0#8, base, ?_, ?_, ?_⟩ <;> first | decide +kernel | rfl
  · refine ⟨.i3c 0, 0#8, base, ?_, ?_, ?_⟩ <;> first | decide +kernel | rfl
  · refine ⟨.i3c 0, 0#8, 0#16, 0#16, _, base, ?_, ?_, ?_, rfl⟩ <;> first | decide +kernel | rfl
  · refine ⟨.i3c 0, 0#8, 0#256, _, base, ?_, ?_, ?_, rfl⟩ <;> first | decide +kernel | rfl
  · refine ⟨.i3c 0, 0#8, 0#8, 0#256, _, base, ?_, ?_, ?_, rfl⟩ <;> first | decide +kernel | rfl
  · refine ⟨.i3c 0, 0#8, 0#256, _, base, ?_, ?_, ?_, rfl, ?_⟩ <;> first | decide +kernel | rfl
  · refine ⟨.i3c 0, 0#8, 0#256, { base with sealu := { base.sealu with entropyFail := true } }, ?_, ?_, ?_, ?_⟩ <;> first | decide +kernel | rfl
  · refine ⟨.i3c 0, 0#8, 0#7, .query, base, ?_, ?_, ?_, ?_⟩ <;> first | decide +kernel | rfl
  · refine ⟨.i3c 0, 0#8, base, ?_, ?_, ?_⟩ <;> first | decide +kernel | rfl

/-- The hypotheses of every clause of `Obligations.ResetsAndBootAct` are met. -/
theorem wit_ResetsAndBootAct :
  (∃ (b : BootIn) (s : State),
    s.boot.held = false ∧ b.pin = true) ∧
  (∃ (b : BootIn) (s : State),
    s.boot.held = false ∧ b.pin = false ∧ s.boot.resetDue = some 0 ∧ resetReady s = true) ∧
  (∃ (b : BootIn) (s : State),
    s.boot.held = false ∧ s.boot.resetDue ≠ some 0 ∧ b.pin = true) ∧
  (∃ (b : BootIn) (s : State),
    s.boot.held = false ∧ b.pin = false ∧ s.boot.resetDue = some 1 ∧ resetReady s = true) ∧
  (∃ (b : BootIn) (k : BitVec 64) (s : State),
    s.sealu.lcReset = some k ∧ s.boot.held = false) ∧
  (∃ (t : State) (s : State),
    s.boot.held = false ∧ t = coldClear s) ∧
  (∃ (b : BootIn) (s : State),
    s.boot.held = true) ∧
  (∃ (m : BitVec 2) (t : State) (l : List (List Byte × BitVec 384)) (s : State),
    s.mgmt.fw = .running ∧ s.boot.stage = 4 ∧ t = [0, 1].foldl (bootStack m) (applyRemaps s) ∧
    l = (if s.boot.planHold then [] else persistedChain s)) ∧
  (∃ (k : BitVec 64) (t : State) (s : State),
    s.boot.waitFrom = some k ∧ timeReady s = false ∧ s.boot.stage = 5 ∧
    t = reach (k.toNat + s.boot.board.timeWait.toNat * msTicks) s) ∧
  (∃ (k : BitVec 64) (env : Env) (img : List Byte) (d : BitVec 384) (l : List (List Byte × BitVec 384))
    (t : State) (s : State),
    s.boot.chainLeft = (img, d) :: l ∧ s.mgmt.fw = .running ∧ 5 ≤ s.boot.stage.toNat ∧
    s.plan.shadowState = .empty ∧ (timeReady s = true ∨ s.boot.waitFrom = none) ∧ s.sealu.ringFault = false ∧
    t = validate env.append false 0 (loadPersisted img (reach k.toNat s))) ∧
  (∃ (b : BootIn) (s : State),
    s.pmu.exiting = true ∧ s.pmu.st = .doze ∧ exitFront s = [] ∧ railsUp s = true) ∧
  (∃ (b : BootIn) (s : State),
    s.pmu.exiting = true ∧ s.pmu.st = .standby) := by
  refine ⟨?_, ?_, ?_, ?_, ?_, ?_, ?_, ?_, ?_, ?_, ?_, ?_⟩
  · refine ⟨bi, base, ?_, ?_⟩ <;> first | decide +kernel | rfl
  · refine ⟨{ bi with pin := false }, { base with boot := { base.boot with resetDue := some 0 } }, ?_, ?_, ?_, ?_⟩ <;> first | decide +kernel | rfl
  · refine ⟨bi, base, ?_, ?_, ?_⟩ <;> first | decide +kernel | rfl
  · refine ⟨{ bi with pin := false }, { base with boot := { base.boot with resetDue := some 1 } }, ?_, ?_, ?_, ?_⟩ <;> first | decide +kernel | rfl
  · refine ⟨bi, 0#64, { base with sealu := { base.sealu with lcReset := some 0 } }, ?_, ?_⟩ <;> first | decide +kernel | rfl
  · refine ⟨_, base, ?_, rfl⟩ <;> first | decide +kernel | rfl
  · refine ⟨bi, { base with boot := { base.boot with held := true } }, ?_⟩ <;> first | decide +kernel | rfl
  · refine ⟨3#2, _, _, base, ?_, ?_, rfl, rfl⟩ <;> first | decide +kernel | rfl
  · refine ⟨0#64, _, { base with boot := { base.boot with waitFrom := some 0, stage := 5 } }, ?_, ?_, ?_, rfl⟩ <;> first | decide +kernel | rfl
  · refine ⟨0#64, Env.good, [], 0#384, [], _,
      { base with boot := { base.boot with chainLeft := [([], 0)], stage := 5 } }, ?_, ?_, ?_, ?_, ?_, ?_, rfl⟩ <;> first | decide +kernel | rfl
  · refine ⟨bi, xdoze, ?_, ?_, ?_,
      by simp [railsUp, railUp, railOf, xdoze, tabGet, Rail.init, List.range, List.range.loop]⟩ <;> first | decide +kernel | rfl
  · refine ⟨bi, { base with pmu := { base.pmu with exiting := true, st := .standby } }, ?_, ?_⟩ <;> first | decide +kernel | rfl

/-- The hypotheses of every clause of `Obligations.ImagesAndTemperatureAct` are met. -/
theorem wit_ImagesAndTemperatureAct :
  (∃ (r : Req) (g : BitVec 8) (o : BitVec 32) (d : List Byte) (s : State),
    serves 0x0F10 false r (wBytes 1 g ++ zeros 3 ++ wBytes 4 o ++ leBytes 2 d.length ++ zeros 2 ++ d) s ∧
    regionOk s g = true ∧ 1 ≤ d.length ∧ d.length ≤ 4096 ∧
    (o = 0 ∨ o.toNat = (tabGet [] s.boot.flash.writing g.toNat).length) ∧ o.toNat + d.length ≤ regionSize g.toNat) ∧
  (∃ (r : Req) (o : BitVec 32) (d : List Byte) (s : State),
    s.boot.held = false ∧ s.boot.stage = 7 ∧ romHears r s = true ∧
    inHand r 0x0F10 (wBytes 1 2#8 ++ zeros 3 ++ wBytes 4 o ++ leBytes 2 d.length ++ zeros 2 ++ d) s = true ∧
    1 ≤ d.length ∧ d.length ≤ 4096 ∧ (o = 0 ∨ o.toNat = (tabGet [] s.boot.flash.writing 2).length) ∧
    o.toNat + d.length ≤ regionSize 2) ∧
  (∃ (r : Req) (g : BitVec 8) (v : BitVec 24) (s : State),
    serves 0x0F11 false r (wBytes 1 g ++ wBytes 3 v) s ∧ g.toNat < 2 ∧ selectOk s g.toNat = true) ∧
  (∃ (r : Req) (g : BitVec 8) (v : BitVec 24) (s : State),
    serves 0x0F11 false r (wBytes 1 g ++ wBytes 3 v) s ∧ g.toNat < 2) ∧
  (∃ (r : Req) (v : BitVec 24) (s : State),
    s.boot.held = false ∧ s.boot.stage = 7 ∧ romHears r s = true ∧
    inHand r 0x0F11 (wBytes 1 2#8 ++ wBytes 3 v) s = true) ∧
  (∃ (c l a b v : BitVec 8) (t : State) (s : State),
    s.boot.held = false ∧ s.pmu.st ≠ .standby ∧
    t = { s with boot := { s.boot with thermal := v ++ b ++ a ++ l ++ c } }) := by
  refine ⟨?_, ?_, ?_, ?_, ?_, ?_⟩
  · refine ⟨r0, 0#8, 0#32, [1],
      asked 0x0F10 (wBytes 1 0#8 ++ zeros 3 ++ wBytes 4 0#32 ++ leBytes 2 [1].length ++ zeros 2 ++ [1]) base,
      asked_serves ?_, ?_, ?_, ?_, ?_, ?_⟩ <;> first | decide +kernel | rfl
  · refine ⟨r1, 0#32, [1], xrom 0x0F10 (wBytes 1 2#8 ++ zeros 3 ++ wBytes 4 0#32 ++ leBytes 2 1 ++ zeros 2 ++ [1]), ?_,
      ?_, ?_, ?_, ?_, ?_, ?_, ?_⟩ <;> first | decide +kernel | rfl
  · refine ⟨r0, 1#8, 0#24,
      asked 0x0F11 (wBytes 1 1#8 ++ wBytes 3 0#24) ({ base with
        boot := { base.boot with flash := { base.boot.flash with bt := [(0, xtable), (1, xtable)] } } }),
      asked_serves ?_, ?_, ?_⟩ <;> first | decide +kernel | rfl
  · refine ⟨r0, 0#8, 0#24, asked 0x0F11 (wBytes 1 0#8 ++ wBytes 3 0#24) base, asked_serves ?_, ?_⟩ <;> first | decide +kernel | rfl
  · refine ⟨r1, 0#24, xrom 0x0F11 (wBytes 1 2#8 ++ wBytes 3 0#24), ?_, ?_, ?_, ?_⟩ <;> first | decide +kernel | rfl
  · refine ⟨0#8, 0#8, 0#8, 0#8, 0#8, _, base, rfl, by decide +kernel, rfl⟩ <;> first | decide +kernel | rfl

/-- The hypotheses of every clause of `Obligations.TimeSourcesAndCommandsAct` are met. -/
theorem wit_TimeSourcesAndCommandsAct :
  (∃ (i : BitVec 1) (s : State),
    bit s.tele.refPresent i.toNat = true) ∧
  (∃ (i : BitVec 1) (t : State) (s : State),
    bit s.tele.refPresent i.toNat = false ∧
    t = condGone 18 2 (source 0 0)
    { s with tele := { s.tele with refPresent := setFld s.tele.refPresent i.toNat 1 1 } } ∧
    bit t.tele.refPresent t.tele.ref.toNat = true) ∧
  (∃ (i : BitVec 1) (t : State) (s : State),
    bit s.tele.refPresent i.toNat = false ∧
    t = condGone 18 2 (source 0 0)
    { s with tele := { s.tele with refPresent := setFld s.tele.refPresent i.toNat 1 1 } } ∧
    bit t.tele.refPresent t.tele.ref.toNat = false) ∧
  (∃ (t : State) (s : State),
    s.tele.source ≠ 1 ∧ t = untilStale s ∧ bestSource t ≠ t.tele.source.toNat) ∧
  (∃ (a : BitVec 64) (s : State),
    s.tele.betterSince = some a ∧ better s = true ∧ a.toNat + s.tele.revertS.toNat * secTicks ≤ now s) ∧
  (∃ (k : Nat) (f b : Int) (s : State),
    s.tele.source.toNat = k + 16 ∧ k < 8 ∧ (weft s k).forward = some f ∧ (weft s k).back = some b) ∧
  (∃ (h : BitVec 32) (t : State) (s : State),
    640000 ≤ h.toNat ∧ h.toNat ≤ 960000 ∧ s.tele.source = 2 ∧
    t = noteBetter (fun s => { s with tele := { s.tele with tsyncAt := some s.tele.time } }) s ∧
    t.tele.source = 2) ∧
  (∃ (h : BitVec 32) (t : State) (s : State),
    (640000 ≤ h.toNat ∧ h.toNat ≤ 960000 ∨ 1920000 ≤ h.toNat ∧ h.toNat ≤ 2880000) ∧ s.tele.source ≠ 2 ∧
    t = noteBetter (fun s => { s with tele := { s.tele with tsyncAt := some s.tele.time } }) s) ∧
  (∃ (h : BitVec 32) (t : State) (s : State),
    h.toNat < 640000 ∧ t = { s with tele := { s.tele with badPulses := s.tele.badPulses + 1 } }) ∧
  (∃ (m k : Nat) (t : State) (s : State),
    s.tele.tsyncOut ≠ 0 ∧ k = secondEdge (max (now s) s.tele.tsyncFall.toNat) ∧
    m = multipleFrom (2 ^ 33) (max (now s) s.tele.tsyncFall.toNat) ∧ t = reach (min k m) s) ∧
  (∃ (r : Req) (d : BitVec 512) (s : State),
    serves 0x0A01 false r [] s ∧ d = timeInfoData s) ∧
  (∃ (r : Req) (sources_ : BitVec 32) (o ref : BitVec 8) (rv : BitVec 16) (as_ : BitVec 128) (t : TeleState)
    (u : State) (s : State),
    serves 0x0A02 false r (wBytes 4 sources_ ++ wBytes 1 o ++ wBytes 1 ref ++ wBytes 2 rv ++ wBytes 16 as_) s ∧
    timeConfigBad sources_ o ref rv = none ∧
    t = { s.tele with
      sources := tabWrite 0 [] 0 ((List.range 4).map fun i => fld sources_ (8 * i) 8), tsyncOut := o,
      ref := ref.setWidth 1, revertS := rv,
      asym := tabWrite 0 [] 0 ((List.range 8).map fun i => fld as_ (16 * i) 16) } ∧
    u = reSource s.tele.sources { s with tele := { t with betterSince := none } }) ∧
  (∃ (r : Req) (x : BitVec 64) (s : State),
    serves 0x0A03 false r (wBytes 8 x) s ∧ s.tele.frozen = false) := by
  refine ⟨?_, ?_, ?_, ?_, ?_, ?_, ?_, ?_, ?_, ?_, ?_, ?_, ?_⟩
  · refine ⟨0#1, { base with tele := { base.tele with refPresent := 3 } }, ?_⟩ <;> first | decide +kernel | rfl
  · refine ⟨1#1, _, { base with tele := { base.tele with refPresent := 1 } }, ?_, rfl, ?_⟩ <;> first | decide +kernel | rfl
  · refine ⟨1#1, _, { base with tele := { base.tele with refPresent := 0 } }, ?_, rfl, ?_⟩ <;> first | decide +kernel | rfl
  · refine ⟨_, xsource, ?_, rfl, ?_⟩ <;> first | decide +kernel | rfl
  · refine ⟨0#64, xbetter, ?_, ?_, ?_⟩ <;> first | decide +kernel | rfl
  · refine ⟨0, 10, 4,
      { setWeft 0 { weft base 0 with forward := some 10, back := some 4 } base with
        tele := { base.tele with source := 16 } },
      ?_, ?_, ?_, ?_⟩ <;> first | decide +kernel | rfl
  · refine ⟨800000#32, _, { base with tele := { base.tele with source := 2 } }, ?_, ?_, ?_, rfl, ?_⟩ <;> first | decide +kernel | rfl
  · refine ⟨2000000#32, _, base, ?_, ?_, rfl⟩ <;> first | decide +kernel | rfl
  · refine ⟨0#32, _, base, ?_, rfl⟩ <;> first | decide +kernel | rfl
  · refine ⟨_, _, _, { base with tele := { base.tele with tsyncOut := 1 } }, ?_, rfl, rfl, rfl⟩ <;> first | decide +kernel | rfl
  · refine ⟨r0, _, asked 0x0A01 [] base, asked_serves ?_, rfl⟩ <;> first | decide +kernel | rfl
  · refine ⟨r0, 0#32, 0#8, 0#8, 1#16, 0#128, _, _,
      asked 0x0A02 (wBytes 4 0#32 ++ wBytes 1 0#8 ++ wBytes 1 0#8 ++ wBytes 2 1#16 ++ wBytes 16 0#128) base,
      asked_serves ?_, ?_, rfl, rfl⟩ <;> first | decide +kernel | rfl
  · refine ⟨r0, 0#64, asked 0x0A03 (wBytes 8 0#64) base, asked_serves ?_, ?_⟩ <;> first | decide +kernel | rfl

/-- The hypotheses of every clause of `Obligations.CounterAndDumpEventsAct` are met. -/
theorem wit_CounterAndDumpEventsAct :
  (∃ (b : BitVec 7) (s : State),
    b.toNat ≤ 88) ∧
  (∃ (w : CWindow) (t : State) (s : State),
    s.tele.window = some w ∧ t = reach (w.start.toNat + w.length.toNat) s) ∧
  (∃ (k : BitVec 64) (t u : State) (s : State),
    s.tele.dumpK ≠ 0 ∧ k = BitVec.ofNat 64 (dumpBoundary s) ∧ t = reach (dumpBoundary s) s ∧
    u = { t with tele := { t.tele with dumpSeq := t.tele.dumpSeq + 1, dumpFrom := k + 1 } } ∧
    (u.tele.dumpWriting = none ∨ u.tele.edge ≠ none) ∧ stagingLost u (t.tele.dumpSeq + 1).toNat = false) ∧
  (∃ (d : Dump) (s : State),
    s.tele.dumpWriting = some d) ∧
  (∃ (q : BitVec 32) (l : List (BitVec 32)) (d : Dump) (t : State) (s : State),
    s.tele.hostDue = q :: l ∧ s.tele.hostWriting = none ∧
    s.tele.dumps.find? (fun d => decide (d.seq = q)) = some d ∧
    t = { s with tele := { s.tele with hostDue := l } }) ∧
  (∃ (t u : State) (s : State),
    s.tele.agePeriod ≠ 0 ∧ t = reach (ageInstant s) s ∧ u = sweepTaken (BitVec.ofNat 64 (ageInstant s)) t) ∧
  (∃ (s : State) (u : State),
    u = heatDrain s.tele.heatInc.length s) ∧
  (∃ (k : BitVec 16) (i n : BitVec 32) (l : List (BitVec 16 × BitVec 32 × BitVec 32)) (s : State),
    s.tele.heatClears = (k, i, n) :: l) := by
  refine ⟨?_, ?_, ?_, ?_, ?_, ?_, ?_, ?_⟩
  · refine ⟨0#7, base, ?_⟩ <;> first | decide +kernel | rfl
  · refine ⟨{ ticket := 1, start := 5, length := 9000 }, _,
      { base with tele := { base.tele with window := some { ticket := 1, start := 5, length := 9000 } } }, ?_,
      rfl⟩ <;> first | decide +kernel | rfl
  · refine ⟨_, _, _, { base with tele := { base.tele with dumpK := 6 } }, ?_, rfl, rfl, rfl, ?_, ?_⟩ <;> first | decide +kernel | rfl
  · refine ⟨{ seq := 1, bytes := [] },
      { base with tele := { base.tele with dumpWriting := some { seq := 1, bytes := [] } } }, ?_⟩ <;> first | decide +kernel | rfl
  · refine ⟨1#32, [], { seq := 1, bytes := [] }, _,
      { base with tele := { base.tele with dumps := [{ seq := 1, bytes := [] }], hostDue := [1] } }, ?_, ?_, ?_,
      rfl⟩ <;> first | decide +kernel | rfl
  · refine ⟨_, _, { base with tele := { base.tele with agePeriod := 1000 } }, ?_, rfl, rfl⟩ <;> first | decide +kernel | rfl
  · refine ⟨base, _, rfl⟩ <;> first | decide +kernel | rfl
  · refine ⟨1#16, 0#32, 4#32, [], { base with tele := { base.tele with heatClears := [(1, 0, 4)] } }, ?_⟩ <;> first | decide +kernel | rfl

/-- The hypotheses of every clause of `Obligations.TelemetryCommandsAct` are met. -/
theorem wit_TelemetryCommandsAct :
  (∃ (r : Req) (b : BitVec 8) (ctl : BitVec 64) (ev : BitVec 512) (fs fa fc : BitVec 64) (s : State),
    serves 0x0A04 false r (wBytes 1 b ++ zeros 7 ++ wBytes 8 ctl ++ wBytes 64 ev ++ wBytes 8 fs ++ wBytes 8 fa ++
    wBytes 8 fc) s ∧
    b.toNat ≤ 88 ∧ (List.range 8).all (fun k => eventAllowed b.toNat (fnat (fld ev (64 * k) 64) 0 4)) = true) ∧
  (∃ (r : Req) (b : BitVec 8) (t : State) (s : State),
    serves 0x0A05 false r (wBytes 1 b) s ∧ b.toNat ≤ 88 ∧ t = teleWake s) ∧
  (∃ (r : Req) (b n : BitVec 64) (s : State),
    serves 0x0A06 false r (wBytes 8 b ++ wBytes 8 n) s ∧ now s < b.toNat ∧ 8192 ≤ n.toNat ∧ s.tele.window = none ∧
    s.mgmt.tickets.length < 256) ∧
  (∃ (r : Req) (k f p : BitVec 8) (sl : BitVec 16) (a : BitVec 64) (bm : Bool) (s : State),
    serves 0x0A07 false r (wBytes 1 k ++ wBytes 1 f ++ wBytes 1 p ++ zeros 1 ++ wBytes 2 sl ++ zeros 2 ++ wBytes 8
    a) s ∧
    dumpConfigBad s k f p sl a bm = none) ∧
  (∃ (r : Req) (q o n : BitVec 32) (d : Dump) (s : State),
    serves 0x0A08 false r (wBytes 4 q ++ wBytes 4 o ++ wBytes 4 n) s ∧ 1 ≤ n.toNat ∧ n.toNat ≤ 8000 ∧
    s.tele.dumps.find? (fun d => decide (d.seq = q)) = some d ∧ stagingLost s q.toNat = false ∧
    o.toNat + n.toNat ≤ d.bytes.length) ∧
  (∃ (r : Req) (en : BitVec 8) (a : BitVec 32) (s : State),
    serves 0x0A09 false r (wBytes 1 en ++ zeros 3 ++ wBytes 4 a) s ∧ en.toNat ≤ 1 ∧
    (a = 0 ∨ 1000 ≤ a.toNat ∧ a.toNat ≤ 3600000)) ∧
  (∃ (r : Req) (i : BitVec 32) (n : BitVec 16) (s : State),
    serves 0x0A0A false r (wBytes 4 i ++ wBytes 2 n) s ∧ i.toNat + n.toNat ≤ heatCount s ∧ 1 ≤ n.toNat ∧
    n.toNat ≤ 2048) ∧
  (∃ (r : Req) (i n : BitVec 32) (s : State),
    serves 0x0A0B false r (wBytes 4 i ++ wBytes 4 n) s ∧ i.toNat + n.toNat ≤ heatCount s ∧
    s.mgmt.tickets.length < 256) ∧
  (∃ (r : Req) (sz md pt cm : BitVec 8) (xm b n : BitVec 64) (sf pr : BitVec 32) (s : State),
    serves 0x0A0C false r (wBytes 1 1#8 ++ wBytes 1 sz ++ wBytes 1 md ++ wBytes 1 pt ++ wBytes 1 cm ++ zeros 3 ++
    wBytes 8 xm ++ wBytes 8 b ++ wBytes 8 n ++ wBytes 4 sf ++ wBytes 4 pr) s ∧
    traceConfigBad s 1 sz md pt = none) ∧
  (∃ (r : Req) (i : BitVec 64) (n : BitVec 16) (s : State),
    serves 0x0A0D false r (wBytes 8 i ++ wBytes 2 n) s ∧ 1 ≤ n.toNat ∧ n.toNat ≤ 126 ∧
    traceHas s.tele i.toNat n.toNat = true) := by
  refine ⟨?_, ?_, ?_, ?_, ?_, ?_, ?_, ?_, ?_, ?_⟩
  · refine ⟨r0, 0#8, 0#64, 0#512, 0#64, 0#64, 0#64,
      asked 0x0A04 (wBytes 1 0#8 ++ zeros 7 ++ wBytes 8 0#64 ++ wBytes 64 0#512 ++ wBytes 8 0#64 ++ wBytes 8 0#64
      ++ wBytes 8 0#64) base,
      asked_serves ?_, ?_, ?_⟩ <;> first | decide +kernel | rfl
  · refine ⟨r0, 0#8, _, asked 0x0A05 (wBytes 1 0#8) base, asked_serves ?_, ?_, rfl⟩ <;> first | decide +kernel | rfl
  · refine ⟨r0, 0x100000#64, 9000#64, asked 0x0A06 (wBytes 8 0x100000#64 ++ wBytes 8 9000#64) base, asked_serves ?_, ?_,
      ?_, ?_, ?_⟩ <;> first | decide +kernel | rfl
  · refine ⟨r0, 6#8, 0#8, 0#8, 1#16, 0#64, false,
      asked 0x0A07 (wBytes 1 6#8 ++ wBytes 1 0#8 ++ wBytes 1 0#8 ++ zeros 1 ++ wBytes 2 1#16 ++ zeros 2 ++ wBytes
      8 0#64) base,
      asked_serves ?_, ?_⟩ <;> first | decide +kernel | rfl
  · refine ⟨r0, 1#32, 0#32, 1#32, { seq := 1, bytes := [7] },
      asked 0x0A08 (wBytes 4 1#32 ++ wBytes 4 0#32 ++ wBytes 4 1#32)
      ({ base with tele := { base.tele with dumps := [{ seq := 1, bytes := [7] }] } }),
      asked_serves ?_, ?_, ?_, ?_, ?_, ?_⟩ <;> first | decide +kernel | rfl
  · refine ⟨r0, 0#8, 0#32, asked 0x0A09 (wBytes 1 0#8 ++ zeros 3 ++ wBytes 4 0#32) base, asked_serves ?_, ?_, ?_⟩ <;> first | decide +kernel | rfl
  · refine ⟨r0, 0#32, 1#16, asked 0x0A0A (wBytes 4 0#32 ++ wBytes 2 1#16) base, asked_serves ?_, ?_, ?_, ?_⟩ <;> decide +kernel
  · refine ⟨r0, 0#32, 0#32, asked 0x0A0B (wBytes 4 0#32 ++ wBytes 4 0#32) base, asked_serves ?_, ?_, ?_⟩ <;> first | decide +kernel | rfl
  · refine ⟨r0, 20#8, 0#8, 0#8, 0#8, 0#64, 0#64, 0#64, 0#32, 0#32,
      asked 0x0A0C (wBytes 1 1#8 ++ wBytes 1 20#8 ++ wBytes 1 0#8 ++ wBytes 1 0#8 ++ wBytes 1 0#8 ++ zeros 3 ++
      wBytes 8 0#64 ++ wBytes 8 0#64 ++ wBytes 8 0#64 ++ wBytes 4 0#32 ++ wBytes 4 0#32) base,
      asked_serves ?_, ?_⟩ <;> first | decide +kernel | rfl
  · refine ⟨r0, 0#64, 1#16,
      asked 0x0A0D (wBytes 8 0#64 ++ wBytes 2 1#16)
      ({ base with tele := { base.tele with traceWritten := 1, traceSize := 20 } }),
      asked_serves ?_, ?_, ?_, ?_⟩ <;> first | decide +kernel | rfl

/-- The hypotheses of every clause of `Obligations.MemoryIntegrityActs` are met. -/
theorem wit_MemoryIntegrityActs :
  (∃ (t : BitVec 4) (check : EccKind) (m : MemType) (w : BitVec 64) (s : State),
    t.toNat ≤ 7 ∧ m = memType s t.toNat ∧ w = Config.scrubWord t.toNat m.scrubPos ∧ m.scrubOn = true ∧
    domainDark s (wordDomain t.toNat w) = false) ∧
  (∃ (stack : BitVec 1) (w : BitVec 64) (l : List (BitVec 64)) (s : State),
    (memType s (8 + stack.toNat)).writebacks = w :: l) ∧
  (∃ (stack : BitVec 1) (x : Nat × Nat × Nat × Nat) (l : List (Nat × Nat × Nat × Nat)) (m : MemType)
    (keep freed : List (BitVec 64 × Nat)) (t : State) (s : State),
    m = memType s (8 + stack.toNat) ∧ m.rowCopies = x :: l ∧
    (keep = m.spares.filter fun p => !decide (wordUnit p.1 = x.1 ∧ rowOf p.1 = (x.2.1, x.2.2.1))) ∧
    (freed = m.spares.filter fun p => decide (wordUnit p.1 = x.1 ∧ rowOf p.1 = (x.2.1, x.2.2.1))) ∧
    t = setMemType (8 + stack.toNat) { m with
      rowCopies := l, rows := m.rows ++ [x], spares := keep, used := m.used - BitVec.ofNat 16 freed.length } s) ∧
  (∃ (x : BitVec 256) (l : List (BitVec 256)) (s : State),
    s.mem.remapDue = x :: l ∧ s.boot.flash.remapLog ≠ [] ∧ s.boot.flash.remapLog.length < 16384) ∧
  (∃ (x : BitVec 256) (l : List (BitVec 256)) (s : State),
    s.mem.remapDue = x :: l ∧ s.boot.flash.remapLog = []) ∧
  (∃ (page : BitVec 10) (a : BitVec 4) (addr : BitVec 52) (w : BitVec 64) (t : State) (m : MemType) (s : State),
    s.mgmt.fw = .running ∧ tabGet 0 s.mem.ifetch page.toNat = 0 ∧ w = mgmtWord a addr ∧
    t = memUe 6 w { s with mem := { s.mem with ifetch := tabSet 0 s.mem.ifetch page.toNat 1 } } ∧ m = memType t 6) ∧
  (∃ (page : BitVec 10) (a : BitVec 4) (addr : BitVec 52) (w : BitVec 64) (n : Nat) (s : State),
    s.mgmt.fw = .running ∧ tabGet 0 s.mem.ifetch page.toNat = n + 1 ∧ w = mgmtWord a addr) ∧
  (∃ (stack : BitVec 1) (ch : BitVec 6) (restored : Bool) (t : State) (s : State),
    (stackOf s stack.toNat).st = .up ∧
    t = setStack stack.toNat { stackOf s stack.toNat with retrains := satAdd (stackOf s stack.toNat).retrains 1 }
    s) ∧
  (∃ (stack : BitVec 1) (s : State),
    4 ≤ ueSpread (stackOf s stack.toNat) (now s)) := by
  refine ⟨?_, ?_, ?_, ?_, ?_, ?_, ?_, ?_, ?_⟩
  · refine ⟨0#4, .ok, _, _, xlit, ?_, rfl, rfl, ?_, ?_⟩ <;> first | exact xlit_lit _ | rfl | decide +kernel
  · refine ⟨0#1, 5#64, [], setMemType 8 { memType base 8 with writebacks := [5] } base, ?_⟩ <;> first | decide +kernel | rfl
  · refine ⟨0#1, (0, 0, 0, 0), [], _, _, _, _, setMemType 8 { memType base 8 with rowCopies := [(0, 0, 0, 0)] } base,
      rfl, ?_, rfl, rfl, rfl⟩ <;> first | rfl | decide +kernel
  · refine ⟨5#256, [],
      { base with
        mem := { base.mem with remapDue := [5] },
        boot := { base.boot with flash := { base.boot.flash with remapLog := [7] } } },
      ?_, ?_, ?_⟩ <;> first | decide +kernel | rfl
  · refine ⟨5#256, [], { base with mem := { base.mem with remapDue := [5] } }, ?_, ?_⟩ <;> first | decide +kernel | rfl
  · refine ⟨0#10, 0#4, 0#52, _, _, _, base, ?_, ?_, rfl, rfl, rfl⟩ <;> first | decide +kernel | rfl
  · refine ⟨0#10, 0#4, 0#52, _, 0, { base with mem := { base.mem with ifetch := [(0, 1)] } }, ?_, ?_, rfl⟩ <;> first | decide +kernel | rfl
  · refine ⟨0#1, 0#6, false, _, base, ?_, rfl⟩ <;> first | decide +kernel | rfl
  · refine ⟨0#1, setStack 0 { stackOf base 0 with ues := [(0, 0), (1, 0), (2, 0), (3, 0)] } base, ?_⟩ <;> decide +kernel

/-- The hypotheses of every clause of `Obligations.FaultEventsAct` are met. -/
theorem wit_FaultEventsAct :
  (∃ (b : BitVec 5) (c : BitVec 8) (src : BitVec 16) (detail : BitVec 64) (s : State),
    faultTable.any (fun r => r.1 == b.toNat * 256 + c.toNat) = true ∧ b ≠ 15) ∧
  (∃ (x : LogRec) (l : List LogRec) (s : State),
    s.fault.logDue = x :: l ∧ s.fault.log.length < 65536 ∧ lossOf x.data = none) ∧
  (∃ (b : BitVec 5) (c : BitVec 8) (k : Nat) (t : State) (s : State),
    k = b.toNat * 256 + c.toNat ∧ (faultRec s.fault k).isolated = true ∧ (faultCfg s.fault k).autoExit = true ∧
    (faultRec s.fault k).sources.any autoKind = true ∧ s.fault.safeStop = false ∧
    (faultRec s.fault k).recoveries.toNat < (faultCfg s.fault k).maxRecover.toNat ∧
    t = reach (quietEnd (faultCfg s.fault k) (faultRec s.fault k)) s) ∧
  (∃ (b : BitVec 5) (c : BitVec 8) (k : Nat) (t : State) (s : State),
    k = b.toNat * 256 + c.toNat ∧ (faultRec s.fault k).isolated = true ∧ (faultCfg s.fault k).autoExit = true ∧
    (faultRec s.fault k).sources.any autoKind = true ∧ s.fault.safeStop = false ∧
    (faultCfg s.fault k).maxRecover.toNat ≤ (faultRec s.fault k).recoveries.toNat ∧
    (faultRec s.fault k).exhausted = false ∧ t = reach (quietEnd (faultCfg s.fault k) (faultRec s.fault k)) s) ∧
  (∃ (b : BitVec 5) (c : BitVec 8) (s : State),
    b.toNat < 20 ∧ c ≠ 0) ∧
  (∃ (k : Nat) (x : FaultRec) (s : State),
    x = faultRec s.fault k ∧ x.isolated = false ∧ (x.valid = false ∨ x.lastFull ≠ s.tele.time ∨ x.clkCount = 0)) ∧
  (∃ (k : Nat) (x : FaultRec) (s : State),
    x = faultRec s.fault k ∧ x.isolated = false ∧ x.valid = true ∧ x.lastFull = s.tele.time ∧ x.clkCount ≠ 0) ∧
  (∃ (k : Nat) (s : State),
    (faultRec s.fault k).isolated = true) ∧
  (∃ (t : Nat) (m : MemType) (w : BitVec 64) (n : Nat) (s : State),
    s.mem.inj = .armed ∧ now s < s.mem.injUntil.toNat ∧ t = s.mem.injType.toNat ∧ m = memType s t ∧
    w = injWord s ∧ n = maskCount t s.mem.injMask) ∧
  (∃ (s : State),
    s.mem.inj = .armed ∧ s.mem.injUntil.toNat ≤ now s) ∧
  (∃ (t : State) (s : State),
    s.mem.inj = .armed ∧ t = reach s.mem.injUntil.toNat s) := by
  refine ⟨?_, ?_, ?_, ?_, ?_, ?_, ?_, ?_, ?_, ?_, ?_⟩
  · refine ⟨0#5, 1#8, 0#16, 0#64, base, ?_, ?_⟩ <;> first | decide +kernel | rfl
  · refine ⟨{ stamp := 1, data := 0, serial := 0 }, [],
      { base with fault := { base.fault with logDue := [{ stamp := 1, data := 0, serial := 0 }] } }, ?_, ?_, ?_⟩ <;> first | decide +kernel | rfl
  · refine ⟨0#5, 16#8, _, _, xisolated, rfl, ?_, ?_, ?_, ?_, ?_, rfl⟩ <;> first | decide +kernel | rfl
  · refine ⟨0#5, 16#8, _, _,
      { xisolated with
        fault := setFaultRec xisolated.fault 16 { faultRec xisolated.fault 16 with recoveries := 3 } },
      rfl, ?_, ?_, ?_, ?_, ?_, ?_, rfl⟩ <;> first | decide +kernel | rfl
  · refine ⟨0#5, 1#8, base, ?_, ?_⟩ <;> first | decide +kernel | rfl
  · refine ⟨0, _, base, rfl, ?_, ?_⟩ <;> first | decide +kernel | rfl
  · refine ⟨5, _, xclk, rfl, ?_, ?_, ?_, ?_⟩ <;> first | decide +kernel | rfl
  · refine ⟨16, xisolated, ?_⟩ <;> first | decide +kernel | rfl
  · refine ⟨_, _, _, _, xarmed, ?_, ?_, rfl, rfl, rfl, rfl⟩ <;> first | decide +kernel | rfl
  · refine ⟨{ xarmed with mem := { xarmed.mem with injUntil := 0 } }, ?_, ?_⟩ <;> first | decide +kernel | rfl
  · refine ⟨_, xarmed, ?_, rfl⟩ <;> first | decide +kernel | rfl

/-- The hypotheses of every clause of `Obligations.FaultCommandsAct` are met. -/
theorem wit_FaultCommandsAct :
  (∃ (r : Req) (b c : BitVec 8) (x : FaultRec) (s : State),
    serves 0x0B01 false r (wBytes 1 b ++ wBytes 1 c) s ∧ b.toNat ≤ 19 ∧ c ≠ 0 ∧
    x = faultRec s.fault (b.toNat * 256 + c.toNat)) ∧
  (∃ (r : Req) (f n : BitVec 16) (l : List Nat × Nat) (s : State),
    serves 0x0B02 false r (wBytes 2 f ++ wBytes 2 n) s ∧ 1 ≤ n.toNat ∧ n.toNat ≤ 256 ∧
    l = listFrom s n.toNat f.toNat) ∧
  (∃ (r : Req) (b c : BitVec 8) (s : State),
    serves 0x0B03 false r (wBytes 1 b ++ wBytes 1 c) s ∧ b.toNat ≤ 19 ∧ c ≠ 0 ∧
    (faultRec s.fault (b.toNat * 256 + c.toNat)).isolated = false) ∧
  (∃ (r : Req) (b c : BitVec 8) (s : State),
    serves 0x0B04 false r (wBytes 1 b ++ wBytes 1 c) s ∧ b.toNat ≤ 19 ∧ c ≠ 0 ∧
    (faultRec s.fault (b.toNat * 256 + c.toNat)).isolated = true) ∧
  (∃ (r : Req) (b c : BitVec 8) (w : BitVec 64) (s : State),
    serves 0x0B05 false r (wBytes 1 b ++ wBytes 1 c ++ zeros 2 ++ wBytes 8 w) s ∧ b.toNat ≤ 19 ∧ c ≠ 0 ∧
    w.toNat % 8 ≤ 4 ∧ w.toNat / 8 % 8 ≤ 4) ∧
  (∃ (r : Req) (i : BitVec 32) (n : BitVec 16) (s : State),
    serves 0x0B06 false r (wBytes 4 i ++ wBytes 2 n) s ∧ i.toNat + n.toNat ≤ s.fault.log.length ∧ 1 ≤ n.toNat ∧
    n.toNat ≤ 64) ∧
  (∃ (r : Req) (type mask : BitVec 8) (unit timeout : BitVec 16) (addr : BitVec 64) (s : State),
    serves 0x0F01 false r (wBytes 1 type ++ wBytes 1 mask ++ zeros 2 ++ wBytes 2 unit ++ wBytes 2 timeout ++
    wBytes 8 addr) s ∧
    type.toNat ≤ 9 ∧ unit.toNat < 4096 ∧ addr.toNat < 2 ^ 52 ∧ s.mem.inj ≠ .armed) ∧
  (∃ (r : Req) (b c : BitVec 8) (src : BitVec 16) (detail : BitVec 64) (s : State),
    serves 0x0F02 false r (wBytes 1 b ++ wBytes 1 c ++ wBytes 2 src ++ wBytes 8 detail) s ∧ b.toNat ≤ 19 ∧ c ≠ 0) ∧
  (∃ (r : Req) (s : State),
    serves 0x0F03 false r [] s) := by
  refine ⟨?_, ?_, ?_, ?_, ?_, ?_, ?_, ?_, ?_⟩
  · refine ⟨r0, 0#8, 1#8, _, asked 0x0B01 (wBytes 1 0#8 ++ wBytes 1 1#8) base, asked_serves ?_, ?_, ?_, rfl⟩ <;> first | decide +kernel | rfl
  · refine ⟨r0, 0#16, 4#16, _, asked 0x0B02 (wBytes 2 0#16 ++ wBytes 2 4#16) base, asked_serves ?_, ?_, ?_, rfl⟩ <;> first | decide +kernel | rfl
  · refine ⟨r0, 0#8, 1#8, asked 0x0B03 (wBytes 1 0#8 ++ wBytes 1 1#8) base, asked_serves ?_, ?_, ?_, ?_⟩ <;> first | decide +kernel | rfl
  · refine ⟨r0, 0#8, 16#8, asked 0x0B04 (wBytes 1 0#8 ++ wBytes 1 16#8) xisolated, asked_serves ?_, ?_, ?_, ?_⟩ <;> first | decide +kernel | rfl
  · refine ⟨r0, 0#8, 1#8, 0#64, asked 0x0B05 (wBytes 1 0#8 ++ wBytes 1 1#8 ++ zeros 2 ++ wBytes 8 0#64) base,
      asked_serves ?_, ?_, ?_, ?_, ?_⟩ <;> first | decide +kernel | rfl
  · refine ⟨r0, 0#32, 1#16,
      asked 0x0B06 (wBytes 4 0#32 ++ wBytes 2 1#16)
      ({ base with fault := { base.fault with log := [{ stamp := 1, data := 0, serial := 0 }] } }),
      asked_serves ?_, ?_, ?_, ?_⟩ <;> first | decide +kernel | rfl
  · refine ⟨r0, 0#8, 0#8, 0#16, 0#16, 0#64,
      asked 0x0F01 (wBytes 1 0#8 ++ wBytes 1 0#8 ++ zeros 2 ++ wBytes 2 0#16 ++ wBytes 2 0#16 ++ wBytes 8 0#64)
      base,
      asked_serves ?_, ?_, ?_, ?_, ?_⟩ <;> first | decide +kernel | rfl
  · refine ⟨r0, 0#8, 1#8, 0#16, 0#64,
      asked 0x0F02 (wBytes 1 0#8 ++ wBytes 1 1#8 ++ wBytes 2 0#16 ++ wBytes 8 0#64) base, asked_serves ?_, ?_, ?_⟩ <;> first | decide +kernel | rfl
  · refine ⟨r0, asked 0x0F03 [] base, asked_serves ?_⟩ <;> first | decide +kernel | rfl

/-- The hypotheses of every clause of `Obligations.RegistersAreWritten` are met. -/
theorem wit_RegistersAreWritten :
  (∃ (o : BitVec 26) (v : BitVec 512) (s : State),
    o.toNat % 8 = 0) ∧
  (∃ (o : BitVec 26) (v : BitVec 512) (s : State),
    o.toNat % 8 = 0) ∧
  (∃ (o : BitVec 26) (v : BitVec 512) (s : State),
    o.toNat % 8 = 4) ∧
  (∃ (o : BitVec 26) (v : BitVec 512) (s : State),
    o.toNat % 8 ≠ 0) ∧
  (∃ (o : BitVec 26) (v : BitVec 512) (s : State),
    o.toNat % 4 ≠ 0) ∧
  (∃ (o : BitVec 26) (k : BitVec 7) (v : BitVec 512) (s : State),
    bufferArea o.toNat = true ∧ (k = 1 ∨ k = 2 ∨ k = 16 ∨ k = 32 ∨ k = 64) ∧ o.toNat % k.toNat = 0) ∧
  (∃ (o : BitVec 26) (k : BitVec 7) (v : BitVec 512) (s : State),
    (bufferArea o.toNat = false ∨ o.toNat % k.toNat ≠ 0) ∧ k ≠ 4 ∧ k ≠ 8) := by
  refine ⟨?_, ?_, ?_, ?_, ?_, ?_, ?_⟩
  · refine ⟨8#26, 0#512, base, ?_⟩ <;> first | decide +kernel | rfl
  · refine ⟨8#26, 0#512, base, ?_⟩ <;> first | decide +kernel | rfl
  · refine ⟨12#26, 0#512, base, ?_⟩ <;> first | decide +kernel | rfl
  · refine ⟨4#26, 0#512, base, ?_⟩ <;> first | decide +kernel | rfl
  · refine ⟨2#26, 0#512, base, ?_⟩ <;> first | decide +kernel | rfl
  · refine ⟨0x1000400#26, 64#7, 0#512, base, ?_, ?_, ?_⟩ <;> first | decide +kernel | rfl
  · refine ⟨1#26, 2#7, 0#512, base, ?_, ?_, ?_⟩ <;> first | decide +kernel | rfl

/-- The hypotheses of every clause of `Obligations.DomainsAct` are met. -/
theorem wit_DomainsAct :
  (∃ (d : BitVec 8) (n : Nat) (t : State) (s : State),
    n = d.toNat ∧ n ≤ 219 ∧ running s = true ∧ (domain s n).st = .on ∧ (domain s n).step = 0 ∧
    (domain s n).auto = true ∧ lowestOf s n ≠ 0 ∧ mayIdle s n = true ∧
    t = reach ((together n).foldl (fun t x => max t (idleEnd s x)) 0) s) ∧
  (∃ (d : BitVec 8) (n : Nat) (t u : State) (s : State),
    n = d.toNat ∧ n ≤ 219 ∧ running s = true ∧ (domain s n).st = .on ∧ (domain s n).step = 0 ∧
    (domain s n).auto = true ∧ lowestOf s n ≠ 0 ∧ mayIdle s n = true ∧
    t = reach ((together n).foldl (fun t x => max t (idleEnd s x)) 0) s ∧ u = doubleMult (groupOf n) t) ∧
  (∃ (d : BitVec 8) (s : State),
    d.toNat ≤ 219 ∧ running s = true) ∧
  (∃ (d : Nat) (s : State),
    (domain s d).st ≠ .on ∧ (domain s d).step = 0 ∧ (domain s d).dead = false ∧ groupOf d ≠ 6 ∧ groupOf d ≠ 4) ∧
  (∃ (b : Nat) (s : State),
    running s = true ∧ freeIn s (banksOn s) < 32768 ∧
    (List.range 16).find? (fun b => decide ((domain s (170 + b)).st = .off)) = some b) ∧
  (∃ (d : BitVec 8) (bad : BitVec 16) (s : State),
    d.toNat ≤ 219 ∧ (domain s d.toNat).step = 1) ∧
  (∃ (d : BitVec 8) (bad : BitVec 16) (s : State),
    d.toNat ≤ 219 ∧ (domain s d.toNat).step = 2) ∧
  (∃ (d : BitVec 8) (bad : BitVec 16) (t : State) (s : State),
    d.toNat ≤ 219 ∧ (domain s d.toNat).step = 3 ∧ groupOf d.toNat ≠ 4 ∧
    (t = if (domain s d.toNat).fromRet = true then checkSigs d.toNat bad s else s)) ∧
  (∃ (d : BitVec 8) (bad : BitVec 16) (s : State),
    d.toNat ≤ 219 ∧ (domain s d.toNat).step = 4 ∧ groupOf d.toNat ≠ 4) ∧
  (∃ (d : BitVec 8) (bad : BitVec 16) (t u : State) (s : State),
    d.toNat ≤ 219 ∧ (domain s d.toNat).step = 3 ∧ groupOf d.toNat = 4 ∧
    (t = if (domain s d.toNat).fromRet = true then checkSigs d.toNat bad s else s) ∧
    u = setDomain d.toNat { domain t d.toNat with step := 4 } t) ∧
  (∃ (d : BitVec 8) (bad : BitVec 16) (s : State),
    d.toNat ≤ 219 ∧ (domain s d.toNat).step = 0) ∧
  (∃ (d : BitVec 8) (t : State) (s : State),
    (domain s d.toNat).reload = true ∧ (domain s d.toNat).st = .on ∧ d.toNat ≠ 190 ∧
    t = setDomain d.toNat { domain s d.toNat with reload := false } s) ∧
  (∃ (d : BitVec 8) (n : Nat) (v : Domain) (s : State),
    n = d.toNat ∧ n ≤ 219 ∧ v = domain s n ∧ v.step ≠ 0 ∧ v.misses = 0) ∧
  (∃ (d : BitVec 8) (s : State),
    d.toNat ≤ 219 ∧ (domain s d.toNat).step ≠ 0 ∧ (domain s d.toNat).misses ≠ 0) ∧
  (∃ (d : BitVec 8) (t u : State) (s : State),
    d = 190 ∧ (domain s 190).reload = true ∧ (domain s 190).st = .on ∧
    t = trafSync (setDomain 190 { domain s 190 with reload := false } s) ∧
    u = { t with
      traffic :=
        { t.traffic with meters := tabMap Meter.init (fun b m => fullMeter (traf t b) m) t.traffic.meters } }) := by
  refine ⟨?_, ?_, ?_, ?_, ?_, ?_, ?_, ?_, ?_, ?_, ?_, ?_, ?_, ?_, ?_⟩
  · refine ⟨0#8, _, _, xlit, rfl, ?_, ?_, ?_, ?_, ?_, ?_, ?_, rfl⟩ <;> decide +kernel
  · refine ⟨0#8, _, _, _, xlit, rfl, ?_, ?_, ?_, ?_, ?_, ?_, ?_, rfl, rfl⟩ <;> decide +kernel
  · refine ⟨0#8, base, ?_, ?_⟩ <;> first | decide +kernel | rfl
  · refine ⟨0, setDomain 0 { domain base 0 with st := .off, step := 0 } base, ?_, ?_, ?_, ?_, ?_⟩ <;> first | decide +kernel | rfl
  · refine ⟨0, xbanks, ?_, ?_, ?_⟩ <;> decide +kernel
  · refine ⟨0#8, 0#16, setDomain 0 { domain base 0 with st := .off, step := 1 } base, ?_, ?_⟩ <;> first | decide +kernel | rfl
  · refine ⟨0#8, 0#16, setDomain 0 { domain base 0 with st := .off, step := 2 } base, ?_, ?_⟩ <;> first | decide +kernel | rfl
  · refine ⟨0#8, 0#16, _, setDomain 0 { domain base 0 with st := .off, step := 3 } base, ?_, ?_, ?_, rfl⟩ <;> first | rfl | decide +kernel
  · refine ⟨0#8, 0#16, setDomain 0 { domain base 0 with st := .off, step := 4 } base, ?_, ?_, ?_⟩ <;> first | decide +kernel | rfl
  · refine ⟨168#8, 0#16, _, _, setDomain 168 { domain base 168 with st := .off, step := 3 } base, ?_, ?_, ?_, rfl, rfl⟩ <;> first | rfl | decide +kernel
  · refine ⟨0#8, 0#16, base, ?_, ?_⟩ <;> first | decide +kernel | rfl
  · refine ⟨186#8, _, setDomain 186 { domain base 186 with st := .on, reload := true } base, ?_, ?_, ?_, rfl⟩ <;> first | decide +kernel | rfl
  · refine ⟨0#8, _, _, setDomain 0 { domain base 0 with st := .off, step := 2, misses := 0 } base, rfl, ?_, rfl, ?_, ?_⟩ <;> first | decide +kernel | rfl
  · refine ⟨0#8, setDomain 0 { domain base 0 with st := .off, step := 2, misses := 1 } base, ?_, ?_, ?_⟩ <;> first | decide +kernel | rfl
  · refine ⟨190#8, _, _, setDomain 190 { domain base 190 with st := .on, reload := true } base, ?_, ?_, ?_, rfl, rfl⟩ <;> first | decide +kernel | rfl

/-- The hypotheses of every clause of `Obligations.EntriesAndWakesAct` are met. -/
theorem wit_EntriesAndWakesAct :
  (∃ (s : State),
    running s = true ∧ s.pmu.dozeAuto = true) ∧
  (∃ (n : Nat) (s : State),
    s.pmu.entering = true ∧ n = s.pmu.stage.toNat ∧ n ≠ 4 ∧ n ≠ 12 ∧ n ≠ 13) ∧
  (∃ (s : State),
    s.pmu.entering = true ∧ s.pmu.stage = 13) ∧
  (∃ (s : State),
    s.pmu.entering = true ∧ s.pmu.stage = 4) ∧
  (∃ (n : Nat) (d : Nat) (s : State),
    (stageDomains n).find? (fun d => refuses s d) = some d) ∧
  (∃ (n : Nat) (s t : State),
    (stageDomains n).find? (fun d => refuses s d) = none ∧ n ≠ 11 ∧ t = stopStage n s) ∧
  (∃ (e : BitVec 64) (t : State) (s : State),
    s.pmu.stage12 = some e ∧ s.pmu.entering = true ∧ s.pmu.stage = 12 ∧ t = reach e.toNat s) ∧
  (∃ (src : BitVec 4) (i : BitVec 6) (s : State),
    src ≠ 2 ∧ src ≠ 3 ∧ wakeState s src.toNat = true) ∧
  (∃ (i : BitVec 6) (s : State),
    bit s.pmu.detectMask i.toNat = true ∧ wakeState s 3 = true) ∧
  (∃ (pin : BitVec 4) (level : Bool) (t : State) (s : State),
    bit s.boot.gpioIn pin.toNat ≠ level ∧
    t = { s with boot := { s.boot with gpioIn := setFld s.boot.gpioIn pin.toNat 1 (b1 level) } }) ∧
  (∃ (s : State),
    s.pmu.alarm ≠ 0 ∧ now s ≤ s.pmu.alarm.toNat) ∧
  (∃ (src i : Nat) (s : State),
    bit s.pmu.sources src = false) ∧
  (∃ (src i : Nat) (s : State),
    bit s.pmu.sources src = true ∧ s.pmu.entering = true) ∧
  (∃ (src i : Nat) (s : State),
    bit s.pmu.sources src = true ∧ s.pmu.entering = false ∧ (s.pmu.st = .doze ∨ s.pmu.st = .standby) ∧
    s.pmu.exiting = false) := by
  refine ⟨?_, ?_, ?_, ?_, ?_, ?_, ?_, ?_, ?_, ?_, ?_, ?_, ?_, ?_⟩
  · refine ⟨{ base with pmu := { base.pmu with dozeAuto := true } }, ?_, ?_⟩ <;> first | decide +kernel | rfl
  · refine ⟨_, { base with pmu := { base.pmu with entering := true, stage := 1 } }, ?_, rfl, ?_, ?_, ?_⟩ <;> first | decide +kernel | rfl
  · refine ⟨{ base with pmu := { base.pmu with entering := true, stage := 13 } }, ?_, ?_⟩ <;> first | decide +kernel | rfl
  · refine ⟨{ base with pmu := { base.pmu with entering := true, stage := 4 } }, ?_, ?_⟩ <;> first | decide +kernel | rfl
  · refine ⟨12, 218,
      { base with
        mgmt := { base.mgmt with
            mctpWait := [{ src := .i3c 0, eid := 8, mtag := 0, opcode := 1, tag := 7, payload := [] }] } },
      ?_⟩ <;> decide +kernel
  · refine ⟨1, base, _, ?_, ?_, rfl⟩ <;> decide +kernel
  · refine ⟨9#64, _, { base with pmu := { base.pmu with entering := true, stage := 12, stage12 := some 9 } }, ?_, ?_,
      ?_, rfl⟩ <;> first | decide +kernel | rfl
  · refine ⟨4#4, 0#6, base, ?_, ?_, ?_⟩ <;> first | decide +kernel | rfl
  · refine ⟨0#6, { base with pmu := { base.pmu with detectMask := 1 } }, ?_, ?_⟩ <;> first | decide +kernel | rfl
  · refine ⟨0#4, true, _, base, ?_, rfl⟩ <;> first | decide +kernel | rfl
  · refine ⟨{ base with pmu := { base.pmu with alarm := 1000 } }, ?_, ?_⟩ <;> first | decide +kernel | rfl
  · refine ⟨0, 0, { base with pmu := { base.pmu with sources := 0 } }, ?_⟩ <;> first | decide +kernel | rfl
  · refine ⟨0, 0, { base with pmu := { base.pmu with sources := 255, entering := true } }, ?_, ?_⟩ <;> first | decide +kernel | rfl
  · refine ⟨0, 0, { base with pmu := { base.pmu with sources := 255, st := .doze } }, ?_, ?_, ?_, ?_⟩ <;> first | decide +kernel | rfl

/-- The hypotheses of every clause of `Obligations.RailsAct` are met. -/
theorem wit_RailsAct :
  (∃ (rail : BitVec 2) (s : State),
    (railOf s rail.toNat).change ≠ none ∧ (railOf s rail.toNat).failed = false) ∧
  (∃ (rail : BitVec 2) (v : Bool) (s : State),
    (railOf s rail.toNat).change ≠ none ∧ (railOf s rail.toNat).failed = false) ∧
  (∃ (k : Nat) (s : State),
    s.pmu.exiting = false) ∧
  (∃ (rail : BitVec 2) (e : BitVec 64) (n : Nat) (s : State),
    (railOf s rail.toNat).change = some (e, n) ∧ (railOf s rail.toNat).failed = false) ∧
  (∃ (rail : BitVec 2) (e : BitVec 64) (n : Nat) (t : State) (s : State),
    (railOf s rail.toNat).change = some (e, n) ∧ (railOf s rail.toNat).failed = true ∧ s.pmu.exiting = true ∧
    t = reach (e.toNat + msTicks) s) ∧
  (∃ (rail : BitVec 2) (vo io : BitVec 16) (v : Rail) (s : State),
    s.pmu.st = .run ∧ v = railOf s rail.toNat ∧ v.target ≠ 0 ∧
    100 * (v.target.toNat - vo.toNat + (vo.toNat - v.target.toNat)) ≤ 3 * v.target.toNat) ∧
  (∃ (rail : BitVec 2) (vo io : BitVec 16) (v : Rail) (s : State),
    s.pmu.st = .run ∧ v = railOf s rail.toNat ∧ v.target ≠ 0 ∧
    3 * v.target.toNat < 100 * (v.target.toNat - vo.toNat + (vo.toNat - v.target.toNat)) ∧ v.off3 = 2) := by
  refine ⟨?_, ?_, ?_, ?_, ?_, ?_, ?_⟩
  · refine ⟨0#2, setRail 0 { railOf base 0 with change := some (0, 0) } base, ?_, ?_⟩ <;> first | decide +kernel | rfl
  · refine ⟨0#2, false, setRail 0 { railOf base 0 with change := some (0, 0) } base, ?_, ?_⟩ <;> first | decide +kernel | rfl
  · refine ⟨0, base, ?_⟩ <;> first | decide +kernel | rfl
  · refine ⟨0#2, 0#64, 0, setRail 0 { railOf base 0 with change := some (0, 0) } base, ?_, ?_⟩ <;> first | decide +kernel | rfl
  · refine ⟨0#2, 0#64, 0, _,
      setRail 0 { railOf base 0 with change := some (0, 0), failed := true }
      { base with pmu := { base.pmu with exiting := true } },
      ?_, ?_, ?_, rfl⟩ <;> first | decide +kernel | rfl
  · refine ⟨0#2, 800#16, 0#16, _, setRail 0 { railOf base 0 with target := 800 } base, ?_, rfl, ?_, ?_⟩ <;> first | decide +kernel | rfl
  · refine ⟨0#2, 700#16, 0#16, _, setRail 0 { railOf base 0 with target := 800, off3 := 2 } base, ?_, rfl, ?_, ?_, ?_⟩ <;> first | decide +kernel | rfl

/-- The hypotheses of every clause of `Obligations.PowerCommandsAct` are met. -/
theorem wit_PowerCommandsAct :
  (∃ (r : Req) (s : State),
    serves 0x0C01 false r [] s) ∧
  (∃ (r : Req) (t : BitVec 8) (s : State),
    serves 0x0C02 false r (wBytes 1 t) s ∧ (t = 1 ∨ t = 2) ∧ s.fault.safeStop = false ∧
    s.mgmt.tickets.length < 256 ∧ s.pmu.rolling = false) ∧
  (∃ (r : Req) (s : State),
    serves 0x0C02 false r (wBytes 1 0#8) s ∧ s.fault.safeStop = false) ∧
  (∃ (r : Req) (d : BitVec 16) (s : State),
    serves 0x0C03 false r (wBytes 2 d) s ∧ d.toNat ≤ 219) ∧
  (∃ (r : Req) (d : BitVec 16) (g lowest auto : BitVec 8) (us : BitVec 32) (l : List Nat) (t : State)
    (s : State),
    serves 0x0C04 false r (wBytes 2 d ++ wBytes 1 g ++ wBytes 1 lowest ++ wBytes 1 auto ++ zeros 3 ++ wBytes 4 us)
    s ∧
    timerDomains d g = some l ∧ (l.any fun d => decide (groupLowest (groupOf d) < lowest.toNat)) = false ∧
    auto.toNat ≤ 1 ∧ 1 ≤ us.toNat ∧ us.toNat ≤ 10000000 ∧ t = l.foldl (fun s d => setPower d lowest auto us s) s) ∧
  (∃ (r : Req) (wm dm al : BitVec 64) (da : BitVec 8) (av : BitVec 16) (s : State),
    serves 0x0C05 false r (wBytes 8 wm ++ wBytes 8 dm ++ wBytes 8 al ++ wBytes 1 da ++ zeros 7 ++ wBytes 2 av) s ∧
    da.toNat ≤ 1) := by
  refine ⟨?_, ?_, ?_, ?_, ?_, ?_⟩
  · refine ⟨r0, asked 0x0C01 [] base, asked_serves ?_⟩ <;> first | decide +kernel | rfl
  · refine ⟨r0, 1#8, asked 0x0C02 (wBytes 1 1#8) base, asked_serves ?_, ?_, ?_, ?_, ?_⟩ <;> first | decide +kernel | rfl
  · refine ⟨r0, asked 0x0C02 (wBytes 1 0#8) base, asked_serves ?_, ?_⟩ <;> first | decide +kernel | rfl
  · refine ⟨r0, 0#16, asked 0x0C03 (wBytes 2 0#16) base, asked_serves ?_, ?_⟩ <;> first | decide +kernel | rfl
  · refine ⟨r0, 0#16, 0#8, 0#8, 0#8, 5#32, [0], _,
      asked 0x0C04 (wBytes 2 0#16 ++ wBytes 1 0#8 ++ wBytes 1 0#8 ++ wBytes 1 0#8 ++ zeros 3 ++ wBytes 4 5#32)
      base,
      asked_serves ?_, ?_, ?_, ?_, ?_, ?_, rfl⟩ <;> first | decide +kernel | rfl
  · refine ⟨r0, 0#64, 0#64, 0#64, 0#8, 0#16,
      asked 0x0C05 (wBytes 8 0#64 ++ wBytes 8 0#64 ++ wBytes 8 0#64 ++ wBytes 1 0#8 ++ zeros 7 ++ wBytes 2 0#16)
      base,
      asked_serves ?_, ?_⟩ <;> first | decide +kernel | rfl

end Sys2Proof.Tests
end

/-! Acknowledging a fault record (16 R380): what the operation `ackRec` does, what its two commands answer, and what the
next occurrence of the code finds. -/

namespace Sys2Proof.Machine

open Sys2Proof

/-! ## The record an acknowledgement leaves -/

/-- With no occurrence of the present clock nothing stays of the record but the conditions that last (R379, R380). -/
theorem ackedRec_of_no_occurrence_now {k : Nat} {s : State}
    (h : (faultRec s.fault k).valid = false ∨ (faultRec s.fault k).lastFull ≠ s.tele.time ∨
      (faultRec s.fault k).clkCount = 0) :
    ackedRec k s = { FaultRec.init with conds := (faultRec s.fault k).conds } := by
  have hnot : ¬((faultRec s.fault k).valid = true ∧ (faultRec s.fault k).lastFull = s.tele.time ∧
      (faultRec s.fault k).clkCount ≠ 0) := by
    rintro ⟨hvalid, hnow, hcount⟩
    rcases h with h | h | h
    · rw [h] at hvalid; cases hvalid
    · exact h hnow
    · exact hcount h
  exact if_neg hnot

/-- The occurrences of the present clock come after the acknowledgement: they alone make up the fresh record (R380). -/
theorem ackedRec_of_occurrence_now {k : Nat} {s : State} (hvalid : (faultRec s.fault k).valid = true)
    (hnow : (faultRec s.fault k).lastFull = s.tele.time) (hcount : (faultRec s.fault k).clkCount ≠ 0) :
    (ackedRec k s).valid = true ∧ (ackedRec k s).count = (faultRec s.fault k).clkCount ∧
    (ackedRec k s).source = src16 (faultRec s.fault k).clkSource ∧
    (ackedRec k s).detail = (faultRec s.fault k).clkDetail ∧ (ackedRec k s).cleared = false ∧
    (ackedRec k s).escalated = false ∧ (ackedRec k s).recoveries = 0 := by
  simp only [ackedRec]
  rw [if_pos ⟨hvalid, hnow, hcount⟩]
  exact ⟨rfl, rfl, rfl, rfl, rfl, rfl, rfl⟩

theorem faultRec_ackRec_same {k : Nat} {s : State} (h : (faultRec s.fault k).isolated = false) :
    faultRec (ackRec k s).fault k = ackedRec k s := by
  rw [ackRec_free h]
  exact faultRec_setFaultRec_same _ _ _

theorem faultRec_ackRec_other {j k : Nat} (h : j ≠ k) (s : State) :
    faultRec (ackRec k s).fault j = faultRec s.fault j := by
  unfold ackRec
  split
  · rfl
  · exact faultRec_setFaultRec_other h _ _

/-- Frame of an acknowledgement: nothing outside the records changes. -/
theorem ackRec_frame (k : Nat) (s : State) :
    ackRec k s = { s with fault := { s.fault with recs := (ackRec k s).fault.recs } } := by
  unfold ackRec
  split <;> rfl

theorem ackRec_settled {s : State} (k : Nat) (h : settled s) : settled (ackRec k s) := by
  rw [ackRec_frame]
  exact h

@[simp] theorem ackRec_tele (k : Nat) (s : State) : (ackRec k s).tele = s.tele := by rw [ackRec_frame]
@[simp] theorem ackRec_mgmt (k : Nat) (s : State) : (ackRec k s).mgmt = s.mgmt := by rw [ackRec_frame]

/-! ## The commands -/

theorem settled_of_serves {op : Nat} {maker : Bool} {r : Req} {p : List Byte} {s : State}
    (h : serves op maker r p s) : settled s := by
  obtain ⟨-, -, -, -, -, -, -, -, hs⟩ := h
  exact hs

theorem respond_settled {s : State} (r : Req) (op : Nat) (p : List Byte) (q : Reply) (h : settled s) :
    settled (respond r op p q s) := by
  rw [settled, respond_fault]
  exact h

/-- A served command answers its body's state and its reply as they are where the body leaves no reaction waiting. -/
theorem command_serves_settled {op : Nat} {r : Req} {p : List Byte} {s t : State} {q : Reply}
    (h : serves op false r p s) {body : State → Reply × State} (hb : body s = (q, t)) (hq : q.payload.length ≤ 8176)
    (ht : settled t) : command op false r p body s = .next (respond r op p q t) := by
  rw [command_serves h hb (fits r hq), settle_of_settled (respond_settled r op p q ht)]

/-- On a record that exists, a command on a record runs its action. -/
theorem recCommand_exists {block code : BitVec 8} (hblock : block.toNat < 20) (hcode : code ≠ 0)
    (f : Nat → State → Reply × State) (s : State) :
    recCommand block code f s = f (block.toNat * 256 + code.toNat) s :=
  if_neg (by rintro (h | h); exacts [absurd h (by omega), hcode h])

/-- A write of flt.rec.status.ack to a record that exists acknowledges it. -/
theorem exec_faultAckWrite {b : BitVec 5} {c : BitVec 8} {s : State} (hb : b.toNat < 20) (hc : c ≠ 0)
    (hs : settled s) : exec (.faultAckWrite b c) s = .next (ackRec (b.toNat * 256 + c.toNat) s) :=
  (if_pos ⟨hb, hc⟩).trans (fin_settled (ackRec_settled _ hs))

/-- FAULT_ACK of a record that isolates nothing acknowledges it, and answers the count it discards. -/
theorem exec_faultAck_free {r : Req} {b c : BitVec 8} {k : Nat} {s : State}
    (h : serves 0x0B03 false r (wBytes 1 b ++ wBytes 1 c) s) (hb : b.toNat < 20) (hc : c ≠ 0)
    (hk : k = b.toNat * 256 + c.toNat) (hfree : (faultRec s.fault k).isolated = false) :
    exec (.faultAck r b c) s = .next (respond r 0x0B03 (wBytes 1 b ++ wBytes 1 c)
      (ok (wBytes 4 ((faultRec s.fault k).count - (ackedRec k s).count))) (ackRec k s)) := by
  refine command_serves_settled h ?_ ((wBytes_length 4 _).trans_le (by decide))
    (ackRec_settled k (settled_of_serves h))
  rw [recCommand_exists hb hc, ← hk]
  simp only [hfree, Bool.false_eq_true, if_false]

/-- FAULT_ACK of a record that isolates a source answers RECORD_ISOLATED and does nothing else (Table 16-7). -/
theorem exec_faultAck_isolated {r : Req} {b c : BitVec 8} {s : State}
    (h : serves 0x0B03 false r (wBytes 1 b ++ wBytes 1 c) s) (hb : b.toNat < 20) (hc : c ≠ 0)
    (hiso : (faultRec s.fault (b.toNat * 256 + c.toNat)).isolated = true) :
    exec (.faultAck r b c) s = .next (respond r 0x0B03 (wBytes 1 b ++ wBytes 1 c) (rep 0x0B02) s) := by
  refine command_serves_settled h ?_ (Nat.zero_le _) (settled_of_serves h)
  rw [recCommand_exists hb hc]
  simp only [hiso, if_true]

/-! ## An occurrence after the acknowledgement -/

/-- An occurrence on an invalid record that isolates nothing is the first cause of a fresh record (R378). -/
theorem occur_first_cause {k : Nat} {f : FaultState} (hvalid : (faultRec f k).valid = false)
    (hiso : (faultRec f k).isolated = false) (inj : Bool) (src : BitVec 32) (d t : BitVec 64) :
    (faultRec (occur k inj src d t f).1 k).valid = true ∧ (faultRec (occur k inj src d t f).1 k).count = 1 ∧
    (faultRec (occur k inj src d t f).1 k).source = src16 src ∧ (faultRec (occur k inj src d t f).1 k).detail = d ∧
    (faultRec (occur k inj src d t f).1 k).first = t.setWidth 48 := by
  have hexit : exitDue (faultCfg f k) t (faultRec f k) = false := by simp [exitDue, hiso]
  rw [occur_rec, hexit]
  simp [occurRec, hvalid]

/-- With room in the event queue a raised code leaves the records as its occurrence does. -/
theorem raiseWith_fault_of_room {s : State} (hroom : s.mgmt.events.length < 4095) (inj : Bool) (b c : Nat)
    (src : BitVec 32) (d : BitVec 64) :
    (raiseWith inj b c src d s).fault = (occur (b * 256 + c) inj src d s.tele.time s.fault).1 := by
  unfold raiseWith
  simp only
  split
  · exact congrArg State.fault (queueEvent_room (by exact hroom))
  · rfl

/-- Settles O8: `ackRec_frame` and the two outcomes of `ackedRec` for both commands, and the first cause of the record
that the acknowledgement left invalid. -/
theorem acknowledgementFreesTheRecord : Obligations.AcknowledgementFreesTheRecord := by
  unfold Obligations.AcknowledgementFreesTheRecord
  refine ⟨?write, ?writeSameClock, ?command, ?writeIsolated, ?commandIsolated, ?nextOccurrence⟩
  case write =>
    rintro b c _ s hb hc rfl hs hfree hnone
    refine ⟨_, exec_faultAckWrite hb hc hs, ?_⟩
    rw [faultRec_ackRec_same hfree, ackedRec_of_no_occurrence_now hnone]
    exact ⟨rfl, rfl, rfl, rfl, rfl, fun j hj => faultRec_ackRec_other hj s, ackRec_frame _ s⟩
  case writeSameClock =>
    rintro b c _ s hb hc rfl hs hfree hvalid hnow hcount
    obtain ⟨h1, h2, h3, h4, h5, h6, h7⟩ := ackedRec_of_occurrence_now hvalid hnow hcount
    refine ⟨_, exec_faultAckWrite hb hc hs, ?_⟩
    rw [faultRec_ackRec_same hfree]
    exact ⟨h1, h2, h3, h4, h5, h6, h7, fun j hj => faultRec_ackRec_other hj s, ackRec_frame _ s⟩
  case command =>
    rintro r b c _ s hserves hb hc rfl hfree hnone
    refine ⟨_, exec_faultAck_free hserves hb hc rfl hfree, ?_⟩
    rw [respond_fault, faultRec_ackRec_same hfree, ackedRec_of_no_occurrence_now hnone]
    exact ⟨rfl, rfl, rfl, rfl, rfl, fun j hj => faultRec_ackRec_other hj s⟩
  case writeIsolated =>
    intro b c s hb hc hs hiso
    rw [exec_faultAckWrite hb hc hs, ackRec_isolated hiso]
  case commandIsolated =>
    intro r b c s hserves hb hc hiso
    exact exec_faultAck_isolated hserves hb hc hiso
  case nextOccurrence =>
    intro b c src detail s _ hroom hfree hnone
    have hrec := (faultRec_ackRec_same hfree).trans (ackedRec_of_no_occurrence_now hnone)
    have hroom' : (ackRec (b * 256 + c) s).mgmt.events.length < 4095 := by rwa [ackRec_mgmt]
    rw [raise, raiseWith_fault_of_room hroom', ackRec_tele]
    exact occur_first_cause (by rw [hrec]; rfl) (by rw [hrec]; rfl) false src detail s.tele.time

end Sys2Proof.Machine

/-! Writes of a fault's configuration (16 R382): what `cfgWrite` keeps and sets, and the two commands that write it. -/

namespace Sys2Proof.Machine

open Sys2Proof

/-! ## The configuration a write leaves -/

/-- A level up to 4 is set, unless the class is U2 or F and the level lies below the code's default. -/
theorem cfgWrite_level {w : BitVec 64} (h4 : (fld w 0 3 : BitVec 3).toNat ≤ 4) (k : Nat) (old : FaultCfg) :
    (cfgWrite k w old).level =
      if 3 ≤ faultClass k ∧ (fld w 0 3 : BitVec 3).toNat < (defaultCfg k).level.toNat then old.level
      else fld w 0 3 := by
  simp [cfgWrite, Nat.not_lt.mpr h4]

/-- A ceiling up to 4 is set, unless the class is U2 or F and the ceiling lies below the code's default. -/
theorem cfgWrite_ceiling {w : BitVec 64} (h4 : (fld w 3 3 : BitVec 3).toNat ≤ 4) (k : Nat) (old : FaultCfg) :
    (cfgWrite k w old).ceiling =
      if 3 ≤ faultClass k ∧ (fld w 3 3 : BitVec 3).toNat < (defaultCfg k).ceiling.toNat then old.ceiling
      else fld w 3 3 := by
  simp [cfgWrite, Nat.not_lt.mpr h4]

/-- A ceiling at or below the base level leaves repeats at the base level (R381). -/
theorem reactLevel_of_ceiling_le {cfg : FaultCfg} (h : cfg.ceiling.toNat ≤ cfg.level.toNat) (cls : Nat)
    (x : FaultRec) : reactLevel cfg cls x = cfg.level.toNat := by
  simp only [reactLevel]
  split
  · omega
  · rfl

/-! ## The commands -/

/-- FAULT_CONFIG of a record that exists, with a level and a ceiling in range, writes its configuration and answers what
is in force. -/
theorem exec_faultConfig {r : Req} {b c : BitVec 8} {w : BitVec 64} {k : Nat} {s : State}
    (h : serves 0x0B05 false r (wBytes 1 b ++ wBytes 1 c ++ zeros 2 ++ wBytes 8 w) s) (hb : b.toNat < 20)
    (hc : c ≠ 0) (hk : k = b.toNat * 256 + c.toNat) (hlevel : (fld w 0 3 : BitVec 3).toNat ≤ 4)
    (hceiling : (fld w 3 3 : BitVec 3).toNat ≤ 4) :
    exec (.faultConfig r b c w) s =
      .next (respond r 0x0B05 (wBytes 1 b ++ wBytes 1 c ++ zeros 2 ++ wBytes 8 w)
        (ok (wBytes 8 (cfgWord (cfgWrite k w (faultCfg s.fault k)))))
        { s with fault := setFaultCfg s.fault k (cfgWrite k w (faultCfg s.fault k)) }) := by
  have hinRange : ¬(4 < w.toNat % 8 ∨ 4 < w.toNat / 8 % 8) := by
    simp only [fld, BitVec.extractLsb'_toNat, Nat.shiftRight_eq_div_pow] at hlevel hceiling
    omega
  refine command_serves_settled h ?_ ((wBytes_length 8 _).trans_le (by decide)) (settled_of_serves h)
  rw [recCommand_exists hb hc, ← hk, if_neg hinRange]

/-- The second mebibyte of the window is the fault collector's and memory integrity's (13 Table 13-8). -/
theorem regWrite_faultModule {o : Nat} (h : o / 0x100000 = 1) (v mask : BitVec 64) (s : State) :
    regWrite o v mask s = faultWrite (o % 0x100000) v mask s :=
  (if_neg (by omega)).trans (if_pos h)

/-- A write of all eight bytes of flt.cfg writes the record's configuration. -/
theorem faultWrite_cfg {k : Nat} (hk : k < 5120) (hcode : k % 256 ≠ 0) (v : BitVec 64) (s : State) :
    faultWrite (0x40000 + 8 * k) v allMask s =
      { s with fault := setFaultCfg s.fault k (cfgWrite k v (faultCfg s.fault k)) } := by
  have hkey : (0x40000 + 8 * k - 0x40000) / 8 = k := by omega
  rw [faultWrite, if_neg (by omega), if_pos (by omega)]
  simp only [hkey, overlay_allMask]

/-- An aligned write of eight bytes at flt.cfg of a record that exists. -/
theorem exec_registerWrite_fltCfg {o : BitVec 26} {k : Nat} {s : State} (hk : k < 5120) (hcode : k % 256 ≠ 0)
    (ho : o.toNat = 0x140000 + 8 * k) (hs : settled s) (v : BitVec 512) :
    exec (.registerWrite o 8 v) s =
      .next { s with fault := setFaultCfg s.fault k (cfgWrite k (v.setWidth 64) (faultCfg s.fault k)) } := by
  have haligned : o.toNat % 8 = 0 := by omega
  have hmodule : o.toNat / 0x100000 = 1 := by omega
  have hoffset : o.toNat % 0x100000 = 0x40000 + 8 * k := by omega
  calc exec (.registerWrite o 8 v) s
      = fin (regWrite o.toNat (v.setWidth 64) allMask s) := if_pos haligned
    _ = fin { s with fault := setFaultCfg s.fault k (cfgWrite k (v.setWidth 64) (faultCfg s.fault k)) } := by
        rw [regWrite_faultModule hmodule, hoffset, faultWrite_cfg hk hcode]
    _ = _ := fin_settled hs

/-- Settles O12: both commands leave `cfgWrite` in force for the record named, whose level and ceiling are set or kept
field by field. -/
theorem faultConfigurationKeepsDefaults : Obligations.FaultConfigurationKeepsDefaults := by
  unfold Obligations.FaultConfigurationKeepsDefaults
  refine ⟨?command, ?register, ?ceilingBelowLevel⟩
  case command =>
    intro r b c w k s hserves hb hc hk hlevel hceiling
    refine ⟨_, exec_faultConfig hserves hb hc hk hlevel hceiling, ?_⟩
    rw [respond_fault, faultCfg_setFaultCfg_same, cfgWrite_level hlevel, cfgWrite_ceiling hceiling]
    refine ⟨rfl, rfl, fun j hj => faultCfg_setFaultCfg_other hj s.fault _, ?lowClass, ?level, ?ceiling, ?levelKept,
      ?ceilingKept⟩
    case lowClass => exact fun hclass => ⟨if_neg (by omega), if_neg (by omega)⟩
    case level => exact fun hdefault => if_neg (by omega)
    case ceiling => exact fun hdefault => if_neg (by omega)
    case levelKept => exact fun hclass hlow => if_pos ⟨hclass, hlow⟩
    case ceilingKept => exact fun hclass hlow => if_pos ⟨hclass, hlow⟩
  case register =>
    intro o v k s hk hcode ho hs _ _
    exact exec_registerWrite_fltCfg hk hcode ho hs v
  case ceilingBelowLevel =>
    intro cfg cls x h
    exact reactLevel_of_ceiling_le h cls x

end Sys2Proof.Machine

/-! The step, the queue of commands and the reset values: every command completes, and every step leaves no reaction
waiting. -/

namespace Sys2Proof.Machine

open Sys2Proof

/-! ## The clock -/

/-- The tick of a block held in reset (21 R494). -/
theorem tick_of_held {s : State} (h : s.boot.held = true) : tick s = s := if_pos h

/-- The tick of a block that is not held: the heartbeat of the state one tick on (14 R332). -/
theorem tick_of_not_held {s : State} (h : s.boot.held = false) : tick s = beat (elapse 1 s) :=
  if_neg (by rw [h]; exact Bool.false_ne_true)

/-- The heartbeat touches the management core and the free counter alone. -/
@[simp] theorem beat_fault (s : State) : (beat s).fault = s.fault := by
  unfold beat
  split <;> rfl

/-- A tick raises nothing. -/
@[simp] theorem tick_fault (s : State) : (tick s).fault = s.fault := by
  cases h : s.boot.held
  · rw [tick_of_not_held h, beat_fault, elapse_fault]
  · rw [tick_of_held h]

/-! ## The step -/

theorem step_of_pending_nil {s : State} (h : s.pending = []) : step s = .next (tick s) := by
  rw [step, h]

theorem step_of_pending_cons {c : Instr} {q : List Instr} {s : State} (h : s.pending = c :: q) :
    step s = exec c { s with pending := q } := by
  rw [step, h]

/-- Settles O1: the equation of `step` for a queue that is not empty. -/
theorem stepRunsTheFrontCommand : Obligations.StepRunsTheFrontCommand := by
  unfold Obligations.StepRunsTheFrontCommand
  intro c q s h
  exact step_of_pending_cons h

/-- Settles O2: the equation of `step` for an empty queue, and the three cases of `tick`. -/
theorem emptyQueueIsOneTick : Obligations.EmptyQueueIsOneTick := by
  unfold Obligations.EmptyQueueIsOneTick
  refine ⟨?held, ?firmwareStopped, ?firmwareRuns⟩
  case held =>
    intro s hempty hheld
    rw [step_of_pending_nil hempty, tick_of_held hheld]
  case firmwareStopped =>
    intro s hempty hheld hfw
    rw [step_of_pending_nil hempty, tick_of_not_held hheld, beat, if_neg (by exact hfw)]
    rfl
  case firmwareRuns =>
    intro s hempty hheld hfw
    rw [step_of_pending_nil hempty, tick_of_not_held hheld, beat, if_pos (by exact hfw)]
    rfl

/-- Settles O3: the table's decoder knows no word. -/
theorem noWordSpellsACommand : Obligations.NoWordSpellsACommand := by
  unfold Obligations.NoWordSpellsACommand
  exact ⟨fun _ _ => rfl, fun _ _ _ => rfl⟩

/-! ## Reset -/

/-- Of the memory types only the scrub period of the two HBM stacks has a reset value of its own (15, Registers). -/
theorem memType_reset (t : Nat) :
    (memType State.reset t).scrubOn = true ∧ (memType State.reset t).corrected = 0 := by
  change (tabGet MemType.init MemState.init.types t).scrubOn = true ∧
    (tabGet MemType.init MemState.init.types t).corrected = 0
  simp only [MemState.init, tabGet]
  split
  · exact ⟨rfl, rfl⟩
  · split <;> exact ⟨rfl, rfl⟩

/-- Settles O4: but for `memType_reset`, each table of `State.reset` is empty, so that every entry reads its default, and
each register field is written out there. -/
theorem resetGivesTheStatedValues : Obligations.ResetGivesTheStatedValues := by
  unfold Obligations.ResetGivesTheStatedValues
  exact ⟨rfl, rfl, rfl, rfl, rfl, fun _ => rfl, fun _ => rfl, rfl, rfl, rfl, fun _ => rfl, rfl, rfl, rfl, rfl, rfl,
    fun _ => ⟨rfl, rfl⟩, fun _ => ⟨rfl, rfl, rfl⟩, fun _ => ⟨rfl, rfl, rfl⟩, memType_reset, rfl,
    fun _ => ⟨rfl, rfl⟩, fun _ => rfl, fun _ => rfl, fun _ => rfl, rfl, rfl⟩

/-- Settles O5: the collector's list of reactions is empty at reset. -/
theorem resetIsSettled : Obligations.ResetIsSettled := by
  unfold Obligations.ResetIsSettled
  rfl

end Sys2Proof.Machine

/-! Every command ends through `fin` (16 R376): it completes, and no reaction of the collector waits after it. -/

namespace Sys2Proof.Machine

open Sys2Proof

/-- A data-path command completes where its own effect does. -/
theorem live_next {f : State → Out} (s : State) (h : ∀ u, ∃ t, f u = .next t ∧ settled t) :
    ∃ t, live s f = .next t ∧ settled t := by
  unfold live
  split
  · exact fin_next s
  · exact h s

/-- A Fabric Manager command completes, heard or not. -/
theorem fm_next (q : FmSrc) (f : State → State) (s : State) : ∃ t, fm q f s = .next t ∧ settled t := by
  unfold fm
  repeat' split
  all_goals exact fin_next _

/-- Settles O7: by cases on the command, of which each branch ends through `fin`. -/
theorem everyCommandCompletes : Obligations.EveryCommandCompletes := by
  unfold Obligations.EveryCommandCompletes
  intro c s
  cases c with
  -- Nib commands, whatever their bodies do (R320)
  | bindingRead | bindingActivate | bindingFreeze | bindingThaw | bindingDrain | bindingReattach | bindingSetHold |
    windowRead | decodeProbe | migrationStatus | faultRead | faultList | faultAck | faultRelease | faultConfig |
    faultLogRead | injectMem | injectRaise | injectStatus | laneTestStart | laneTestStop | laneMargin | laneStatus |
    lanePresetSet | lanePowerCfg | laneRefSelect | portStatus | portAcceptIdentity | portRetrain | portDisable |
    portEnable | portCountersClear | powerStatus | powerStateSet | powerDomainRead | powerTimerSet | powerWakeCfg |
    protEntryRead | protEntrySet | protLock | protFence | protViolRead | protViolClear | instanceConfig | instanceRead
    | instanceEnable | instanceReset | instanceFreeze | instanceThaw | instanceSave | instanceRestore |
    instanceSetShare | mboxRead | mboxSend | engineStatus | sealStatus | sealNonce | lcTransition | ownerClaim |
    makerProvision | deviceCertInstall | makerUnlock | makerRelinquish | planKeyInstall | planKeyRevoke | debugConfig
    | colophonRead | colophonQuote | certRead | slotStatus | slotPower | slotConfig | slotIndicator | slotClear |
    slotPerst | weftStatus | weftConfig | weftAcceptIdentity | weftRetrain | weftDisable | weftEnable |
    weftCountersClear | timeStatus | timeConfig | timeSet | csConfig | csRead | teleWindowArm | dumpConfig | dumpRead
    | heatConfig | heatRead | heatClear | traceConfig | traceRead | deviceIdentify | deviceStatus | resultFetch |
    eventRead | eventAck | eventSubscribe | dcwRead | dcwWrite | functionExpose | mctpBridgeSet | planLoadBegin |
    planLoadData | planCommit | planAbort | planStatus | heddleRead | planApplyAlternate | planRestore | imageWrite |
    trafBindingRead | trafBindingSet | trafXpRead | trafXpSet | trafCountersClear =>
    exact fin_next _
  -- Fabric Manager commands
  | fmIdentifySwitchDevice | fmGetPhysicalPortState | fmPhysicalPortControl | fmSendPpbConfigRequest |
    fmGetVirtualSwitchInfo | fmBindVppb | fmUnbindVppb | fmGenerateAerEvent | fmTunnelManagementCommand |
    fmSendLdConfigRequest | fmSendLdMemoryRequest | fmUnsupported =>
    exact fm_next _ _ _
  -- the data path, which stands still in safe-stop (R385)
  | hostRequestDecode | pageEntryFetchDone | waitingMessageAdmit | reservoirRefill | egressSelect |
    descriptorFetchDone | lineComplete | descriptorDispatch | lineIssue | migrationSpanOpen | migrationSpanClose |
    slotMatch | cellArrival | proxyRequest | holderWriteback | biconflict | parkedTakeTracker | directoryFill |
    birspReceive | proxyBackingResponse | biTimeout | sweepDone =>
    dsimp only [exec, execHostRequestDecode, execPageEntryFetchDone, execWaitingMessageAdmit, execReservoirRefill,
      execEgressSelect, execDescriptorFetchDone, execLineComplete, execDescriptorDispatch, execLineIssue,
      execMigrationSpanOpen, execMigrationSpanClose, execSlotMatch, execCellArrival, execProxyRequest,
      execHolderWriteback, execBiconflict, execParkedTakeTracker, execDirectoryFill, execBirspReceive,
      execProxyBackingResponse, execBiTimeout, execSweepDone]
    refine live_next _ fun u => ?_
    repeat' split
    all_goals exact fin_next _
  -- events of engines, timers and the surroundings, each of whose branches ends the command
  | bindingActivationBoundary | holdExpired =>
    dsimp only [exec, execBindingActivationBoundary, execHoldExpired]
    repeat' split
    all_goals exact fin_next _
  | resumeComplete | auditPassStart | auditRun | auditWalkDone | auditSweepDone | upHoldExpired =>
    dsimp only [exec, execResumeComplete, execAuditPassStart, execAuditRun, execAuditWalkDone, execAuditSweepDone,
      execUpHoldExpired]
    repeat' split
    all_goals exact fin_next _
  | faultOccurrence | faultLogAppend | autoExit | faultAckWrite | injectedWrite | injectExpired =>
    dsimp only [exec, execFaultOccurrence, execFaultLogAppend, execAutoExit, execFaultAckWrite, execInjectedWrite,
      execInjectExpired]
    repeat' split
    all_goals exact fin_next _
  | refLost | refRestored | laneLossOfSignal | laneConverged | adaptAtLimit | l0pNarrow | l0pNarrowRequest | l0pWiden
    | widenFail | widenRetry | aspmL1Entry | aspmL1Exit | testInject | testCheckerLock | testCheckerLockLost |
    laneMarginDone =>
    dsimp only [exec, execRefLost, execRefRestored, execLaneLossOfSignal, execLaneConverged, execAdaptAtLimit,
      execL0pNarrow, execL0pNarrowRequest, execL0pWiden, execWidenFail, execWidenRetry, execAspmL1Entry,
      execAspmL1Exit, execTestInject, execTestCheckerLock, execTestCheckerLockLost, execLaneMarginDone]
    repeat' split
    all_goals exact fin_next _
  | cxlFlitReceive | cxlResponseReceive | cxlIoMessage | portSymptom | portDownDeclare | hostHotReset | ideFail |
    portL0Entry | portConfirm | confirmTimeout | portTagTimeout | retrainTimeout | portCommandComplete |
    receiverDetect =>
    dsimp only [exec, execCxlFlitReceive, execCxlResponseReceive, execCxlIoMessage, execPortSymptom,
      execPortDownDeclare, execHostHotReset, execIdeFail, execPortL0Entry, execPortConfirm, execConfirmTimeout,
      execPortTagTimeout, execRetrainTimeout, execPortCommandComplete, execReceiverDetect]
    repeat' split
    all_goals exact fin_next _
  | domainIdleEntry | domainWake | bankWake | domainRestoreStep | retentionReloadDone | wakeTimeout | dozeAutoAttempt
    | entryStage | standbyFinalStage | wakeSource | gpioEdge | alarm | avsPoll | avsTimeout | avsExitRetry |
    railMonitor =>
    dsimp only [exec, execDomainIdleEntry, execDomainWake, execBankWake, execDomainRestoreStep,
      execRetentionReloadDone, execWakeTimeout, execDozeAutoAttempt, execEntryStage, execStandbyFinalStage,
      execWakeSource, execGpioEdge, execAlarm, execAvsPoll, execAvsTimeout, execAvsExitRetry, execRailMonitor]
    repeat' split
    all_goals exact fin_next _
  | protFenceTimeout | protEntryReloaded =>
    dsimp only [exec, execProtFenceTimeout, execProtEntryReloaded]
    repeat' split
    all_goals exact fin_next _
  | doorbell | queueEnableWrite | instanceResetWrite | mboxT2oSend | mboxO2tAck | engineFault | freezeComplete |
    instanceResetComplete =>
    dsimp only [exec, execDoorbell, execQueueEnableWrite, execInstanceResetWrite, execMboxT2oSend, execMboxO2tAck,
      execEngineFault, execFreezeComplete, execInstanceResetComplete]
    repeat' split
    all_goals exact fin_next _
  | nonceExpiry | deviceMeasurementDone | spdmRequest =>
    dsimp only [exec, execNonceExpiry, execDeviceMeasurementDone, execSpdmRequest]
    repeat' split
    all_goals exact fin_next _
  | longPinChange | shortPinClose | debounceEnd | rampStart | pgQualify | pgAssert | perstRelease | powerGoodDrop |
    currentLimit | breakerTimerClear | breakerTrip | fastTrip | rampFail | retryTimerExpiry | shortPinOpen |
    retryCountClear | gateOffDelay | decayEnd | fetDamage | busOv | busOvRecover | busUv | busUvRecover |
    buttonPressed | buttonToggleExpiry | bayWakeChange | slotControlWrite | gateCtlWrite | slotLockWrite | vselLost |
    vselRestored =>
    dsimp only [exec, execLongPinChange, execShortPinClose, execDebounceEnd, execRampStart, execPgQualify,
      execPgAssert, execPerstRelease, execPowerGoodDrop, execCurrentLimit, execBreakerTimerClear, execBreakerTrip,
      execFastTrip, execRampFail, execRetryTimerExpiry, execShortPinOpen, execRetryCountClear, execGateOffDelay,
      execDecayEnd, execFetDamage, execBusOv, execBusOvRecover, execBusUv, execBusUvRecover, execButtonPressed,
      execButtonToggleExpiry, execBayWakeChange, execSlotControlWrite, execGateCtlWrite, execSlotLockWrite,
      execVselLost, execVselRestored]
    repeat' split
    all_goals exact fin_next _
  | weftFlitSend | weftFlitReceive | replayTimeout | replayWaitLimit | snapSend | tsyncTimeSend | weftRelockDone |
    weftDownDeclare | weftTrainStep | trainTimeout | weftParamEnd | weftTagTimeout | weftCommandComplete =>
    dsimp only [exec, execWeftFlitSend, execWeftFlitReceive, execReplayTimeout, execReplayWaitLimit, execSnapSend,
      execTsyncTimeSend, execWeftRelockDone, execWeftDownDeclare, execWeftTrainStep, execTrainTimeout,
      execWeftParamEnd, execWeftTagTimeout, execWeftCommandComplete]
    repeat' split
    all_goals exact fin_next _
  | refSwitched | ref25Restored | timeSourceChange | timeSourceRevert | timeOffsetMeasurement | tsyncInPulse |
    tsyncOutPulse =>
    dsimp only [exec, execRefSwitched, execRef25Restored, execTimeSourceChange, execTimeSourceRevert,
      execTimeOffsetMeasurement, execTsyncInPulse, execTsyncOutPulse]
    repeat' split
    all_goals exact fin_next _
  | counterClear | counterWindowEnd | dumpLatch | dumpWriteDone | dumpHostWrite | heatAgeSweep | heatClearDone =>
    dsimp only [exec, execCounterClear, execCounterWindowEnd, execDumpLatch, execDumpWriteDone, execDumpHostWrite,
      execHeatAgeSweep, execHeatClearDone]
    repeat' split
    all_goals exact fin_next _
  | cellAckReceive | cellResendTimeout | urgentPromotion | planeSelfCheck | planeDown | planeCheckEnd |
    planeRejoinWrite | planeRejoined | loomLinkSymptom | loomLinkRecovery | loomLinkDown | loomLinkRetry | loomLinkUp
    =>
    dsimp only [exec, execCellAckReceive, execCellResendTimeout, execUrgentPromotion, execPlaneSelfCheck,
      execPlaneDown, execPlaneCheckEnd, execPlaneRejoinWrite, execPlaneRejoined, execLoomLinkSymptom,
      execLoomLinkRecovery, execLoomLinkDown, execLoomLinkRetry, execLoomLinkUp]
    repeat' split
    all_goals exact fin_next _
  | registerWrite =>
    dsimp only [exec, execRegisterWrite]
    repeat' split
    all_goals exact fin_next _
  | mailboxResponse | hwResponderAnswer | mctpPacketReceive | mctpControl | eventNoticeSend | fwHang | fwRestartDone |
    makerLevelExpiry =>
    dsimp only [exec, execMailboxResponse, execHwResponderAnswer, execMctpPacketReceive, execMctpControl,
      execEventNoticeSend, execFwHang, execFwRestartDone, execMakerLevelExpiry]
    repeat' split
    all_goals exact fin_next _
  | planCommitComplete | planActivation | planPersist | alternateWeaveSwitch | applyNoticeReceive |
    restoreNoticeReceive | stablePeriodExpiry | alternateRestored | restorationRewriteDone | heddleWordReload =>
    dsimp only [exec, execPlanCommitComplete, execPlanActivation, execPlanPersist, execAlternateWeaveSwitch,
      execApplyNoticeReceive, execRestoreNoticeReceive, execStablePeriodExpiry, execAlternateRestored,
      execRestorationRewriteDone, execHeddleWordReload]
    repeat' split
    all_goals exact fin_next _
  | coldReset | warmReset | lifecycleReset | vaonLoss | vaonRestored | hbmReady | bootTimeWaitExpiry |
    persistedPlanCommit | thermalSample | exitComplete =>
    dsimp only [exec, execColdReset, execWarmReset, execLifecycleReset, execVaonLoss, execVaonRestored, execHbmReady,
      execBootTimeWaitExpiry, execPersistedPlanCommit, execThermalSample, execExitComplete]
    repeat' split
    all_goals exact fin_next _
  | fmSetLdAllocations =>
    dsimp only [exec, execFmSetLdAllocations]
    repeat' split
    all_goals exact fin_next _
  | patrolScrubStep | hbmWriteback | rowRemapped | remapLogAppend | ifetchUe | dsramUe | channelRetrain | stackLost =>
    dsimp only [exec, execPatrolScrubStep, execHbmWriteback, execRowRemapped, execRemapLogAppend, execIfetchUe,
      execDsramUe, execChannelRetrain, execStackLost]
    repeat' split
    all_goals exact fin_next _
  | bucketRefill | trafSetApply | shaperPass | queueSample =>
    dsimp only [exec, execBucketRefill, execTrafSetApply, execShaperPass, execQueueSample]
    repeat' split
    all_goals exact fin_next _
  | ageCheck | hdmDecoderWrite | violValidClear | tokenRefill | colophonAppendDone | entropyFail | deviceMeasurement |
    timeInfoSend | weftSymptom | dumpHostWriteDone | heatSweepDone | planeSymptom | mailboxGo | mailboxDoneClear |
    pendingResult | deviceReset | triggerLookup | patchApplyDone | imageSelect | sampleWindowEnd =>
    exact fin_next _

/-- Settles O6: an empty queue is a tick, which raises nothing, and a command leaves no reaction waiting. -/
theorem everyStepLeavesNoReactionWaiting : Obligations.EveryStepLeavesNoReactionWaiting := by
  unfold Obligations.EveryStepLeavesNoReactionWaiting
  intro s t hs hstep
  cases hq : s.pending with
  | nil =>
    rw [step_of_pending_nil hq, Host.Outcome.next.injEq] at hstep
    rwa [← hstep, settled, tick_fault]
  | cons c q =>
    obtain ⟨u, hu, hsettled⟩ := everyCommandCompletes c { s with pending := q }
    rw [step_of_pending_cons hq, hu, Host.Outcome.next.injEq] at hstep
    rwa [← hstep]

end Sys2Proof.Machine

/-! The event queue (13 R322), and the frames of the commands that read and of a write into a request buffer. -/

namespace Sys2Proof.Machine

open Sys2Proof

/-! ## The event queue -/

/-- The count of the lost records stands in the last record, the EVENT_LOST one. -/
theorem bumpLost_append (l : List Event) {e : Event} (he : e.type = 7) :
    bumpLost (l ++ [e]) = l ++ [{ e with data := (satAdd (e.data.setWidth 32) 1).setWidth 128 }] := by
  induction l with
  | nil => simp [bumpLost, he]
  | cons a l ih =>
    rw [List.cons_append, bumpLost, ih]
    · rfl
    · simp

/-- With 4,095 records waiting the next one is EVENT_LOST, whether or not the loss is counted in it already. -/
theorem queueEvent_lost {t : BitVec 16} {d : BitVec 128} {s : State} (h : s.mgmt.events.length = 4095) :
    ∃ e, (queueEvent t d s).mgmt.events = s.mgmt.events ++ [e] ∧ e.type = 7 ∧ e.seq = s.mgmt.head ∧
      (queueEvent t d s).mgmt.head = s.mgmt.head + 1 := by
  unfold queueEvent
  rw [if_neg (by omega), if_pos h]
  dsimp only
  split
  · exact ⟨_, bumpLost_append _ rfl, rfl, rfl, rfl⟩
  · exact ⟨_, rfl, rfl, rfl, rfl⟩

/-- A full queue takes no record: at most the count of the lost ones changes. -/
theorem queueEvent_full {t : BitVec 16} {d : BitVec 128} {s : State} (h : s.mgmt.events.length = 4096) :
    queueEvent t d s = { s with mgmt := { s.mgmt with events := bumpLost s.mgmt.events } } := by
  unfold queueEvent
  rw [if_neg (by omega), if_neg (by omega)]

/-- Settles O11: the three cases of `queueEvent`. -/
theorem eventQueueHolds4096Records : Obligations.EventQueueHolds4096Records := by
  unfold Obligations.EventQueueHolds4096Records
  refine ⟨?room, fun _ _ _ => queueEvent_lost, ?full, ?bound⟩
  case room =>
    intro t d s h
    rw [queueEvent_room h]
    exact ⟨rfl, rfl⟩
  case full =>
    intro t d s h
    rw [queueEvent_full h]
    exact ⟨bumpLost_seq _, rfl⟩
  case bound =>
    intro t d s h
    obtain hroom | hlost | hfull : s.mgmt.events.length < 4095 ∨ s.mgmt.events.length = 4095 ∨
        s.mgmt.events.length = 4096 := by omega
    · simp only [queueEvent_room hroom, pushRecord, List.length_append, List.length_singleton]
      omega
    · obtain ⟨e, he, -, -, -⟩ := queueEvent_lost (t := t) (d := d) hlost
      simp [he, hlost]
    · simp [queueEvent_full hfull, hfull]

/-! ## Commands that read -/

/-- A served command whose body leaves the state as it is changes the management core and the outputs alone, its reply
fitting the transport or not. -/
theorem command_of_reading {op : Nat} {r : Req} {p : List Byte} {s : State} (h : serves op false r p s)
    {body : State → Reply × State} (hb : (body s).2 = s) :
    ∃ m e, command op false r p body s = .next { s with mgmt := m, emits := e } := by
  obtain ⟨q, hq⟩ : ∃ q, nib op false r p body s = respond r op p q s := by
    rw [nib_serves h]
    simp only [makerTouch, Bool.false_eq_true, if_false, hb]
    split
    · exact ⟨_, rfl⟩
    · exact ⟨_, rfl⟩
  rw [command, fin, hq, settle_of_settled (respond_settled r op p q (settled_of_serves h)), respond_frame]
  exact ⟨_, _, rfl⟩

/-- A choice between two bodies that read is one that reads. -/
theorem snd_ite {α β : Type} {c : Prop} [Decidable c] {x y : α × β} {b : β} (hx : x.2 = b) (hy : y.2 = b) :
    (if c then x else y).2 = b := by
  split
  · exact hx
  · exact hy

theorem adaptSync_fault (l : Nat) (s : State) : (adaptSync l s).fault = s.fault := by
  simp only [adaptSync]
  split <;> rfl

/-- LANE_STATUS answers from the lane as its adaptation stands now. -/
theorem exec_laneStatus {r : Req} {l : BitVec 16} {s : State} (h : serves 0x0601 false r (wBytes 2 l) s)
    (hl : l.toNat ≤ 415) :
    exec (.laneStatus r l) s = .next (respond r 0x0601 (wBytes 2 l)
      (ok (wBytes 8 (laneStatusWord (lane (adaptSync l.toNat s) l.toNat))
        ++ wBytes 8 (laneAdaptWord (lane (adaptSync l.toNat s) l.toNat))
        ++ wBytes 16 ((lane (adaptSync l.toNat s) l.toNat).preset.getD
            (presetOf (adaptSync l.toNat s) l.toNat (lane (adaptSync l.toNat s) l.toNat).rate.toNat))))
      (adaptSync l.toNat s)) := by
  refine command_serves_settled h ?_ (by simp [ok]) (by rw [settled, adaptSync_fault]; exact settled_of_serves h)
  simp only [if_neg (Nat.not_lt.mpr hl)]
  cases (lane (adaptSync l.toNat s) l.toNat).preset <;> rfl

/-- Settles O9: `command_of_reading` for each body, but for LANE_STATUS, whose answer always fits. -/
theorem readsChangeOnlyTheirAnswer : Obligations.ReadsChangeOnlyTheirAnswer := by
  unfold Obligations.ReadsChangeOnlyTheirAnswer
  refine ⟨fun r s h => command_of_reading h rfl, fun r s h => command_of_reading h rfl,
    fun r f k s h => command_of_reading h (snd_ite rfl (snd_ite rfl rfl)), fun r s h => command_of_reading h rfl,
    fun r b s h => command_of_reading h (snd_ite rfl rfl),
    fun r p half s h => command_of_reading h (snd_ite rfl (snd_ite rfl rfl)),
    fun r l s h => command_of_reading h (snd_ite rfl rfl), ?laneStatus,
    fun r b c s h => command_of_reading h (snd_ite rfl rfl), fun r f k s h => command_of_reading h (snd_ite rfl rfl),
    fun r i k s h => command_of_reading h (snd_ite rfl (snd_ite rfl rfl)), fun r s h => command_of_reading h rfl,
    fun r d s h => command_of_reading h (snd_ite rfl rfl), fun r s h => command_of_reading h rfl⟩
  case laneStatus =>
    intro r l s h
    by_cases hl : 415 < l.toNat
    · rw [if_pos hl]
      exact command_of_reading h (by simp only [if_pos hl])
    · rw [if_neg hl, exec_laneStatus h (Nat.le_of_not_lt hl), respond_frame]
      exact ⟨_, _, rfl⟩

/-! ## A write into a request buffer -/

/-- Values written one by one from index `lo` on stand there, and nowhere else does the table change. -/
theorem tabGet_foldl_tabSet {α : Type} [DecidableEq α] (d : α) (t : Tab α) (lo : Nat) (g : Nat → α) (n i : Nat) :
    tabGet d ((List.range n).foldl (fun t k => tabSet d t (lo + k) (g k)) t) i =
      if lo ≤ i ∧ i < lo + n then g (i - lo) else tabGet d t i := by
  induction n with
  | zero => rw [if_neg (by omega)]; rfl
  | succ n ih =>
    rw [List.range_succ, List.foldl_append, List.foldl_cons, List.foldl_nil]
    by_cases hi : i = lo + n
    · subst hi
      rw [tabGet_tabSet_same, if_pos (by omega), Nat.add_sub_cancel_left]
    · rw [tabGet_tabSet_other d _ hi, ih]
      exact if_congr (by omega) rfl rfl

/-- A write of a whole word into a data area is one of its eight bytes. -/
theorem areaWrite_allMask (t : Tab Byte) (o : Nat) (v : BitVec 64) :
    areaWrite t o v allMask = (List.range 8).foldl (fun t k => tabSet 0 t (o + k) (fld v (8 * k) 8)) t := rfl

/-- The mailbox and the offset in its region that an offset of the window names (13 Table 13-8). -/
theorem regWrite_mailbox {m o : Nat} (hm : m < 4) (ho : o < 0x20000) (v mask : BitVec 64) (s : State) :
    regWrite (0x1000 + m * 0x20000 + o) v mask s = mbxWrite m o v mask s := by
  have hindex : (0x1000 + m * 0x20000 + o - 0x1000) / 0x20000 = m := by omega
  have hoffset : (0x1000 + m * 0x20000 + o - 0x1000) % 0x20000 = o := by omega
  rw [regWrite, if_pos (by omega), globalWrite, if_neg (by omega), if_neg (by omega), if_neg (by omega),
    if_pos (by omega), hindex, hoffset]

/-- A word written into a request buffer, which a busy mailbox does not take (R313). -/
theorem mbxWrite_request {m o : Nat} (ho : o < 0x8000) (v mask : BitVec 64) (s : State) :
    mbxWrite m (0x1000 + o) v mask s =
      if (mbx s m).busy = false then setMbx m { mbx s m with req := areaWrite (mbx s m).req o v mask } s else s := by
  rw [mbxWrite, if_neg (by omega), if_neg (by omega), Nat.add_sub_cancel_left]
  exact if_congr ⟨fun h => h.2.2, fun h => ⟨by omega, by omega, h⟩⟩ rfl rfl

/-- A REGISTER_WRITE of eight bytes in a request buffer. -/
theorem exec_registerWrite_request {m o : Nat} {v : BitVec 512} {w : BitVec 26} {s : State} (hm : m < 4)
    (ho : o < 0x8000) (haligned : o % 8 = 0) (hw : w.toNat = 0x2000 + m * 0x20000 + o) :
    exec (.registerWrite w 8 v) s = fin (if (mbx s m).busy = false then
      setMbx m { mbx s m with req := areaWrite (mbx s m).req o (v.setWidth 64) allMask } s else s) := by
  have hoff : w.toNat = 0x1000 + m * 0x20000 + (0x1000 + o) := by omega
  calc exec (.registerWrite w 8 v) s
      = fin (regWrite w.toNat (v.setWidth 64) allMask s) := if_pos (show w.toNat % 8 = 0 by omega)
    _ = _ := by rw [hoff, regWrite_mailbox hm (by omega), mbxWrite_request ho]

/-- The bytes of a value's low word are the value's own. -/
theorem fld_setWidth_64 (v : BitVec 512) {k : Nat} (hk : k < 8) :
    (fld (v.setWidth 64) (8 * k) 8 : Byte) = fld v (8 * k) 8 := by
  refine BitVec.eq_of_getLsbD_eq fun i hi => ?_
  simp only [fld, BitVec.getLsbD_extractLsb', BitVec.getLsbD_setWidth, show 8 * k + i < 64 by omega, decide_true,
    Bool.true_and]

/-- Settles O10: the write reaches `areaWrite` of the mailbox named, read byte by byte. -/
theorem requestBufferWritesReachTheirBytes : Obligations.RequestBufferWritesReachTheirBytes := by
  unfold Obligations.RequestBufferWritesReachTheirBytes
  refine ⟨?free, ?busy⟩
  case free =>
    intro m o v w s hm ho haligned hw hs hfree
    refine ⟨_, by rw [exec_registerWrite_request hm ho haligned hw, if_pos hfree]; exact fin_settled hs, ?_⟩
    simp only [mbx_setMbx_same, areaWrite_allMask, tabGet_foldl_tabSet]
    refine ⟨fun k hk => ?_, fun a ha => ?_, trivial, fun n hn => mbx_setMbx_other hn _ s, rfl⟩
    · rw [if_pos (by omega), Nat.add_sub_cancel_left, fld_setWidth_64 v hk]
    · rw [if_neg (by omega)]
  case busy =>
    intro m o v w s hm ho haligned hw hs hbusy
    rw [exec_registerWrite_request hm ho haligned hw, if_neg (by rw [hbusy]; exact Bool.noConfusion), fin_settled hs]

end Sys2Proof.Machine

/-! Decode and the bindings (03): host requests, the 0x03 Nib family, and what falls due for a binding. Here and below
`change execX .. = _` names what the dispatch `exec` runs for the instruction at hand. -/

namespace Sys2Proof.Machine

open Sys2Proof

/-! ## Host requests -/

/-- A host request whose port decodes: the sixteen window words of the port are read, and none holds the address. -/
theorem hostAccess_noWindow {m : Msg} {u : Nat} {hpa : BitVec 64} {ue : DecodeUe} {s t : State}
    (ht : t = badWord ((List.range 16).map fun w => (2, 16 * u + w)) ue s)
    (hbad : ((List.range 16).any fun w => tableBad t 2 (16 * u + w)) = false) (hw : windowOf t u hpa.toNat = none) :
    hostAccess m u hpa ue s = errorCompletion m (decodeMiss (source 1 u) 1 hpa.toNat t) := by
  have hany : (((List.range 16).map fun w => (2, 16 * u + w)).any fun k => tableBad t k.1 k.2) = false := by
    rw [List.any_map]
    exact hbad
  rw [hostAccess, ← ht]
  simp only [hany, Bool.false_eq_true, if_false, hw]

/-- Settles O13: each command by its branch, the decode by `hostAccess_noWindow`. -/
theorem hostRequestsAreDecoded : Obligations.HostRequestsAreDecoded := by
  unfold Obligations.HostRequestsAreDecoded
  refine ⟨?hostRequestDecode, ?pageEntryFetchDone, ?arrival, ?miss, ?blocked⟩
  case hostRequestDecode =>
    intro u op mv hpa tag data mask poison ue s hsafe hst hl0 hrole hop
    change execHostRequestDecode .. = _
    simp [execHostRequestDecode, fin, live, hsafe, hst, hl0, hrole, hop]
  case pageEntryFetchDone =>
    intro page first second ue s hsafe hwaits
    change execPageEntryFetchDone .. = _
    simp [execPageEntryFetchDone, fin, live, hsafe, hwaits]
  case arrival =>
    rintro pi first second s _ rfl
    rfl
  case miss =>
    intro m u hpa ue s t hblocked hoff ht hbad hw
    rw [hostRequest, hblocked, hoff, Bool.or_self, if_neg Bool.false_ne_true]
    exact hostAccess_noWindow ht hbad hw
  case blocked =>
    intro m u hpa ue s hwaits
    exact if_pos hwaits

/-! ## Pending commands -/

/-- A pending command while a ticket is free answers status 1 and the ticket's number (13 R321). -/
theorem pend_room {op : Nat} {r : Req} {s : State} (h : s.mgmt.tickets.length < 256) (f : BitVec 16 → State → State) :
    pend op r f s = (rep 1 (nextTicketNum s).toNat, f (nextTicketNum s) (holdTicket op r s)) :=
  if_neg (Nat.not_le.mpr h)

/-- A count within its limits is neither zero nor past the largest. -/
theorem count_allowed {w k : Nat} {n : BitVec w} (hmin : 1 ≤ n.toNat) (hmax : n.toNat ≤ k) :
    ¬ (n = 0 ∨ k < n.toNat) := by
  rintro (rfl | hover)
  · simp at hmin
  · omega

/-! ## Bindings -/

@[simp] theorem bstate_setBrun (k : Nat) (r : BindingRun) (s : State) (b : Nat) :
    bstate (setBrun k r s) b = bstate s b := rfl

/-- Settles O14: each command's body takes the branch its hypotheses name. -/
theorem bindingCommandsAct : Obligations.BindingCommandsAct := by
  unfold Obligations.BindingCommandsAct
  refine ⟨?bindingRead, ?bindingActivate, ?bindingFreeze, ?bindingThaw, ?bindingDrain, ?bindingReattach,
    ?bindingSetHold, ?windowRead, ?decodeProbe, ?migrationStatus, ?bindingActivationBoundary, ?holdExpired,
    ?holdExpiredLate⟩
  case bindingRead =>
    intro r b s h hb
    exact command_serves h (if_neg (Nat.not_le.mpr hb)) (fits r (by simp [ok]))
  case bindingActivate =>
    intro r b s h hb hbusy hst
    exact command_serves h (by simp [hb.not_ge, hbusy, hst]) (fits r (by simp [ok]))
  case bindingFreeze =>
    intro r b s h hb hst
    exact command_serves h (by simp [hb.not_ge, hst, freezeBinding]) (fits r (by simp [ok]))
  case bindingThaw =>
    intro r b s h hb hbusy hst
    exact command_serves h (by simp [hb.not_ge, hbusy, hst]) (fits r (by simp [ok]))
  case bindingDrain =>
    rintro r b f s h hb rfl hbusy hst hroom
    exact command_serves h (by simp [hb.not_ge, hbusy, hst, pend_room hroom, bit]; rfl) (fits r (by simp [rep]))
  case bindingReattach =>
    intro r b s h hb hbusy hst hready
    have hall : ((List.range 56).filter fun x => bit (ctxTargets (ctx s b.toNat)) x).all
        (fun x => targetReady s x) = true := by
      rw [List.all_eq_true]
      intro x hx
      obtain ⟨hlt, hbit⟩ := List.mem_filter.mp hx
      exact hready x (List.mem_range.mp hlt) hbit
    exact command_serves h (by simp only [hb.not_ge, hbusy, hst, hall, ne_eq, not_true, if_true, if_false,
      Bool.false_eq_true]) (fits r (by simp [ok]))
  case bindingSetHold =>
    intro r b l s h hb hbusy
    exact command_serves h (by simp [hb.not_ge, hbusy]) (fits r (by simp [ok]))
  case windowRead =>
    intro r p w s h hp hw
    exact command_serves h (if_neg (by omega)) (fits r (by simp [ok]))
  case decodeProbe =>
    intro r p hpa s h hp
    exact command_serves h (if_neg (by omega)) (fits r (by simp [ok]))
  case migrationStatus =>
    intro r k s h hk hst
    refine ⟨ok ([1] ++ wBytes 4 (migSlot s k.toNat).page ++ leBytes 4 (migSlot s k.toNat).watermark.toNat
      ++ wBytes 1 (migSlot s k.toNat).span ++ leBytes 2 (migSlot s k.toNat).stall.length), rfl, rfl, ?_⟩
    exact command_serves h (by simp only [hst, hk.not_ge, if_false]; rfl) (fits r (by simp [ok]))
  case bindingActivationBoundary =>
    rintro s v b t hdue rfl hst
    change execBindingActivationBoundary .. = _
    simp [execBindingActivationBoundary, fin, hdue, hst]
  case holdExpired =>
    intro b t s hstart hexpired hhold hlimit hnow
    have hfinite : ctxHold (ctx s b.toNat) ≠ 4294967295 := by omega
    change execHoldExpired .. = _
    simp [execHoldExpired, fin, hstart, hexpired, hhold, hfinite, hnow.not_gt]
  case holdExpiredLate =>
    intro b t s hstart hexpired hhold hlimit hlate
    have hfinite : ctxHold (ctx s b.toNat) ≠ 4294967295 := by omega
    change execHoldExpired .. = _
    simp [execHoldExpired, fin, hstart, hexpired, hhold, hfinite, hlate]

end Sys2Proof.Machine

/-! CXL ports (10): messages, link events and the 0x04 Nib family. -/

namespace Sys2Proof.Machine

open Sys2Proof

/-- A response under a tag of the map answers the message that went out under it. -/
theorem responseIn_known {u : Nat} {tag : BitVec 16} {op : Op} {mv : MetaV} {data : BitVec 512} {poison : Bool}
    {load : BitVec 2} {e : TagUse} {s : State} (h : tabGet none (port s u).tags tag.toNat = some e) :
    responseIn u tag op mv data poison load s = answered u e.msg op mv data poison load
      (setPort u { port s u with tags := tabSet none (port s u).tags tag.toNat none } s) := by
  simp only [responseIn, h]

/-- A response under no tag of the map is counted. -/
theorem responseIn_stray {u : Nat} {tag : BitVec 16} {op : Op} {mv : MetaV} {data : BitVec 512} {poison : Bool}
    {load : BitVec 2} {s : State} (h : tabGet none (port s u).tags tag.toNat = none) :
    responseIn u tag op mv data poison load s = portCnt u 4 1 s := by
  simp only [responseIn, h]

/-- Settles O15: each message's command by the branch that its hypotheses take. -/
theorem portMessagesPass : Obligations.PortMessagesPass := by
  unfold Obligations.PortMessagesPass
  refine ⟨?cxlFlitReceive, ?pbrMessage, ?badCrc, ?cxlResponseReceive, ?strayResponse, ?vppbRequest, ?switchRegister,
    ?switchRetry, ?egressSelect⟩
  case cxlFlitReceive =>
    intro u k s hl0 hcrcOk
    change execCxlFlitReceive u false k false none s = _
    simp [execCxlFlitReceive, fin, hl0, hcrcOk]
  case pbrMessage =>
    intro u k q s hl0 hcrcOk hst hrole hflag
    change execCxlFlitReceive u false k false (some q) s = _
    simp [execCxlFlitReceive, fin, hl0, hcrcOk, hst, hrole, hflag]
  case badCrc =>
    intro u k b q s hl0 hcrcOk
    change execCxlFlitReceive u false k b q s = _
    simp [execCxlFlitReceive, fin, hl0, hcrcOk]
  case cxlResponseReceive =>
    intro u tag op mv data k e s hst hl0 hentry
    change execCxlResponseReceive .. = _
    simp [execCxlResponseReceive, fin, hst, hl0, responseIn_known hentry]
  case strayResponse =>
    intro u tag op mv data k s hst hl0 hentry
    change execCxlResponseReceive .. = _
    simp [execCxlResponseReceive, fin, hst, hl0, responseIn_stray hentry]
  case vppbRequest =>
    intro u via op tag data len v s hst hl0 hrole hopClass hvppb
    change execCxlIoMessage u (.vppb via) op tag data len s = _
    simp [execCxlIoMessage, fin, hst, hl0, hrole, hopClass, hvppb]
  case switchRegister =>
    intro u via g w tag data len s hst hl0 hrole hready hreg
    change execCxlIoMessage u (.reg via g) .ioNonPosted tag data len s = _
    simp [execCxlIoMessage, fin, hst, hl0, hrole, hready, hreg, opClass]
  case switchRetry =>
    intro u via g tag data len s hst hl0 hrole hready
    change execCxlIoMessage u (.reg via g) .ioNonPosted tag data len s = _
    simp [execCxlIoMessage, fin, hst, hl0, hrole, hready, opClass]
  case egressSelect =>
    intro xp credits sc mc e s hsafe hxp hpick
    change execEgressSelect .. = _
    have hport : ¬ 62 ≤ xp.toNat := by omega
    simp [execEgressSelect, fin, live, hsafe, hport, hxp.not_ge, hpick]

/-- Settles O16: each event by the branch that its hypotheses take. -/
theorem portEventsAct : Obligations.PortEventsAct := by
  unfold Obligations.PortEventsAct
  refine ⟨?portSymptom, ?portDownDeclare, ?hostHotReset, ?ideFail, ?portL0Entry, ?linkReady, ?portConfirm,
    ?identityRecorded, ?confirmTimeout, ?portTagTimeout, ?retrainTimeout, ?portCommandComplete, ?receiverDetect,
    ?hdmDecoderWrite⟩
  case portSymptom =>
    intro u retry s hst hl0 hsymptom
    change execPortSymptom .. = _
    simp [execPortSymptom, fin, hst, hl0, hsymptom]
  case portDownDeclare =>
    intro u c t s hsymptom
    change execPortDownDeclare .. = _
    simp [execPortDownDeclare, fin, hsymptom]
  case hostHotReset =>
    intro u s hrole hst
    change execHostHotReset .. = _
    simp [execHostHotReset, fin, hrole, hst]
  case ideFail =>
    intro u s hflag hst
    change execIdeFail .. = _
    simp [execIdeFail, fin, hflag, hst]
  case portL0Entry =>
    rintro u rate width f l rec t s v hl0 htrain hsymptom hnow rfl
    change execPortL0Entry .. = _
    simp [execPortL0Entry, fin, hl0, htrain, hsymptom, hnow.not_gt]
  case linkReady =>
    intro u rate width f l rec s hl0 htrain hsymptom hretrain hst hready
    change execPortL0Entry .. = _
    simp [execPortL0Entry, fin, hl0, htrain, hsymptom, hretrain, hst, hready]
  case portConfirm =>
    intro u ident ldMap secure s hst hl0 hidDiffers hflag hrecorded
    change execPortConfirm .. = _
    simp [execPortConfirm, fin, hst, hl0, hidDiffers, hflag, hrecorded]
  case identityRecorded =>
    intro u ident ldMap secure s v hst hl0 hidDiffers hflag hkeyed hrecorded
    change execPortConfirm .. = _
    simp [execPortConfirm, fin, hst, hl0, hidDiffers, hflag, hkeyed, hrecorded]
  case confirmTimeout =>
    intro u s hst hrole hraised
    change execConfirmTimeout .. = _
    simp [execConfirmTimeout, fin, hst, hrole, hraised]
  case portTagTimeout =>
    intro u tag e s hl0 hentry hclass
    change execPortTagTimeout .. = _
    have hother : ¬ (e.msg.mclass = 3 ∨ (port s u.toNat).inL0 = false) :=
      not_or.mpr ⟨hclass, by simp [hl0]⟩
    simp only [execPortTagTimeout, fin, hentry, if_neg hother]
  case retrainTimeout =>
    intro u t s hretrain
    change execRetrainTimeout .. = _
    simp [execRetrainTimeout, fin, hretrain]
  case portCommandComplete =>
    intro u c cs s hcmds hst
    change execPortCommandComplete .. = _
    simp [execPortCommandComplete, fin, hcmds, hst]
  case receiverDetect =>
    intro u s hst hready
    change execReceiverDetect .. = _
    simp [execReceiverDetect, fin, hst, hready]
  case hdmDecoderWrite =>
    intro u d o v s
    change execHdmDecoderWrite u d o v s = _
    simp [execHdmDecoderWrite, fin]

/-- A command on a half that exists runs its action on the half's logical port. -/
theorem portCommand_exists {p h : BitVec 8} {s : State} (hh : h.toNat ≤ 1)
    (hhalf : halfExists s p.toNat h.toNat = true) (body : Nat → State → Reply × State) :
    portCommand p h body s = body (2 * p.toNat + h.toNat) s := by
  rw [portCommand, if_neg (Nat.not_lt.mpr hh), if_pos hhalf]

/-- A port's pending command while a ticket is free. -/
theorem portPend_room {op u kind : Nat} {r : Req} {s : State} (h : s.mgmt.tickets.length < 256) (f : State → State) :
    portPend op r u kind f s = (rep 1 (nextTicketNum s).toNat,
      setPort u { port (f (holdTicket op r s)) u with cmds := (port (f (holdTicket op r s)) u).cmds ++
        [{ ticket := nextTicketNum s, kind := BitVec.ofNat 2 kind, since := s.tele.time }] } (f (holdTicket op r s))) :=
  pend_room h _

/-- Settles O17: `portCommand_exists`, then each command's own branch. -/
theorem portCommandsAct : Obligations.PortCommandsAct := by
  unfold Obligations.PortCommandsAct
  refine ⟨?portStatus, ?portAcceptIdentity, ?portRetrain, ?portDisable, ?portEnable, ?portCountersClear⟩
  case portStatus =>
    intro r p h s hs hh hhalf hid
    refine command_serves hs ((portCommand_exists hh hhalf _).trans ?_) (fits r ?_)
    · simp only [hid, Bool.false_eq_true, if_false]
    · have hcnt := flatten_length_eq (k := 8) (List.range 8)
        fun k => wBytes_length 8 (tabGet 0 (port s (2 * p.toNat + h.toNat)).cnt k)
      simp only [ok, List.length_append, wBytes_length, hcnt, List.length_range]
      omega
  case portAcceptIdentity =>
    intro r p h s hs hh hhalf hst hid hl0
    exact command_serves hs ((portCommand_exists hh hhalf _).trans (by simp [hst, hid, hl0])) (fits r (by simp [ok]))
  case portRetrain =>
    intro r p h rate s hs hh hhalf hrate hmax hroom
    refine ⟨command_serves hs ((portCommand_exists hh hhalf _).trans ?_) (fits r ?_), ?_⟩
    · simp only [if_neg hrate.not_gt, if_neg hmax.not_gt]
    · rw [portPend_room hroom]
      simp [rep]
    · rw [portPend_room hroom]
  case portDisable =>
    intro r p h s hs hh hhalf hroom
    exact ⟨_, rfl, command_serves hs ((portCommand_exists hh hhalf _).trans (portPend_room hroom _))
      (fits r (by simp [rep]))⟩
  case portEnable =>
    intro r p h s hs hh hhalf hroom hlanes
    refine ⟨_, rfl, command_serves hs ((portCommand_exists hh hhalf _).trans ?_) (fits r (by simp [rep]))⟩
    have hnone : ((lanesOf s (2 * p.toNat + h.toNat)).any fun l => (lane s l).testing) = false := by
      simpa using hlanes
    rw [hnone]
    exact portPend_room hroom _
  case portCountersClear =>
    intro r p h s hs hh hhalf
    exact command_serves hs (portCommand_exists hh hhalf _) (fits r (by simp [ok]))

end Sys2Proof.Machine

/-! The lane array (12): signal, power, tests and the 0x06 Nib family. -/

namespace Sys2Proof.Machine

open Sys2Proof

/-- Settles O18: each event by the branch that its hypotheses take. -/
theorem laneSignalEventsAct : Obligations.LaneSignalEventsAct := by
  unfold Obligations.LaneSignalEventsAct
  refine ⟨?refLost, ?refRestored, ?laneLossOfSignal, ?laneConverged, ?adaptAtLimit⟩
  case refLost =>
    intro input s hinput hbit
    change execRefLost .. = _
    simp [execRefLost, fin, hinput.not_gt, hbit]
  case refRestored =>
    rintro input t s hinput hbit rfl
    change execRefRestored .. = _
    simp [execRefRestored, fin, hinput.not_gt, hbit]
  case laneLossOfSignal =>
    intro l s hl
    change execLaneLossOfSignal .. = _
    simp [execLaneLossOfSignal, fin, hl.not_ge]
  case laneConverged =>
    intro l ctle h a fp inv p s hl hpreset hst hopen hused hok
    change execLaneConverged .. = _
    have hactive : ¬ ((lane s l.toNat).st ≠ .l0 ∧ (lane s l.toNat).st ≠ .test) := by
      rcases hst with hst | hst <;> simp [hst]
    simp only [execLaneConverged, fin, hpreset, hl.not_ge, hactive, hopen, hused, hok, Bool.false_eq_true,
      Bool.true_eq_false, or_self, if_false]
  case adaptAtLimit =>
    rintro l t s hl hst rfl
    change execAdaptAtLimit .. = _
    simp [execAdaptAtLimit, fin, hl.not_ge, hst]

/-- Settles O19: each event by the branch that its hypotheses take. -/
theorem lanePowerEventsAct : Obligations.LanePowerEventsAct := by
  unfold Obligations.LanePowerEventsAct
  refine ⟨?l0pNarrow, ?l0pNarrowRequest, ?l0pNarrowRefused, ?l0pWiden, ?widenFail, ?widenRetry, ?aspmL1Entry,
    ?aspmL1Exit⟩
  case l0pNarrow =>
    rintro u acc t s hl0p hmay rfl
    change execL0pNarrow .. = _
    simp [execL0pNarrow, fin, hl0p, hmay]
  case l0pNarrowRequest =>
    intro u s hst hl0p hmay
    change execL0pNarrowRequest .. = _
    simp [execL0pNarrowRequest, fin, hst, hl0p, hmay]
  case l0pNarrowRefused =>
    intro u s hst hl0p hmay
    change execL0pNarrowRequest .. = _
    simp [execL0pNarrowRequest, fin, hst, hl0p, hmay]
  case l0pWiden =>
    intro u partner s hl0p hst huse
    change execL0pWiden .. = _
    have hwanted : (port s u.toNat).l0p = true ∧ (port s u.toNat).st = .up ∧ (partner = true ∨
        egressQueued s u.toNat = true ∨ wovenXp s (queueXp s (u.toNat / 2)) = true) :=
      ⟨hl0p, hst, huse.imp_right Or.inl⟩
    simp only [execL0pWiden, fin, if_pos hwanted]
  case widenFail =>
    rintro u k w t s hwiden hpos hk hst hnow rfl
    change execWidenFail .. = _
    simp [execWidenFail, fin, hwiden, hpos.ne', hk.not_ge, hst, hnow.not_gt]
  case widenRetry =>
    intro u t s hfail hst
    change execWidenRetry .. = _
    simp [execWidenRetry, fin, hfail, hst]
  case aspmL1Entry =>
    rintro u off t v ls s hst hl0 hrole hflag rfl rfl hv
    change execAspmL1Entry .. = _
    simp [execAspmL1Entry, fin, hst, hl0, hrole, hflag, hv]
  case aspmL1Exit =>
    rintro u t s hl1 hst rfl
    change execAspmL1Exit .. = _
    simp [execAspmL1Exit, fin, hl1, hst]

/-- Settles O20: each event by the branch that its hypotheses take. -/
theorem laneTestsAct : Obligations.LaneTestsAct := by
  unfold Obligations.LaneTestsAct
  refine ⟨?testInject, ?injectPending, ?testCheckerLock, ?testCheckerLockLost, ?laneMarginDone⟩
  case testInject =>
    intro l s hl htesting hmode
    change execTestInject .. = _
    simp [execTestInject, fin, hl.not_ge, htesting, hmode, sends]
  case injectPending =>
    intro l s hl htesting hst
    change execTestInject .. = _
    simp [execTestInject, fin, hl.not_ge, htesting, hst]
  case testCheckerLock =>
    intro l s htesting hmode hlocked href
    change execTestCheckerLock .. = _
    simp [execTestCheckerLock, fin, htesting, hmode, hlocked, href]
  case testCheckerLockLost =>
    intro l errs s htesting hlocked hpos herrs
    change execTestCheckerLockLost .. = _
    simp [execTestCheckerLockLost, fin, htesting, hlocked, hpos.not_ge, herrs.not_gt]
  case laneMarginDone =>
    intro l left right down up pts m s hfind hleft hright hdown hup hpts haborted hmarginable
    change execLaneMarginDone .. = _
    simp [execLaneMarginDone, fin, hfind, hleft.not_gt, hright.not_gt, hdown.not_gt, hup.not_gt, hpts.not_gt,
      haborted, hmarginable, nb]

/-- Settles O21: each command's body takes the branch its hypotheses name. -/
theorem laneCommandsAct : Obligations.LaneCommandsAct := by
  unfold Obligations.LaneCommandsAct
  refine ⟨?laneStatus, ?lanePresetSet, ?laneTestStart, ?laneTestStop, ?laneMargin, ?lanePowerCfg, ?laneRefSelect⟩
  case laneStatus =>
    rintro r l t p s h hl rfl rfl
    rw [exec_laneStatus h hl, settle_of_settled (respond_settled r _ _ _ _)]
    rw [settled, adaptSync_fault]
    exact settled_of_serves h
  case lanePresetSet =>
    intro r p s h hlane hgood
    exact command_serves h (by simp [hlane.not_gt, hgood]) (fits r (by simp [ok]))
  case laneTestStart =>
    intro r l c mode pat rate s h hpos hc hmode hpat hrate hl hfree hready
    exact command_serves h (by simp [hpos.not_gt, hc.not_gt, hmode.not_gt, hpat.not_gt, hrate.not_gt, hl.not_gt,
      hfree, hready]) (fits r (by simp [ok]))
  case laneTestStop =>
    rintro r l c t s h hpos hc hl hfree rfl
    refine command_serves h (by simp [hpos.not_gt, hc.not_gt, hl.not_gt, hfree]) (fits r ?_)
    have hlen := flatten_length_eq (k := 24) (laneRun l c)
      (testCounts_length ((laneRun l c).foldl (fun s k => testSync k s) s))
    rw [ok, hlen, laneRun, List.length_map, List.length_range]
    omega
  case laneMargin =>
    intro r l eye dw lim s h hl heye hrate hmin hmax hroom
    have hnone : ¬ (2 < eye.toNat ∨ ((lane s l.toNat).rate.toNat ≤ 4 ∧ eye ≠ 0)) :=
      not_or.mpr ⟨heye.not_gt, fun h => h.2 (hrate h.1)⟩
    refine command_serves h ?_ (fits r (by simp [rep]))
    simp only [hl.not_gt, hnone, hmin.not_gt, hmax.not_gt, or_self, if_false]
    exact pend_room hroom _
  case lanePowerCfg =>
    intro r p h idle s hs hp hh hhalf hmin hmax
    exact command_serves hs (by simp [hp.not_gt, hh.not_gt, hhalf, hmin.not_gt, hmax.not_gt]) (fits r (by simp [ok]))
  case laneRefSelect =>
    intro r n ref s h hn href hoff
    refine command_serves h ?_ (fits r (by simp [ok]))
    simp only [hn.not_gt, href.not_gt, hoff, Bool.false_eq_true, if_false]

end Sys2Proof.Machine

/-! Weft links (11): flits, timers, link events and the 0x05 Nib family. -/

namespace Sys2Proof.Machine

open Sys2Proof

/-! ## Flit positions -/

/-- A link's counters are no part of its state. -/
theorem weftCnt_st (n i k : Nat) (s : State) : (weft (weftCnt n i k s) n).st = (weft s n).st := by
  simp [weftCnt]

theorem fecCount_st (n a b : Nat) (s : State) : (weft (fecCount n a b s) n).st = (weft s n).st := by
  simp only [fecCount]
  split
  · rw [weftCnt_st, weftCnt_st]
  · rfl

/-- A link that is UP or in PARAM counts what its codewords corrected (R256). -/
theorem fecCount_counting {n : Nat} {s : State} (h : (weft s n).st = .param ∨ (weft s n).st = .up) (a b : Nat) :
    fecCount n a b s = if fecNow (weft s n) then weftCnt n 1 b (weftCnt n 0 a s) else s := by
  rcases h with h | h <;> simp [fecCount, h]

/-- A link in RELOCK counts nothing of its codewords. -/
theorem fecCount_relock {n : Nat} {s : State} (h : (weft s n).st = .relock) (a b : Nat) : fecCount n a b s = s := by
  simp [fecCount, h]

theorem flitPosition_up_flit {n : Nat} {f : WFlit} {s : State} (h : (weft s n).st = .up) :
    flitPosition n (.flit f) s = flitIn n f s := by
  simp only [flitPosition, h]

theorem flitPosition_up_bad {n : Nat} {s : State} (h : (weft s n).st = .up) :
    flitPosition n .bad s = nakWanted n (countErr (48 + n) (weftCnt n 2 1 s)) := by
  simp only [flitPosition, h]

/-- A TRAIN flit says that the partner trains again: the link is down (R278). -/
theorem flitPosition_train {n : Nat} {p : WeftPeer} {seen : Bool} {s : State}
    (h : (weft s n).st = .up ∨ (weft s n).st = .relock) :
    flitPosition n (.train p seen) s = weftDown n .partner s := by
  rcases h with h | h <;> simp only [flitPosition, h]

theorem flitPosition_param_train {n : Nat} {p : WeftPeer} {seen : Bool} {s : State} (h : (weft s n).st = .param) :
    flitPosition n (.train p seen) s = trainIn n p seen s := by
  simp only [flitPosition, h]

theorem flitPosition_param_bad {n : Nat} {s : State} (h : (weft s n).st = .param) :
    flitPosition n .bad s = trainBreak n (weftCnt n 2 1 s) := by
  simp only [flitPosition, h]

/-- Symbols on a link that is UP and locked: its flits, then a symptom where the receiver has one. -/
theorem lineIn_locked {n : Nat} {sym : List (List (BitVec 10))} {ms : List Msg} {s : State}
    (hst : (weft s n).st = .up) (hlocked : (weft s n).recv.locked = true)
    {v : ((Nat × Nat) × List (List Byte × Bool)) × WeftRecv} {t u : State}
    (hv : v = rxSymbols (fecNow (weft s n)) sym (weft s n).recv)
    (ht : t = fecCount n v.1.1.1 v.1.1.2 (setWeft n { weft s n with recv := v.2 } s))
    (hu : u = (readFlits v.1.2 ms).foldl (fun s x => flitPosition n x s) t) :
    lineIn n sym ms s = if recvSymptom (weft u n).recv then weftSymptom n u else u := by
  have hkept : ∀ r : WeftRecv, ¬ ((weft s n).recv.locked = false ∧ r.locked = true) := by simp [hlocked]
  subst hv ht hu
  simp only [lineIn, hst, if_neg (hkept _)]

/-- Settles O22: `flitPosition` in the link's state, after its codewords are counted. -/
theorem weftFlitsAct : Obligations.WeftFlitsAct := by
  unfold Obligations.WeftFlitsAct
  refine ⟨?weftFlitSend, ?trainSend, ?weftFlitReceive, ?badFlit, ?trainFlit, ?paramTrain, ?paramBad, ?relockTrain,
    ?symbols⟩
  case weftFlitSend =>
    intro link s hst
    change execWeftFlitSend .. = _
    simp [execWeftFlitSend, fin, hst]
  case trainSend =>
    intro link s hst
    change execWeftFlitSend .. = _
    simp [execWeftFlitSend, fin, hst]
  case weftFlitReceive =>
    rintro link fs fb f _ s hst rfl
    rw [← fecCount_counting (.inr hst)]
    exact congrArg fin (flitPosition_up_flit ((fecCount_st _ _ _ s).trans hst))
  case badFlit =>
    rintro link fs fb _ s hst rfl
    rw [← fecCount_counting (.inr hst)]
    exact congrArg fin (flitPosition_up_bad ((fecCount_st _ _ _ s).trans hst))
  case trainFlit =>
    rintro link fs fb p seen _ s hst rfl
    rw [← fecCount_counting (.inr hst)]
    exact congrArg fin (flitPosition_train (.inl ((fecCount_st _ _ _ s).trans hst)))
  case paramTrain =>
    rintro link fs fb p seen _ s hst rfl
    rw [← fecCount_counting (.inl hst)]
    exact congrArg fin (flitPosition_param_train ((fecCount_st _ _ _ s).trans hst))
  case paramBad =>
    rintro link fs fb _ s hst rfl
    rw [← fecCount_counting (.inl hst)]
    exact congrArg fin (flitPosition_param_bad ((fecCount_st _ _ _ s).trans hst))
  case relockTrain =>
    intro link fs fb p seen s hst
    change execWeftFlitReceive link fs fb (.train p seen) s = _
    simp [execWeftFlitReceive, fin, fecCount_relock hst, flitPosition_train (.inr hst)]
  case symbols =>
    intro link fs fb sym ms v t u s hst hlocked hv ht hu
    exact congrArg fin (lineIn_locked hst hlocked hv ht hu)

/-- Settles O23: each timer by the branch that its hypotheses take. -/
theorem weftTimersAct : Obligations.WeftTimersAct := by
  unfold Obligations.WeftTimersAct
  refine ⟨?replayTimeout, ?replayFailure, ?replayWaitLimit, ?snapSend, ?tsyncTimeSend, ?timeInfoSend, ?weftTagTimeout,
    ?weftCommandComplete⟩
  case replayTimeout =>
    intro link t s htimer hst hreplay hstuck
    change execReplayTimeout .. = _
    simp [execReplayTimeout, fin, htimer, hst, hreplay, hstuck.not_ge]
  case replayFailure =>
    intro link t s htimer hst hreplay hstuck
    change execReplayTimeout .. = _
    simp only [execReplayTimeout, fin, htimer, if_pos (And.intro hst hreplay), if_pos hstuck]
  case replayWaitLimit =>
    intro link t s hsince hst hreplay
    change execReplayWaitLimit .. = _
    simp [execReplayWaitLimit, fin, hsince, hst, hreplay]
  case snapSend =>
    rintro link t s hst rfl
    change execSnapSend .. = _
    simp [execSnapSend, fin, hst]
  case tsyncTimeSend =>
    rintro link t s hst rfl
    change execTsyncTimeSend .. = _
    simp [execTsyncTimeSend, fin, hst]
  case timeInfoSend =>
    intro s
    change execTimeInfoSend .. = _
    simp [execTimeInfoSend, fin]
  case weftTagTimeout =>
    intro link tag e s hentry hclass hst
    change execWeftTagTimeout .. = _
    have hother : ¬ (e.msg.mclass = 3 ∨ (weft s link.toNat).st ≠ .up) := not_or.mpr ⟨hclass, not_not.mpr hst⟩
    simp only [execWeftTagTimeout, fin, hentry, if_neg hother]
  case weftCommandComplete =>
    intro link c cs s hcmds hst
    change execWeftCommandComplete .. = _
    simp [execWeftCommandComplete, fin, hcmds, hst]

/-- Settles O24: each event by the branch that its hypotheses take. -/
theorem weftLinkEventsAct : Obligations.WeftLinkEventsAct := by
  unfold Obligations.WeftLinkEventsAct
  refine ⟨?weftSymptom, ?weftRelockDone, ?weftDownDeclare, ?weftTrainStep, ?trainStepEqualized, ?trainStepAligned,
    ?trainTimeout, ?alignTimeout, ?weftParamEnd⟩
  case weftSymptom =>
    rintro link t s hst rfl
    exact congrArg fin (if_pos hst)
  case weftRelockDone =>
    rintro link a t s hst hrelock hnow rfl
    change execWeftRelockDone .. = _
    simp [execWeftRelockDone, fin, hst, hrelock, hnow.not_gt]
  case weftDownDeclare =>
    intro link t s hrelock hst
    change execWeftDownDeclare .. = _
    simp [execWeftDownDeclare, fin, hrelock, hst]
  case weftTrainStep =>
    intro link s hon hst
    change execWeftTrainStep .. = _
    simp [execWeftTrainStep, fin, hon, hst]
  case trainStepEqualized =>
    intro link s hon hst hlanes
    change execWeftTrainStep .. = _
    simp [execWeftTrainStep, fin, hon, hst, hlanes]
  case trainStepAligned =>
    intro link s hon hst
    change execWeftTrainStep .. = _
    simp [execWeftTrainStep, fin, hon, hst]
  case trainTimeout =>
    intro link k st next s hst hstep
    change execTrainTimeout .. = _
    rcases hstep with ⟨rfl, rfl, rfl⟩ | ⟨rfl, rfl, rfl⟩ <;> simp [execTrainTimeout, fin, hst]
  case alignTimeout =>
    intro link s hst
    change execTrainTimeout .. = _
    simp [execTrainTimeout, fin, hst]
  case weftParamEnd =>
    intro link s hdone
    change execWeftParamEnd .. = _
    simp [execWeftParamEnd, fin, hdone]

/-- A command on a link that exists runs its action. -/
theorem weftCommand_exists {link : BitVec 8} {s : State} (h : link.toNat ≤ 7) (body : Nat → State → Reply × State) :
    weftCommand link body s = body link.toNat s :=
  if_neg (Nat.not_lt.mpr h)

/-- A link's pending command while a ticket is free. -/
theorem weftPend_room {op n kind : Nat} {r : Req} {s : State} (h : s.mgmt.tickets.length < 256) (f : State → State) :
    weftPend op r n kind f s = (rep 1 (nextTicketNum s).toNat,
      setWeft n { weft (f (holdTicket op r s)) n with cmds := (weft (f (holdTicket op r s)) n).cmds ++
        [{ ticket := nextTicketNum s, kind := BitVec.ofNat 2 kind, since := s.tele.time }] } (f (holdTicket op r s))) :=
  pend_room h _

/-- Settles O25: `weftCommand_exists`, then each command's own branch. -/
theorem weftCommandsAct : Obligations.WeftCommandsAct := by
  unfold Obligations.WeftCommandsAct
  refine ⟨?weftStatus, ?weftConfig, ?weftAcceptIdentity, ?weftRetrain, ?weftDisable, ?weftEnable, ?weftCountersClear⟩
  case weftStatus =>
    intro r link s h hlink
    refine command_serves h (weftCommand_exists hlink _) (fits r ?_)
    have hcredits := flatten_length_eq (k := 8) (List.range 8)
      fun v => wBytes_length 8 (weftCreditWord (weftVc (weft s link.toNat) v))
    have hcnt := flatten_length_eq (k := 8) (List.range 12)
      fun k => wBytes_length 8 (tabGet 0 (weft s link.toNat).cnt k)
    simp only [ok, List.length_append, wBytes_length, hcredits, hcnt, List.length_range]
    omega
  case weftConfig =>
    intro r link vc fec sl rt rs ts tg s h hlink hgood hst
    exact command_serves h ((weftCommand_exists hlink _).trans (by simp [hgood, hst])) (fits r (by simp [ok]))
  case weftAcceptIdentity =>
    intro r link p s h hlink hpeer hid
    exact command_serves h ((weftCommand_exists hlink _).trans (by simp [hpeer, hid])) (fits r (by simp [ok]))
  case weftRetrain =>
    rintro r link t s h hlink hroom rfl
    exact command_serves h ((weftCommand_exists hlink _).trans (weftPend_room hroom _)) (fits r (by simp [rep]))
  case weftDisable =>
    rintro r link t s h hlink hroom rfl
    exact command_serves h ((weftCommand_exists hlink _).trans (weftPend_room hroom _)) (fits r (by simp [rep]))
  case weftEnable =>
    rintro r link t s h hlink hroom rfl hlanes
    refine command_serves h ((weftCommand_exists hlink _).trans ?_) (fits r (by simp [rep]))
    rw [hlanes]
    exact weftPend_room hroom _
  case weftCountersClear =>
    intro r link s h hlink
    exact command_serves h (weftCommand_exists hlink _) (fits r (by simp [ok]))

end Sys2Proof.Machine

/-! The management core (13): mailboxes, MCTP and the 0x01 Nib family. -/

namespace Sys2Proof.Machine

open Sys2Proof

/-- Settles O26: each event by the branch that its hypotheses take. -/
theorem mailboxesAct : Obligations.MailboxesAct := by
  unfold Obligations.MailboxesAct
  refine ⟨?mailboxGo, ?mailboxResponse, ?mailboxDoneClear, ?hwResponderAnswer, ?pendingResult, ?eventNoticeSend,
    ?fwHang, ?fwHangOutsideWindow, ?fwRestartDone, ?makerLevelExpiry⟩
  case mailboxGo =>
    rintro m h n p s hbusy hdone rfl rfl hlen rfl
    change execMailboxGo .. = _
    simp only [execMailboxGo, fin, mailboxGo, hbusy, hdone, hlen.not_gt, Bool.or_self, Bool.false_eq_true,
      if_false, BitVec.ofNat_toNat, BitVec.setWidth_eq]
  case mailboxResponse =>
    intro m op tag q s hanswer
    change execMailboxResponse .. = _
    simp [execMailboxResponse, fin, hanswer]
  case mailboxDoneClear =>
    intro m s
    rfl
  case hwResponderAnswer =>
    intro r op s hfw hsafe hst hstage hheld hhand
    change execHwResponderAnswer .. = _
    have hanswers : ¬ (s.mgmt.fw = .running ∨ s.fault.safeStop = true ∨ s.pmu.st = .standby ∨ s.boot.stage = 7 ∨
        s.boot.held = true) := by
      simp only [hfw, hsafe, hst, hstage, hheld, Bool.false_eq_true, or_self, not_false_eq_true]
    simp only [execHwResponderAnswer, fin, if_neg hanswers, accept_inHand hhand, hwReply]
  case pendingResult =>
    intro t st d p s
    change execPendingResult .. = _
    simp [execPendingResult, fin]
  case eventNoticeSend =>
    intro s hfw hdue
    change execEventNoticeSend .. = _
    simp [execEventNoticeSend, fin, hfw, hdue]
  case fwHang =>
    intro s hfw hwindow
    change execFwHang .. = _
    simp [execFwHang, fin, hfw, hwindow]
  case fwHangOutsideWindow =>
    intro s hfw hwindow
    change execFwHang .. = _
    simp [execFwHang, fin, hfw, hwindow]
  case fwRestartDone =>
    intro t s hfw ht
    change execFwRestartDone .. = _
    simp [execFwRestartDone, fin, hfw, ht]
  case makerLevelExpiry =>
    rintro t s hmaker rfl
    change execMakerLevelExpiry .. = _
    simp [execMakerLevelExpiry, fin, hmaker]

/-- Settles O27: each message by the branch that its hypotheses take. -/
theorem mctpMessagesAct : Obligations.MctpMessagesAct := by
  unfold Obligations.MctpMessagesAct
  refine ⟨?mctpPacketReceive, ?forwarded, ?mctpControl, ?controlUntrusted⟩
  case mctpPacketReceive =>
    intro t p s hdeaf hup hother
    change execMctpPacketReceive .. = _
    simp [execMctpPacketReceive, fin, hdeaf, hup, hother]
  case forwarded =>
    intro t p b s hdeaf hup hother hall hstage hbridge houtUp
    change execMctpPacketReceive .. = _
    have hforward : ¬ (p.dst = s.mgmt.eid ∨ p.dst = 0xFF ∨ s.boot.stage = 7) := by
      simp only [hother, hall, hstage, or_self, not_false_eq_true]
    have hhears : ¬ (deaf t s = true ∨ transportUp s t = false) := by simp [hdeaf, hup]
    simp only [execMctpPacketReceive, fin, if_neg hhears, if_neg hforward, bridgePacket, hbridge, houtUp, if_true]
  case mctpControl =>
    intro t e x s hdeaf hup htrust
    change execMctpControl t e (.setEid x) s = _
    simp [execMctpControl, fin, hdeaf, hup, htrust]
  case controlUntrusted =>
    intro t e s hdeaf hup
    change execMctpControl t e .getEid s = _
    simp [execMctpControl, fin, hdeaf, hup]

/-- The part of a Nib command before what follows it: a served command answers. -/
theorem nib_serves_fits {op : Nat} {r : Req} {p : List Byte} {s t : State} {q : Reply} (h : serves op false r p s)
    {body : State → Reply × State} (hb : body s = (q, t)) (hq : q.payload.length ≤ 8176) :
    nib op false r p body s = respond r op p q t := by
  have hfits := fits r hq
  rw [nib_serves h]
  simp only [makerTouch, Bool.false_eq_true, if_false, hb]
  exact if_neg (by omega)

/-- A served command's firmware runs: the boot has passed the ROM. -/
theorem stage_of_serves {op : Nat} {maker : Bool} {r : Req} {p : List Byte} {s : State} (h : serves op maker r p s) :
    s.boot.stage ≠ 7 := h.2.1

/-- Settles O28: each command's body takes the branch its hypotheses name. -/
theorem managementCommandsAct : Obligations.ManagementCommandsAct := by
  unfold Obligations.ManagementCommandsAct
  refine ⟨?deviceStatus, ?resultFetch, ?eventRead, ?eventAck, ?eventSubscribe, ?eventSubscribeNew, ?dcwRead,
    ?dcwWrite, ?functionHide, ?functionExpose, ?mctpBridgeSet, ?deviceReset, ?deviceIdentify⟩
  case deviceStatus =>
    intro r s h
    exact command_serves h rfl (fits r (by simp [ok]))
  case resultFetch =>
    intro r t k q s h hfind hresult hlen
    refine command_serves h (by simp [hfind, hresult]) (fits r ?_)
    simp only [List.length_append, wBytes_length]
    omega
  case eventRead =>
    rintro r f k es s h hmin hmax hnew rfl
    have hk := count_allowed hmin hmax
    refine command_serves h (by simp only [hk, hnew, Bool.false_eq_true, if_false]) (fits r ?_)
    have hlen := flatten_length_eq (k := 32) ((s.mgmt.events.filter fun e => !seqBefore e.seq f).take k.toNat)
      eventBytes_length
    have htake := List.length_take_le k.toNat (s.mgmt.events.filter fun e => !seqBefore e.seq f)
    simp only [ok, List.length_append, leBytes_length, zeros_length, hlen]
    omega
  case eventAck =>
    rintro r q t s h hnew rfl
    exact command_serves h (by simp [hnew]) (fits r (by simp [ok]))
  case eventSubscribe =>
    intro r e s h
    exact command_serves h rfl (fits r (by simp [ok]))
  case eventSubscribeNew =>
    intro r e s h hnew hroom
    exact command_serves h (by simp only [hnew, hroom.not_ge, List.length_append]; rfl) (fits r (by simp [ok]))
  case dcwRead =>
    intro r o k s h hfirst hmin hmax hall
    have hk := count_allowed hmin hmax
    refine command_serves h (by simp only [hfirst, hk, hall, Bool.false_eq_true, if_false]) (fits r ?_)
    rw [ok, dcwTake_length]
    omega
  case dcwWrite =>
    intro r o vs s h hfirst hmin hmax hall
    have hk : ¬ (vs.length = 0 ∨ 512 < vs.length) := by omega
    exact command_serves h (by simp only [hfirst, hk, hall, Bool.false_eq_true, if_false]) (fits r (by simp [ok]))
  case functionHide =>
    rintro r p vf n s h hp hvf rfl hfree
    exact command_serves h (by simp [hp.not_ge, hvf.not_ge, hfree]) (fits r (by simp [ok]))
  case functionExpose =>
    intro r p vf n s h hp hvf hn hfree hidle hunmapped
    have hnone : n ≠ 0xFFFF := by
      rintro rfl
      exact absurd hn (by decide)
    refine command_serves h ?_ (fits r (by simp [ok]))
    simp only [hp.not_ge, hvf.not_ge, hn.not_ge, hnone, hfree, hidle, hunmapped, false_and, Bool.false_eq_true,
      if_false]
  case mctpBridgeSet =>
    intro r e f l t i s h he ht hi
    exact command_serves h (by simp [he.not_ge, ht.not_gt, hi.not_ge]) (fits r (by simp [ok]))
  case deviceReset =>
    intro r type s h htype
    exact congrArg (fun t => fin (mgmtResetDue t)) (nib_serves_fits h (if_neg (Nat.not_lt.mpr htype)) (by simp [ok]))
  case deviceIdentify =>
    intro r s h
    have hrom : decide (s.boot.stage = 7) = false := decide_eq_false (stage_of_serves h)
    exact command_serves h (by simp only [hrom, Bool.false_eq_true, if_false]) (fits r (by simp [ok]))

end Sys2Proof.Machine

/-! Fabric Manager commands (13 R316). -/

namespace Sys2Proof.Machine

open Sys2Proof

/-- A write that the FM carries to a port is answered at once. -/
theorem fmAccess_write (q : FmSrc) (c : FmCmd) (u : BitVec 7) (ld : Option (BitVec 4)) (ws : List (BitVec 64))
    (bs : List Byte) (s : State) :
    fmAccess q c u.toNat ld true ws bs s = fmAnswer q c .success [] (emit (.fm u ld c ws bs) s) := by
  simp [fmAccess]

/-- Settles O29: each served command's body by the branch that its hypotheses take. -/
theorem fabricManagerCommandsAct : Obligations.FabricManagerCommandsAct := by
  unfold Obligations.FabricManagerCommandsAct
  refine ⟨?fmIdentifySwitchDevice, ?fmGetPhysicalPortState, ?fmPhysicalPortControl, ?assertPerst,
    ?fmSendPpbConfigRequest, ?fmGetVirtualSwitchInfo, ?fmBindVppb, ?fmUnbindVppb, ?fmGenerateAerEvent,
    ?fmTunnelManagementCommand, ?fmSendLdConfigRequest, ?fmSendLdMemoryRequest, ?fmSetLdAllocations, ?fmUnsupported⟩
  case fmIdentifySwitchDevice =>
    intro q s h
    exact fm_serves h _
  case fmGetPhysicalPortState =>
    intro q us s h hall
    exact (fm_serves h _).trans (by simp [hall])
  case fmPhysicalPortControl =>
    intro q u s h hport
    exact (fm_serves h _).trans (by simp [hport])
  case assertPerst =>
    intro q u s h hport hrole hslot
    exact (fm_serves h _).trans (by simp only [hport, hrole, hslot, and_self, if_true, Bool.true_eq_false, if_false])
  case fmSendPpbConfigRequest =>
    intro q u reg d s h hport
    exact (fm_serves h _).trans (by simp only [hport, if_true, fmAccess_write]; rfl)
  case fmGetVirtualSwitchInfo =>
    intro q u s h husp
    exact (fm_serves h _).trans (by simp [husp])
  case fmBindVppb =>
    intro q usp v u ld c s h husp hport hrole hunbound hcache
    have hroom : ¬ (c.cache = true ∧ 16 ≤ cacheBound s) := fun hfull => (hcache hfull.1).not_ge hfull.2
    exact (fm_serves h _).trans (by simp only [husp, hport, hrole, hunbound, if_neg hroom, Bool.not_true, Bool.or_self,
      ne_eq, not_true, decide_false, Option.isSome_none, Bool.false_eq_true, if_false])
  case fmUnbindVppb =>
    rintro q usp v b t s h hentry rfl
    exact (fm_serves h _).trans (by simp [hentry])
  case fmGenerateAerEvent =>
    intro q u v e hd s h husp
    exact (fm_serves h _).trans (by simp [husp])
  case fmTunnelManagementCommand =>
    intro q u zs s h hmld
    exact (fm_serves h _).trans (by simp only [hmld, Bool.true_eq_false, if_false, tunnelWords]; rfl)
  case fmSendLdConfigRequest =>
    intro q u ld reg d s h hmld
    exact (fm_serves h _).trans (by simp only [hmld, if_true, fmAccess_write]; rfl)
  case fmSendLdMemoryRequest =>
    intro q u ld o d s h hmld
    exact (fm_serves h _).trans (by simp only [hmld, if_true, fmAccess_write]; rfl)
  case fmSetLdAllocations =>
    rintro u zs t s htunnel rfl
    exact if_pos htunnel
  case fmUnsupported =>
    intro q c s h
    exact fm_serves h _

end Sys2Proof.Machine

/-! The warp crossbar (04): slots, cells, planes and loom links. -/

namespace Sys2Proof.Machine

open Sys2Proof

/-- Settles O30: each event by the branch that its hypotheses take. -/
theorem crossbarSlotsAndCellsAct : Obligations.CrossbarSlotsAndCellsAct := by
  unfold Obligations.CrossbarSlotsAndCellsAct
  refine ⟨?slotMatch, ?cellArrival, ?cellAckReceive, ?cellResendTimeout, ?cellLost, ?urgentPromotion,
    ?urgentPromotionLast⟩
  case slotMatch =>
    rintro pl k t v s hsafe hst rfl rfl rfl
    change execSlotMatch .. = _
    have hother : pl.toNat = 1 ↔ pl = 1 := by
      rw [← BitVec.toNat_inj]
      rfl
    simp only [execSlotMatch, fin, live, hsafe, hst, hother, ne_eq, not_true, Bool.false_eq_true, if_false]
  case cellArrival =>
    rintro src dst seq u t s hsafe hcell hst hfirst rfl
    change execCellArrival src dst seq .ok .ok false s = _
    simp only [execCellArrival, fin, live, hsafe, hcell, hst, hfirst, ne_eq, not_true, Bool.false_eq_true,
      if_false, eccBad, memRead, Nat.lt_irrefl, false_and, Bool.not_false, Bool.and_true, Bool.and_false]
  case cellAckReceive =>
    intro src dst seq u s hcell
    change execCellAckReceive .. = _
    simp [execCellAckReceive, fin, hcell]
  case cellResendTimeout =>
    rintro src dst seq u t s hcell hresends rfl
    change execCellResendTimeout .. = _
    simp [execCellResendTimeout, fin, hcell, hresends.not_ge]
  case cellLost =>
    intro src dst seq u s hcell hresends
    change execCellResendTimeout .. = _
    simp [execCellResendTimeout, fin, hcell, hresends]
  case urgentPromotion =>
    intro x p c g t s hpromote
    change execUrgentPromotion true x p c s = _
    simp [execUrgentPromotion, fin, hpromote]
  case urgentPromotionLast =>
    intro x p c g t s hpromote
    change execUrgentPromotion false x p c s = _
    simp [execUrgentPromotion, fin, hpromote]

/-- The self-check of a plane in TEST that no exit brings back: STANDBY or DOWN (R112). -/
theorem planeChecked_test {n : Nat} {passed : Bool} {s : State} (hst : (plane s n).st = .test)
    (hback : comingBack s n = false) :
    planeChecked n passed s =
      setPlane n { plane s n with st := if passed then .standby else .down, checkFail := !passed } s := by
  simp only [planeChecked, hst, hback, Bool.false_eq_true, if_false]

/-- That of a plane that an exit brings back goes on with the exit. -/
theorem planeChecked_exit {n : Nat} {passed : Bool} {s : State} (hst : (plane s n).st = .test)
    (hback : comingBack s n = true) : planeChecked n passed s = exitCheck n passed s := by
  simp only [planeChecked, hst, hback, if_true]

/-- Settles O31: each event by the branch that its hypotheses take. -/
theorem planesAndLoomLinksAct : Obligations.PlanesAndLoomLinksAct := by
  unfold Obligations.PlanesAndLoomLinksAct
  refine ⟨?planeSymptom, ?planeSelfCheck, ?planeDown, ?planeCheckEnd, ?planeCheckExit, ?planeRejoinWrite,
    ?planeRejoined, ?loomLinkSymptom, ?loomLinkRecovery, ?loomLinkDown, ?loomLinkRetry, ?loomLinkUp⟩
  case planeSymptom =>
    intro pl c s
    change execPlaneSymptom .. = _
    simp [execPlaneSymptom, fin]
  case planeSelfCheck =>
    intro pl ok s
    change execPlaneSelfCheck .. = _
    simp only [execPlaneSelfCheck, fin]
    split_ifs <;> rfl
  case planeDown =>
    intro pl c t s hsymptom
    change execPlaneDown .. = _
    simp [execPlaneDown, fin, hsymptom]
  case planeCheckEnd =>
    intro pl ok t v s hst hstep ht hv hv' hback
    change execPlaneCheckEnd .. = _
    have hchecking : ¬ ((plane s pl.toNat).st = .up ∨ (domain s (168 + pl.toNat)).step ≠ 4) := by simp [hst, hstep]
    subst ht hv
    simp only [execPlaneCheckEnd, fin, if_neg hchecking]
    rw [planeChecked_test hv' hback]
  case planeCheckExit =>
    intro pl ok t v s hst hstep ht hv hv' hback
    change execPlaneCheckEnd .. = _
    have hchecking : ¬ ((plane s pl.toNat).st = .up ∨ (domain s (168 + pl.toNat)).step ≠ 4) := by simp [hst, hstep]
    subst ht hv
    simp only [execPlaneCheckEnd, fin, if_neg hchecking]
    rw [planeChecked_exit hv' hback]
  case planeRejoinWrite =>
    intro pl s
    change execPlaneRejoinWrite .. = _
    simp only [execPlaneRejoinWrite, fin]
    split_ifs <;> rfl
  case planeRejoined =>
    rintro pl t s hst hrejoin rfl
    change execPlaneRejoined .. = _
    simp [execPlaneRejoined, fin, hst, hrejoin]
  case loomLinkSymptom =>
    intro lm s hst hsymptom
    change execLoomLinkSymptom .. = _
    simp [execLoomLinkSymptom, fin, hst, hsymptom]
  case loomLinkRecovery =>
    intro lm t s hsymptom hnow
    change execLoomLinkRecovery .. = _
    simp [execLoomLinkRecovery, fin, hsymptom, hnow.not_ge]
  case loomLinkDown =>
    intro lm t s hsymptom
    change execLoomLinkDown .. = _
    simp [execLoomLinkDown, fin, hsymptom]
  case loomLinkRetry =>
    rintro lm t s hst rfl
    change execLoomLinkRetry .. = _
    simp [execLoomLinkRetry, fin, hst]
  case loomLinkUp =>
    rintro lm t v s hst rfl rfl
    change execLoomLinkUp .. = _
    simp [execLoomLinkUp, fin, hst]

end Sys2Proof.Machine

/-! Cell buffer, reservoir and traffic (05, 08). -/

namespace Sys2Proof.Machine

open Sys2Proof

/-- Settles O32: each event by the branch that its hypotheses take. -/
theorem cellBufferAndReservoirAct : Obligations.CellBufferAndReservoirAct := by
  unfold Obligations.CellBufferAndReservoirAct
  refine ⟨?waitingMessageAdmit, ?resumeComplete, ?reservoirRefill, ?refillLost, ?auditPassStart, ?auditRun,
    ?auditWalkDone, ?auditSweepDone, ?ageCheck, ?upHoldExpired⟩
  case waitingMessageAdmit =>
    intro i c w l v s hsafe hfirst hplace
    change execWaitingMessageAdmit .. = _
    obtain ⟨u, hu⟩ : ∃ u, tryPlace w.outXp.toNat w.msg s = (some v, u) := ⟨_, Prod.ext hplace rfl⟩
    simp only [execWaitingMessageAdmit, fin, live, hsafe, hfirst, hu, Bool.false_eq_true, if_false]
  case resumeComplete =>
    intro x s hst hmarksDone hstagedMark
    change execResumeComplete .. = _
    simp [execResumeComplete, fin, hst, hmarksDone, hstagedMark]
  case reservoirRefill =>
    rintro i o mc sc pl c l k s hsafe rfl hchunks hroom
    change execReservoirRefill i o mc sc .ok .ok pl s = _
    simp only [execReservoirRefill, fin, live, hsafe, hchunks, hroom.not_ge, eccBad, memRead, Bool.false_eq_true,
      if_false, List.head?_cons, Option.map_some, Option.getD_some, Nat.min_self]
  case refillLost =>
    rintro i o mc sc pl w c l k s hsafe rfl hchunks hroom
    change execReservoirRefill i o mc sc (.ue w) .ok pl s = _
    simp only [execReservoirRefill, fin, live, hsafe, hchunks, hroom.not_ge, eccBad, Bool.false_eq_true, if_false,
      if_true]
  case auditPassStart =>
    intro s hphase
    change execAuditPassStart .. = _
    simp [execAuditPassStart, fin, hphase]
  case auditRun =>
    intro s hphase
    change execAuditRun .. = _
    simp [execAuditRun, fin, hphase]
  case auditWalkDone =>
    rintro bs t v s hphase rfl rfl
    change execAuditWalkDone .. = _
    simp [execAuditWalkDone, fin, hphase]
  case auditSweepDone =>
    rintro l k t v s hphase rfl rfl rfl rfl
    change execAuditSweepDone .. = _
    simp only [execAuditSweepDone, fin, if_pos hphase]
    split_ifs <;> rfl
  case ageCheck =>
    intro s
    change execAgeCheck .. = _
    simp [execAgeCheck, fin]
  case upHoldExpired =>
    rintro u x t v s rfl hfirst hupHoldEnds rfl
    change execUpHoldExpired .. = _
    simp [execUpHoldExpired, fin, hfirst, hupHoldEnds]

/-- Settles O33: each event by the branch that its hypotheses take. -/
theorem trafficEventsAct : Obligations.TrafficEventsAct := by
  unfold Obligations.TrafficEventsAct
  refine ⟨?bucketRefill, ?trafSetApply, ?shaperPass, ?shaperRelease, ?queueSample, ?sampleWindowEnd⟩
  case bucketRefill =>
    rintro ue t s rfl
    cases ue <;> rfl
  case trafSetApply =>
    intro k s hfirstSet
    change execTrafSetApply .. = _
    simp [execTrafSetApply, fin, hfirstSet]
  case shaperPass =>
    rintro b w l t s rfl hlist htfShape
    change execShaperPass .. = _
    simp [execShaperPass, fin, hlist, htfShape]
  case shaperRelease =>
    rintro b w l t v k s rfl hlist htfShape htfSr rfl rfl hready hdebit
    change execShaperPass .. = _
    simp [execShaperPass, fin, hlist, htfShape, htfSr, hready, hdebit.not_gt]
  case queueSample =>
    rintro x w k v t s rfl rfl rfl rfl
    change execQueueSample .. = _
    simp only [execQueueSample, fin, Bool.and_eq_true, decide_eq_true_eq, Bool.not_eq_true', and_assoc]
  case sampleWindowEnd =>
    rintro x w k t s rfl rfl rfl
    rfl

/-- Settles O34: each command's body takes the branch its hypotheses name. -/
theorem trafficCommandsAct : Obligations.TrafficCommandsAct := by
  unfold Obligations.TrafficCommandsAct
  refine ⟨?trafBindingRead, ?trafBindingSet, ?trafXpRead, ?trafXpSet, ?trafCountersClear⟩
  case trafBindingRead =>
    rintro r b t s h hb rfl
    exact command_serves h (by simp [hb.not_ge]) (fits r (by simp [ok]))
  case trafBindingSet =>
    intro r b rec_ s h hb hrec hbusy hweaves
    refine command_serves h ?_ (fits r (by simp [acceptSet, ok]))
    simp only [hb.not_ge, hrec, hbusy, hweaves, Bool.true_eq_false, Bool.false_eq_true, if_false]
  case trafXpRead =>
    rintro r x t s h hx rfl
    exact command_serves h (by simp [hx.not_ge]) (fits r (by simp [ok]))
  case trafXpSet =>
    intro r x rec_ s h hx hrec hbusy
    refine command_serves h ?_ (fits r (by simp [acceptSet, ok]))
    simp only [hx.not_ge, hrec, hbusy, Bool.true_eq_false, Bool.false_eq_true, if_false]
  case trafCountersClear =>
    intro r b s h hb
    exact command_serves h (by simp [hb.not_ge]) (fits r (by simp [ok]))

end Sys2Proof.Machine

/-! Protection (09): entries, fences and the violation record. -/

namespace Sys2Proof.Machine

open Sys2Proof

theorem violBytes_length (v : ViolRec) : (violBytes v).length = 50 := by simp [violBytes]

/-- Settles O35: each command's body, and each event, by the branch its hypotheses name. -/
theorem protectionCommandsAct : Obligations.ProtectionCommandsAct := by
  unfold Obligations.ProtectionCommandsAct
  refine ⟨?protEntryRead, ?protEntrySet, ?protLock, ?protFence, ?protFenceTimeout, ?protViolRead, ?protViolClear,
    ?violValidClear, ?violValidStays, ?violValidCaptures, ?protEntryReloaded⟩
  case protEntryRead =>
    intro r i n s h hmin hmax hend
    refine command_serves h ((if_neg (by omega)).trans (if_neg (by omega))) (fits r ?_)
    have hlen := flatten_length_eq (k := 32) (List.range n.toNat)
      fun j => wBytes_length 32 (protEntry s (i.toNat + j))
    rw [ok, hlen, List.length_range]
    omega
  case protEntrySet =>
    intro r i e s h hi hentry hbusy hlock
    refine command_serves h ?_ (fits r (by simp [ok]))
    simp only [hi.not_ge, hentry, hbusy, hlock, Bool.true_eq_false, Bool.false_eq_true, if_false]
    rfl
  case protLock =>
    intro r i n s h hmin hend hbusy
    have hbusy' : ¬ planBusy s = true := by simp [hbusy]
    exact command_serves h ((if_neg (by omega)).trans ((if_neg (by omega)).trans (if_neg hbusy')))
      (fits r (by simp [ok]))
  case protFence =>
    rintro r us t s h hroom rfl
    exact command_serves h (pend_room hroom _) (fits r (by simp [rep]))
  case protFenceTimeout =>
    rintro k f t s hfind hlimit rfl
    change execProtFenceTimeout .. = _
    simp only [execProtFenceTimeout, fin, hfind, if_neg hlimit]
  case protViolRead =>
    intro r s h
    exact command_serves h rfl (fits r (by simp [ok, violBytes_length]))
  case protViolClear =>
    intro r s h
    exact command_serves h rfl (fits r (by simp [ok]))
  case violValidClear =>
    intro s hfresh hnow
    change execViolValidClear .. = _
    simp only [execViolValidClear, fin, violClear, hfresh, hnow, Bool.false_eq_true, if_false]
  case violValidStays =>
    intro s hfresh hnow
    change execViolValidClear .. = _
    simp only [execViolValidClear, fin, violClear, hfresh, hnow, if_true]
  case violValidCaptures =>
    intro f s hfresh hnow
    change execViolValidClear .. = _
    simp only [execViolValidClear, fin, violClear, hfresh, hnow, if_true]
    rfl
  case protEntryReloaded =>
    rintro i t s rfl
    change execProtEntryReloaded .. = _
    simp [execProtEntryReloaded, fin]

end Sys2Proof.Machine

/-! The coherence proxy (06), the pages of the instances and the scribe engines (07). -/

namespace Sys2Proof.Machine

open Sys2Proof

/-- Settles O36: each event by the branch that its hypotheses take. -/
theorem proxyRequestsAct : Obligations.ProxyRequestsAct := by
  unfold Obligations.ProxyRequestsAct
  refine ⟨?proxyRequest, ?holderWriteback, ?biconflict, ?parkedTakeTracker, ?directoryFill, ?birspReceive,
    ?proxyBackingResponse, ?proxyBackingHolder, ?biTimeout, ?sweepDone⟩
  case proxyRequest =>
    rintro k e t s hsafe hhead rfl
    change execProxyRequest .. = _
    simp [execProxyRequest, fin, live, hsafe, hhead]
  case holderWriteback =>
    intro k e s hsafe hhead hwrites
    change execHolderWriteback .. = _
    simp [execHolderWriteback, fin, live, hsafe, hhead, hwrites]
  case biconflict =>
    intro k e s hsafe hhead hop
    change execBiconflict .. = _
    simp [execBiconflict, fin, live, hsafe, hhead, hop]
  case parkedTakeTracker =>
    rintro k q t s hsafe hpark rfl
    change execParkedTakeTracker .. = _
    simp only [execParkedTakeTracker, fin, live, hsafe, hpark, Bool.false_eq_true, if_false]
    rfl
  case directoryFill =>
    intro sa x s hsafe htracker hstage
    change execDirectoryFill sa .ok s = _
    simp [execDirectoryFill, fin, live, hsafe, htracker, hstage, memRead, eccBad]
  case birspReceive =>
    rintro k e t v s hsafe hstaged hanswer rfl hcount
    change execBirspReceive .. = _
    simp only [execBirspReceive, fin, live, hsafe, hstaged, if_neg hanswer, hcount, Bool.false_eq_true, if_false]
  case proxyBackingResponse =>
    intro k c x b t s hsafe hbacking htag htracker hstage
    change execProxyBackingResponse .. = _
    simp [execProxyBackingResponse, fin, live, hsafe, hbacking, htag, htracker, hstage]
  case proxyBackingHolder =>
    intro k c m b t g s hsafe hbacking htag hslice hg
    change execProxyBackingResponse .. = _
    simp [execProxyBackingResponse, fin, live, hsafe, hbacking, htag, hslice, hg]
  case biTimeout =>
    intro sa u k s hsafe hsince hst
    change execBiTimeout .. = _
    simp [execBiTimeout, fin, live, hsafe, hsince, hst]
  case sweepDone =>
    intro u l s hsafe hsweeps
    change execSweepDone .. = _
    simp [execSweepDone, fin, live, hsafe, hsweeps]

/-- Settles O37: each write by the branch that its hypotheses take. -/
theorem instancePageWritesAct : Obligations.InstancePageWritesAct := by
  unfold Obligations.InstancePageWritesAct
  refine ⟨?doorbell, ?queueEnableWrite, ?instanceResetWrite, ?instanceResetDisabled, ?instanceResetAgain,
    ?mboxT2oSend, ?mboxO2tAck, ?mboxO2tAckFull⟩
  case doorbell =>
    intro i q p s
    change execDoorbell .. = _
    simp only [execDoorbell, fin]
    split_ifs <;> rfl
  case queueEnableWrite =>
    rintro i q v t s rfl
    change execQueueEnableWrite .. = _
    simp only [execQueueEnableWrite, fin]
    split_ifs <;> rfl
  case instanceResetWrite =>
    intro i s hst
    change execInstanceResetWrite .. = _
    rcases hst with hst | hst | hst <;> simp [execInstanceResetWrite, fin, hst]
  case instanceResetDisabled =>
    intro i s hst
    change execInstanceResetWrite .. = _
    simp [execInstanceResetWrite, fin, hst]
  case instanceResetAgain =>
    intro i s hst
    change execInstanceResetWrite .. = _
    simp [execInstanceResetWrite, fin, hst]
  case mboxT2oSend =>
    intro i k s hfull hst
    change execMboxT2oSend .. = _
    simp [execMboxT2oSend, fin, hfull, hst]
  case mboxO2tAck =>
    intro i s hat
    change execMboxO2tAck .. = _
    simp [execMboxO2tAck, fin, hat]
  case mboxO2tAckFull =>
    intro i s hst hat
    change execMboxO2tAck .. = _
    simp [execMboxO2tAck, fin, hst, hat]

/-- Settles O38: each event by the branch that its hypotheses take. -/
theorem scribeEnginesAct : Obligations.ScribeEnginesAct := by
  unfold Obligations.ScribeEnginesAct
  refine ⟨?descriptorFetchDone, ?lineComplete, ?descriptorDispatch, ?lineIssue, ?engineFault, ?tokenRefill,
    ?migrationSpanOpen, ?migrationSpanClose, ?migrationEnd, ?freezeComplete, ?instanceResetComplete⟩
  case descriptorFetchDone =>
    intro h m e t s hsafe hback
    change execDescriptorFetchDone .. = _
    simp [execDescriptorFetchDone, fin, live, hsafe, hback]
  case lineComplete =>
    intro h m e t s hsafe hback
    change execLineComplete .. = _
    simp [execLineComplete, fin, live, hsafe, hback]
  case descriptorDispatch =>
    intro d e s hsafe hdescs hstage hst hpick
    change execDescriptorDispatch .. = _
    simp [execDescriptorDispatch, fin, live, hsafe, hdescs, hstage, hst, hpick]
  case lineIssue =>
    rintro e ue d t s hsafe rfl hruns hchannel
    change execLineIssue .. = _
    simp [execLineIssue, fin, live, hsafe, hruns, hchannel]
  case engineFault =>
    intro e s
    change execEngineFault .. = _
    simp [execEngineFault, fin]
  case tokenRefill =>
    intro s
    change execTokenRefill .. = _
    simp [execTokenRefill, fin]
  case migrationSpanOpen =>
    intro k d s hsafe hdesc hst hspan hready hruns hturn
    change execMigrationSpanOpen .. = _
    simp [execMigrationSpanOpen, fin, live, hsafe, hdesc, hst, hspan, hready, hruns, hturn]
  case migrationSpanClose =>
    intro k d w s hsafe hdesc hw hspan hnext hflight hmore
    change execMigrationSpanClose .. = _
    have hclosed : ¬ ((migSlot s k.toNat).span = 0 ∨ d.next ≠ w ∨ d.flight ≠ []) := by
      simp only [hspan, hnext, hflight, ne_eq, not_true, or_self, not_false_eq_true]
    simp only [execMigrationSpanClose, fin, live, hsafe, hdesc, ← hw, if_neg hclosed, if_pos hmore,
      Bool.false_eq_true, if_false]
  case migrationEnd =>
    rintro k d t v s hsafe hdesc hw hspan hnext hflight rfl rfl
    change execMigrationSpanClose .. = _
    have hclosed : ¬ ((migSlot s k.toNat).span = 0 ∨ d.next ≠ 32768 ∨ d.flight ≠ []) := by
      simp only [hspan, hnext, hflight, ne_eq, not_true, or_self, not_false_eq_true]
    simp only [execMigrationSpanClose, fin, live, hsafe, hdesc, hw, if_neg hclosed, Nat.lt_irrefl,
      Bool.false_eq_true, if_false]
    rfl
  case freezeComplete =>
    intro i s hst hquiet
    change execFreezeComplete .. = _
    simp [execFreezeComplete, fin, hst, hquiet]
  case instanceResetComplete =>
    rintro i t s hst hdone rfl
    change execInstanceResetComplete .. = _
    simp only [execInstanceResetComplete, fin, if_pos (And.intro hst hdone)]
    split_ifs <;> rfl

end Sys2Proof.Machine

/-! The 0x07 Nib family (07). -/

namespace Sys2Proof.Machine

open Sys2Proof

/-- Settles O39: each command's body takes the branch its hypotheses name. -/
theorem scribeCommandsAct : Obligations.ScribeCommandsAct := by
  unfold Obligations.ScribeCommandsAct
  refine ⟨?instanceConfig, ?instanceRead, ?instanceEnable, ?instanceReset, ?instanceFreeze, ?instanceFreezeFrozen,
    ?instanceThaw, ?instanceThawReady, ?instanceSave, ?instanceRestore, ?instanceSetShare, ?mboxRead, ?mboxSend,
    ?engineStatus⟩
  case instanceConfig =>
    intro r i f em dq sh bu bs s h hi hf hdq hsh hslots hst hkinds hquota
    refine command_serves h ?_ (fits r (by simp [ok]))
    simp only [hi.not_ge, hf.not_ge, hdq.not_gt, hsh.not_gt, hslots, hst, hkinds, hquota.not_gt, Option.isSome_none,
      ne_eq, not_true, Bool.false_eq_true, if_false]
  case instanceRead =>
    rintro r i t v s h hi rfl rfl
    refine command_serves h (if_neg (Nat.not_le.mpr hi)) (fits r ?_)
    have hslots := flatten_length_eq (k := 2) (List.range 8)
      fun k => wBytes_length 2 (tabGet 0xFFFF (inst (scribeSync s) i.toNat).bslots k)
    have hqueues := flatten_length_eq (k := 6) (f := fun q =>
        wBytes 2 (queueOf (inst (scribeSync s) i.toNat) q).producer
          ++ wBytes 2 (queueOf (inst (scribeSync s) i.toNat) q).consumer
          ++ leBytes 1 (qerrNum (queueOf (inst (scribeSync s) i.toNat) q).err) ++ [0])
      (List.range 4) fun q => by simp
    simp only [ok, List.length_append, wBytes_length, leBytes_length, hslots, hqueues, List.length_range]
    omega
  case instanceEnable =>
    intro r i s h hi hst
    exact command_serves h (by simp [hi.not_ge, hst]) (fits r (by simp [ok]))
  case instanceReset =>
    rintro r i f t s h hi hf hst hroom rfl
    refine command_serves h ((if_neg (Nat.not_le.mpr hi)).trans ((if_neg (Nat.not_le.mpr hf)).trans ?_))
      (fits r (by simp [rep]))
    rcases hst with hst | hst | hst <;> rw [hst] <;> exact pend_room hroom _
  case instanceFreeze =>
    rintro r i t s h hi hst hroom rfl
    refine command_serves h ((if_neg (Nat.not_le.mpr hi)).trans ?_) (fits r (by simp [rep]))
    rcases hst with hst | hst <;> rw [hst] <;> exact pend_room hroom _
  case instanceFreezeFrozen =>
    intro r i s h hi hst hroom
    refine command_serves h ((if_neg (Nat.not_le.mpr hi)).trans ?_) (fits r (by simp [rep]))
    rw [hst]
    exact pend_room hroom _
  case instanceThaw =>
    intro r i c s h hi hc hst hkept
    refine command_serves h ((if_neg (Nat.not_le.mpr hi)).trans ((if_neg (Nat.not_le.mpr hc)).trans ?_))
      (fits r (by simp [ok]))
    rcases hst with hst | hst <;> simp only [hst, hkept, if_true]
  case instanceThawReady =>
    intro r i c s h hi hc hst hgone
    refine command_serves h ((if_neg (Nat.not_le.mpr hi)).trans ((if_neg (Nat.not_le.mpr hc)).trans ?_))
      (fits r (by simp [ok]))
    obtain ⟨hprot, howner⟩ := Bool.or_eq_false_iff.mp hgone
    rcases hst with hst | hst <;>
      simp only [hst, hprot, howner, Bool.or_self, Bool.false_eq_true, if_false]
  case instanceSave =>
    intro r i s h hi hst hmoves
    refine command_serves h ?_ (fits r (by simp [ok, blobBody_length]))
    simp only [hi.not_ge, hst, hmoves, ne_eq, not_true, Bool.false_eq_true, if_false]
  case instanceRestore =>
    rintro r i b t s h hlen hi hst hblob hcookies rfl
    refine command_serves h ?_ (fits r (by simp [ok]))
    simp only [hlen, hi.not_ge, hst, hblob, hcookies, ne_eq, not_true, Bool.true_eq_false, Bool.false_eq_true, if_false]
  case instanceSetShare =>
    rintro r i sh bu t s h hi hsh rfl
    exact command_serves h (by simp [hi.not_ge, hsh.not_gt]) (fits r (by simp [ok]))
  case mboxRead =>
    intro r i s h hi hst hfull
    refine command_serves h (by simp [hi.not_ge, hst, hfull]) (fits r ?_)
    simp only [ok, List.length_append, leBytes_length, List.length_take, mailBytes_length]
    omega
  case mboxSend =>
    rintro r i k d t s h hi hk hroom hst hfull rfl
    exact command_serves h (by simp [hi.not_ge, hk.not_gt, hroom, hst, hfull]) (fits r (by simp [ok]))
  case engineStatus =>
    intro r e s h he
    exact command_serves h (by simp [he.not_ge]) (fits r (by simp [ok]))

end Sys2Proof.Machine

/-! Plan loads and commits (02), and HEDDLE_READ. -/

namespace Sys2Proof.Machine

open Sys2Proof

/-- Settles O40: each command's body, and each event, by the branch its hypotheses name. -/
theorem planLoadingActs : Obligations.PlanLoadingActs := by
  unfold Obligations.PlanLoadingActs
  refine ⟨?planLoadBegin, ?planLoadData, ?planCommit, ?planCommitComplete, ?planAbort, ?planAbortArmed, ?planStatus,
    ?planActivation, ?planPersist, ?heddleRead⟩
  case planLoadBegin =>
    intro r k n s h hk hshadow
    exact command_serves h (by simp [hk.not_ge, hshadow]) (fits r (by simp [ok]))
  case planLoadData =>
    intro r o d s h hmin hmax hshadow howner ho hend
    have hlen : ¬ (d.length = 0 ∨ 4096 < d.length) := by omega
    have hplace : ¬ (o.toNat ≠ s.plan.loadBytes.length ∨
        s.plan.loadLength.toNat < s.plan.loadBytes.length + d.length) := by omega
    refine command_serves h ?_ (fits r (by simp [ok]))
    simp only [if_neg hlen, if_neg hplace, hshadow, howner, reduceCtorEq, ne_eq, not_true, or_self, if_false]
  case planCommit =>
    rintro r f t s h hf hshadow howner hring hroom rfl
    refine command_serves h ?_ (fits r (by simp [rep]))
    simp only [hf.not_ge, hshadow, howner, hring, reduceCtorEq, ne_eq, not_true, or_self, Bool.false_eq_true, if_false]
    exact pend_room hroom _
  case planCommitComplete =>
    intro k env s hshadow
    change execPlanCommitComplete .. = _
    simp [execPlanCommitComplete, fin, hshadow]
  case planAbort =>
    intro r env s h hshadow howner hticket
    exact command_serves h (by simp [hshadow, howner, hticket]) (fits r (by simp [ok]))
  case planAbortArmed =>
    intro r env t s h hshadow howner hnow happend
    exact command_serves h (by simp [hshadow, howner, hnow.not_ge, happend]) (fits r (by simp [ok]))
  case planStatus =>
    intro r s h hchain
    refine command_serves h rfl (fits r ?_)
    have hlen := flatten_length_eq (k := 4)
      (f := fun c : ChainLink => wBytes 2 c.set ++ wBytes 1 c.cls ++ wBytes 1 c.index) s.plan.chain fun c => by simp
    simp only [ok, List.length_append, wBytes_length, leBytes_length, hlen]
    omega
  case planActivation =>
    intro s hshadow
    change execPlanActivation .. = _
    simp [execPlanActivation, fin, hshadow]
  case planPersist =>
    intro s hpersistDue
    change execPlanPersist .. = _
    simp [execPlanPersist, fin, hpersistDue]
  case heddleRead =>
    rintro r ty i n p s h htype htype' hmin hmax hend rfl hfits
    exact command_serves h ((if_neg (by omega)).trans ((if_neg (by omega)).trans (if_neg (by omega)))) hfits

end Sys2Proof.Machine

/-! Alternates, notices and reloads (02). -/

namespace Sys2Proof.Machine

open Sys2Proof

/-- Settles O41: each command's body, and each event, by the branch its hypotheses name. -/
theorem alternatesAct : Obligations.AlternatesAct := by
  unfold Obligations.AlternatesAct
  refine ⟨?planApplyAlternate, ?planRestore, ?planRestoreBase, ?triggerLookup, ?patchApplyDone, ?alternateWeaveSwitch,
    ?applyNoticeReceive, ?restoreNoticeReceive, ?stablePeriodExpiry, ?alternateRestored, ?restorationRewriteDone,
    ?heddleWordReload⟩
  case planApplyAlternate =>
    intro r k s h hmin hset hparent hidle hwant
    have hknown : ¬ (k.toNat = 0 ∨ setCount s ≤ k.toNat ∨ dParent (altSet s k.toNat).desc ≠ currentSet s) := by omega
    refine command_serves h ((if_neg hknown).trans (if_neg ?_)) (fits r (by simp [ok]))
    simp [hidle, hwant]
  case planRestore =>
    intro r k s h hk hchained
    exact command_serves h ((if_neg hk).trans (if_pos hchained)) (fits r (by simp [ok]))
  case planRestoreBase =>
    intro r s h
    exact command_serves h rfl (fits r (by simp [ok]))
  case triggerLookup =>
    intro s
    change execTriggerLookup .. = _
    simp [execTriggerLookup, fin]
  case patchApplyDone =>
    intro s
    change execPatchApplyDone .. = _
    simp [execPatchApplyDone, fin]
  case alternateWeaveSwitch =>
    intro s hisSome
    change execAlternateWeaveSwitch .. = _
    simp [execAlternateWeaveSwitch, fin, hisSome]
  case applyNoticeReceive =>
    intro l id t s htakeHeard
    change execApplyNoticeReceive .. = _
    simp [execApplyNoticeReceive, fin, htakeHeard]
  case restoreNoticeReceive =>
    intro l id t s htakeHeard
    change execRestoreNoticeReceive .. = _
    simp [execRestoreNoticeReceive, fin, htakeHeard]
  case stablePeriodExpiry =>
    intro c k s hgetLast hupSince hcurrentMode hstablePeriod
    change execStablePeriodExpiry .. = _
    simp [execStablePeriodExpiry, fin, hgetLast, hupSince, hcurrentMode, hstablePeriod]
  case alternateRestored =>
    intro k s hwork hrestoreWant
    change execAlternateRestored .. = _
    simp [execAlternateRestored, fin, hwork, hrestoreWant]
  case restorationRewriteDone =>
    intro s hwork
    change execRestorationRewriteDone .. = _
    simp [execRestorationRewriteDone, fin, hwork]
  case heddleWordReload =>
    intro se i o a b t bad s hbad hread
    change execHeddleWordReload .. = _
    simp only [execHeddleWordReload, fin, if_pos hbad, hread]
    split_ifs <;> rfl

end Sys2Proof.Machine

/-! Slot power (18): insertion, overload and removal, controls and the 0x0D Nib family. -/

namespace Sys2Proof.Machine

open Sys2Proof

/-- Settles O42: each event by the branch that its hypotheses take. -/
theorem slotInsertionActs : Obligations.SlotInsertionActs := by
  unfold Obligations.SlotInsertionActs
  refine ⟨?longPinChange, ?shortPinClose, ?debounceEnd, ?rampStart, ?pgQualify, ?pgAssert, ?perstRelease,
    ?powerGoodDrop, ?powerGoodLost⟩
  case longPinChange =>
    intro n b s hn hlong
    change execLongPinChange .. = _
    simp [execLongPinChange, fin, hn.not_gt, hlong]
  case shortPinClose =>
    rintro n t s hn hopen rfl
    change execShortPinClose .. = _
    have hcloses : ¬ (23 < n.toNat ∨ (slotCh s n.toNat).shortPin = true) := by simp [hn, hopen]
    simp only [execShortPinClose, fin, if_neg hcloses]
    split_ifs <;> rfl
  case debounceEnd =>
    rintro n k t v w s hcloseAt rfl rfl rfl
    change execDebounceEnd .. = _
    simp [execDebounceEnd, fin, hcloseAt]
  case rampStart =>
    intro n s hst hctlOn hretryActive hbusUv hbusOv hvselLost
    change execRampStart .. = _
    simp [execRampStart, fin, hst, hctlOn, hretryActive, hbusUv, hbusOv, hvselLost]
  case pgQualify =>
    intro n v s hst hpgLevel
    change execPgQualify .. = _
    simp [execPgQualify, fin, hst, hpgLevel.not_gt]
  case pgAssert =>
    rintro n k t s hpgFrom hst rfl
    change execPgAssert .. = _
    simp [execPgAssert, fin, hpgFrom, hst]
  case perstRelease =>
    intro n k s hperstFrom hpg hperstHold
    change execPerstRelease .. = _
    simp [execPerstRelease, fin, hperstFrom, hpg, hperstHold]
  case powerGoodDrop =>
    intro n v s hst
    change execPowerGoodDrop .. = _
    simp [execPowerGoodDrop, fin, hst]
  case powerGoodLost =>
    intro n v s hst
    change execPowerGoodDrop .. = _
    simp [execPowerGoodDrop, fin, hst]

/-- Settles O43: each event by the branch that its hypotheses take. -/
theorem slotOverloadAndRemovalAct : Obligations.SlotOverloadAndRemovalAct := by
  unfold Obligations.SlotOverloadAndRemovalAct
  refine ⟨?currentLimit, ?breakerTimerClear, ?breakerTrip, ?fastTrip, ?rampFail, ?retryTimerExpiry, ?shortPinOpen,
    ?retryCountClear, ?gateOffDelay, ?decayEnd, ?fetDamage, ?fetDamageUngated, ?busOv, ?busOvRecover, ?busUv,
    ?busUvRecover⟩
  case currentLimit =>
    intro n i s hgate hlimit
    change execCurrentLimit .. = _
    simp [execCurrentLimit, fin, hgate, hlimit.not_gt]
  case breakerTimerClear =>
    intro n i s hisSome hi
    change execBreakerTimerClear .. = _
    simp [execBreakerTimerClear, fin, hisSome, hi.not_ge]
  case breakerTrip =>
    intro n k s hbreakerAt
    change execBreakerTrip .. = _
    simp [execBreakerTrip, fin, hbreakerAt]
  case fastTrip =>
    intro n i s hgate hgcFast
    change execFastTrip .. = _
    simp [execFastTrip, fin, hgate, hgcFast.not_gt]
  case rampFail =>
    intro n k s hrampAt hst
    change execRampFail .. = _
    simp [execRampFail, fin, hrampAt, hst]
  case retryTimerExpiry =>
    intro n s hretryActive
    change execRetryTimerExpiry .. = _
    simp [execRetryTimerExpiry, fin, hretryActive]
  case shortPinOpen =>
    rintro n t s hn hclosed rfl
    change execShortPinOpen .. = _
    have hopens : ¬ (23 < n.toNat ∨ (slotCh s n.toNat).shortPin = false) := by simp [hn, hclosed]
    simp only [execShortPinOpen, fin, if_neg hopens]
    split_ifs <;> rfl
  case retryCountClear =>
    rintro n k t v s hopenAt rfl rfl
    change execRetryCountClear .. = _
    simp [execRetryCountClear, fin, hopenAt]
  case gateOffDelay =>
    intro n k s hoffAt
    change execGateOffDelay .. = _
    simp [execGateOffDelay, fin, hoffAt]
  case decayEnd =>
    intro n v s hv hst
    change execDecayEnd .. = _
    simp [execDecayEnd, fin, hv.not_ge, hst]
  case fetDamage =>
    rintro n v k t s hn hgate hst hlevel hoff rfl
    change execFetDamage .. = _
    simp [execFetDamage, fin, hn.not_gt, hgate, hst, hlevel.not_gt, hoff]
  case fetDamageUngated =>
    intro n v s hn hgate hst hlevel hoff
    change execFetDamage .. = _
    simp [execFetDamage, fin, hn.not_gt, hgate, hst, hlevel.not_gt, hoff]
  case busOv =>
    rintro v t s hlevel hbusOv rfl
    change execBusOv .. = _
    simp [execBusOv, fin, hlevel.not_gt, hbusOv]
  case busOvRecover =>
    intro v s hv hbusOv
    change execBusOvRecover .. = _
    simp [execBusOvRecover, fin, hv.not_ge, hbusOv]
  case busUv =>
    intro v s hv hbusUv
    change execBusUv .. = _
    simp [execBusUv, fin, hv.not_ge, hbusUv]
  case busUvRecover =>
    intro v s hlevel hbusUv
    change execBusUvRecover .. = _
    simp [execBusUvRecover, fin, hlevel.not_gt, hbusUv]

/-- Settles O44: each write by the branch that its hypotheses take. -/
theorem slotControlsAct : Obligations.SlotControlsAct := by
  unfold Obligations.SlotControlsAct
  refine ⟨?buttonPressed, ?buttonBlinks, ?buttonCancels, ?buttonToggleExpiry, ?bayWakeChange, ?slotControlWrite,
    ?gateCtlWrite, ?slotLockWrite, ?vselLost, ?vselRestored⟩
  case buttonPressed =>
    rintro n t s hn rfl hst
    change execButtonPressed .. = _
    simp [execButtonPressed, fin, hn.not_gt, hst]
  case buttonBlinks =>
    rintro n t s hn rfl hst htoggleAt
    change execButtonPressed .. = _
    simp [execButtonPressed, fin, hn.not_gt, hst, htoggleAt]
  case buttonCancels =>
    rintro n k t s hn rfl hst htoggleAt
    change execButtonPressed .. = _
    simp [execButtonPressed, fin, hn.not_gt, hst, htoggleAt]
  case buttonToggleExpiry =>
    rintro n k t v s htoggleAt rfl rfl
    change execButtonToggleExpiry .. = _
    simp [execButtonToggleExpiry, fin, htoggleAt]
  case bayWakeChange =>
    intro n b s hn
    change execBayWakeChange .. = _
    simp [execBayWakeChange, fin, hn.not_gt]
  case slotControlWrite =>
    rintro u via v k l s rfl rfl hslot hvia
    change execSlotControlWrite .. = _
    have hreaches : ¬ (23 < prSlot (portRec s (u.toNat / 2)) (u.toNat % 2) ∨
        (!(vppbsOf u.toNat s).contains via.toNat) = true) := by
      rw [hvia]
      simp [hslot]
    simp only [execSlotControlWrite, fin, if_neg hreaches]
    split_ifs <;> rfl
  case gateCtlWrite =>
    intro n v s hn
    change execGateCtlWrite .. = _
    simp [execGateCtlWrite, fin, hn.not_gt]
  case slotLockWrite =>
    intro n s hn
    change execSlotLockWrite .. = _
    simp [execSlotLockWrite, fin, hn.not_gt]
  case vselLost =>
    rintro t s hvselLost rfl
    change execVselLost .. = _
    simp [execVselLost, fin, hvselLost]
  case vselRestored =>
    intro m s hvselLost
    change execVselRestored .. = _
    simp [execVselRestored, fin, hvselLost]

/-- A command on a slot that exists runs its action. -/
theorem slotCommand_exists {slot : BitVec 8} {s : State} (h : slot.toNat ≤ 23) (f : Nat → State → Reply × State) :
    slotCommand slot f s = f slot.toNat s :=
  if_neg (Nat.not_lt.mpr h)

/-- The first answer to a pending command has no payload. -/
theorem pend_payload (op : Nat) (r : Req) (f : BitVec 16 → State → State) (s : State) :
    (pend op r f s).1.payload = [] := by
  rw [pend]
  split <;> rfl

/-- Settles O45: `slotCommand_exists`, then each command's own branch. -/
theorem slotCommandsAct : Obligations.SlotCommandsAct := by
  unfold Obligations.SlotCommandsAct
  refine ⟨?slotStatus, ?slotPower, ?slotPowerOff, ?slotConfig, ?slotIndicator, ?slotClear, ?slotPerst⟩
  case slotStatus =>
    intro r n s h hn
    exact command_serves h (slotCommand_exists hn _) (fits r (by simp [ok]))
  case slotPower =>
    intro r n f s h hn hf hseated hlatched hhost hdamaged hcmds
    refine command_serves h ((slotCommand_exists hn _).trans ?_) (fits r (by simp [slotPend, pend_payload]))
    simp only [hf.not_gt, hseated, hlatched, hhost, hdamaged, hcmds, Bool.true_eq_false, and_false, List.isEmpty_nil,
      Bool.not_true, Bool.false_eq_true, if_false]
    rfl
  case slotPowerOff =>
    intro r n f s h hn hf hhost hcmds
    refine command_serves h ((slotCommand_exists hn _).trans ?_) (fits r (by simp [slotPend, pend_payload]))
    have hoff : ¬ (0 : BitVec 8) = 1 := by decide
    simp only [hf.not_gt, hhost, hcmds, hoff, false_and, List.isEmpty_nil, Bool.not_true, Bool.false_eq_true, if_false]
    rfl
  case slotConfig =>
    intro r n g k p s h hn hgate hlock
    refine command_serves h ((slotCommand_exists hn _).trans ?_) (fits r (by simp [ok]))
    simp only [hgate, hlock, Bool.true_eq_false, if_false]
  case slotIndicator =>
    intro r n a p f s h hn ha hp hf hhost
    refine command_serves h ((slotCommand_exists hn _).trans ?_) (fits r (by simp [ok]))
    simp only [ha.not_gt, hp.not_gt, hf.not_gt, hhost, if_false]
  case slotClear =>
    rintro r n w t s h hn hw hvout rfl
    refine command_serves h ((slotCommand_exists hn _).trans ?_) (fits r (by simp [ok]))
    simp only [hw.not_gt, hvout, if_false]
  case slotPerst =>
    intro r n h s hs hn hh
    exact command_serves hs ((slotCommand_exists hn _).trans (if_neg (Nat.not_lt.mpr hh))) (fits r (by simp [ok]))

end Sys2Proof.Machine

/-! The seal unit (19): the 0x0E Nib family. -/

namespace Sys2Proof.Machine

open Sys2Proof

/-- A command that a token authorises: with the nonce consumed, it goes on or answers the token's fault (R450). -/
theorem withToken_eq (kinds : List Nat) (tok : Token) (s : State) (f : State → Reply × State) :
    withToken kinds tok s f = (tokenFault kinds tok s).elim (f { s with sealu := { s.sealu with nonce := none } })
      (fun e => (rep e.1 e.2, raiseFree 14 1 (source 0 0) { s with sealu := { s.sealu with nonce := none } })) := by
  rw [withToken, checkToken]
  cases tokenFault kinds tok s <;> rfl

/-- A served command that a token authorises, `y` being what it does when the token passes. -/
theorem command_serves_token {op : Nat} {r : Req} {p : List Byte} {kinds : List Nat} {tok : Token} {s t : State}
    {x y : Reply × State} {f : State → Reply × State} {body : State → Reply × State} (h : serves op false r p s)
    (hbody : body s = withToken kinds tok s f) (ht : t = { s with sealu := { s.sealu with nonce := none } })
    (hf : f t = y) (hfits : y.1.payload.length ≤ 8176)
    (hx : x = (tokenFault kinds tok s).elim y (fun e => (rep e.1 e.2, raiseFree 14 1 (source 0 0) t))) :
    command op false r p body s = .next (settle (respond r op p x.1 x.2)) := by
  refine command_serves h (q := x.1) (t := x.2) ?_ (fits r ?_)
  · rw [hbody, withToken_eq, ← ht, hf, hx]
  · rw [hx]
    cases tokenFault kinds tok s with
    | none => exact hfits
    | some e => simp [rep]

/-- A key change answers without a payload. -/
theorem keyChange_payload (env : Env) (slot : BitVec 8) (op : Nat) (v : Option (BitVec 776)) (s : State) :
    (keyChange env slot op v s).1.payload = [] := by
  rw [keyChange]
  split <;> rfl

/-- Settles O46: each command's body takes the branch its hypotheses name, behind `command_serves_token` for a token. -/
theorem sealCommandsAct : Obligations.SealCommandsAct := by
  unfold Obligations.SealCommandsAct
  refine ⟨?sealStatus, ?sealNonce, ?nonceExpiry, ?lcTransition, ?ownerClaim, ?makerProvision, ?deviceCertInstall,
    ?makerUnlock, ?makerRelinquish, ?planKeyInstall, ?planKeyRevoke, ?debugConfig, ?colophonRead, ?colophonQuote,
    ?certRead⟩
  case sealStatus =>
    intro r s h
    exact command_serves h rfl (fits r (by simp [ok]))
  case sealNonce =>
    intro r env s h hentropy
    exact command_serves h (by simp [hentropy]) (fits r (by simp [ok]))
  case nonceExpiry =>
    rintro k e t s hnonce rfl
    change execNonceExpiry .. = _
    simp [execNonceExpiry, fin, hnonce]
  case lcTransition =>
    rintro r g l tok env t v x after s h hlc hrow hbusy ht rfl happend hfuse hx
    have hallowed : (!lcRow t.sealu.lc l tok.kind.toNat || planBusy t) = false := by
      subst ht
      exact Bool.or_eq_false_iff.mpr ⟨by rw [Bool.not_eq_false']; exact hrow, hbusy⟩
    exact command_serves_token h rfl ht
      (by simp only [hlc, hallowed, happend, hfuse, Bool.false_eq_true, if_false, if_true]) (by simp [ok]) hx
  case ownerClaim =>
    intro r key tok env i t v x s h hkey ht hslot happend hfuse hx
    have hslot' : freeOwnerSlot t = some i := by
      subst ht
      exact hslot
    exact command_serves_token h (if_neg (not_not.mpr hkey)) ht
      (by simp only [hslot', happend, hfuse, if_true]) (by simp [ok]) hx
  case makerProvision =>
    intro r ch env s h hentropy hfuse
    have hworks : ¬ s.sealu.entropyFail = true := by simp [hentropy]
    have hburns : ¬ env.fuse = 1 := by
      rw [hfuse]
      decide
    exact command_serves_maker h ((if_neg hworks).trans ((if_neg hburns).trans (if_neg (not_not.mpr hfuse))))
      (fits r (by simp [ok]))
  case deviceCertInstall =>
    intro r ch s h
    exact command_serves_maker h rfl (fits r (by simp [ok]))
  case makerUnlock =>
    intro r tok env t v x s h hmaker ht happend hx
    have hfree : ¬ (s.mgmt.maker ≠ none ∧ s.mgmt.maker ≠ some r.src) := fun hheld => hmaker.elim hheld.1 hheld.2
    exact command_serves_token h (if_neg hfree) ht (by simp only [happend]) (by simp [ok]) hx
  case makerRelinquish =>
    intro r s h
    exact command_serves_maker h rfl (fits r (by simp [ok]))
  case planKeyInstall =>
    intro r k key tok env t x s h harg hk hpoint ht hx
    have hgood : ¬ (4 ≤ k.toNat ∨ keyPoint key = false) := by simp [hk, hpoint]
    exact command_serves_token h (if_neg (not_not.mpr harg)) ht (if_neg hgood) (by simp [keyChange_payload]) hx
  case planKeyRevoke =>
    intro r k tok env t x s h harg hk ht hx
    exact command_serves_token h (if_neg (not_not.mpr harg)) ht (if_neg (Nat.not_le.mpr hk))
      (by simp [keyChange_payload]) hx
  case debugConfig =>
    rintro r tok f t x s h rfl hmask ht hx
    exact command_serves_token h (if_neg (not_not.mpr hmask)) ht rfl (by simp [ok]) hx
  case colophonRead =>
    rintro r q k rs p s h hmin hmax hring rfl hfits
    have hk := count_allowed hmin hmax
    refine command_serves h ((if_neg hk).trans ?_) hfits
    simp [hring, List.filterMap_map, Function.comp_def]
  case colophonQuote =>
    intro r n s h
    exact command_serves h rfl (fits r (by simp [ok]))
  case certRead =>
    intro r w o n s h hw hend hmin hmax
    have hn := count_allowed hmin hmax
    refine command_serves h ((if_neg (Nat.not_lt.mpr hw)).trans ((if_neg (Nat.not_lt.mpr hend)).trans (if_neg hn)))
      (fits r ?_)
    exact (List.length_take_le _ _).trans (by omega)

end Sys2Proof.Machine

/-! Attestation (19): colophon appends, device measurements and the SPDM responder. -/

namespace Sys2Proof.Machine

open Sys2Proof

/-- Settles O47: each event, and each request to a responder that answers, by its branch. -/
theorem attestationEventsAct : Obligations.AttestationEventsAct := by
  unfold Obligations.AttestationEventsAct
  refine ⟨?colophonAppendDone, ?entropyFail, ?deviceMeasurement, ?deviceMeasurementDone, ?version, ?capabilities,
    ?algorithms, ?digests, ?certificate, ?challenge, ?measurements, ?keyExchange, ?keyExchangeRefused, ?ideKm,
    ?endSession⟩
  case colophonAppendDone =>
    intro g s
    change execColophonAppendDone .. = _
    simp [execColophonAppendDone, fin]
  case entropyFail =>
    intro s
    change execEntropyFail .. = _
    simp [execEntropyFail, fin]
  case deviceMeasurement =>
    rintro u t s hfw hidle hhead rfl
    change execDeviceMeasurement .. = _
    have hu : BitVec.ofNat 7 u.toNat = u := by simp
    have hnext : s.mgmt.fw = .running ∧ s.sealu.spdm = [] ∧ s.mgmt.attachQ.head? = some u.toNat := ⟨hfw, hidle, hhead⟩
    simp only [execDeviceMeasurement, fin, if_pos hnext, askPartner, hu]
  case deviceMeasurementDone =>
    intro u m env x f t v w s hfind hf ht hv hnew happend
    change execDeviceMeasurementDone .. = _
    subst hf ht hv
    simp only [execDeviceMeasurementDone, fin, hfind, hnew, Option.map_none, reduceCtorEq, if_false, happend]
  case version =>
    intro tr e s hblank hunspent hfw
    change execSpdmRequest tr e .version s = _
    simp [execSpdmRequest, fin, hblank, hunspent, hfw]
  case capabilities =>
    intro tr e s hblank hunspent hfw
    change execSpdmRequest tr e .capabilities s = _
    simp [execSpdmRequest, fin, hblank, hunspent, hfw]
  case algorithms =>
    intro tr e s hblank hunspent hfw
    change execSpdmRequest tr e .algorithms s = _
    simp [execSpdmRequest, fin, hblank, hunspent, hfw]
  case digests =>
    intro tr e s hblank hunspent hfw
    change execSpdmRequest tr e .digests s = _
    simp [execSpdmRequest, fin, hblank, hunspent, hfw]
  case certificate =>
    rintro tr e o n p s hblank hunspent hfw rfl
    change execSpdmRequest tr e (.certificate o n) s = _
    simp [execSpdmRequest, fin, hblank, hunspent, hfw]
  case challenge =>
    rintro tr e n p s hblank hunspent hfw rfl
    change execSpdmRequest tr e (.challenge n) s = _
    simp [execSpdmRequest, fin, hblank, hunspent, hfw]
  case measurements =>
    rintro tr e k n p s hblank hunspent hfw rfl
    change execSpdmRequest tr e (.measurements k n) s = _
    simp [execSpdmRequest, fin, hblank, hunspent, hfw]
  case keyExchange =>
    rintro tr e n p s hblank hunspent hfw rfl hentropy
    change execSpdmRequest tr e (.keyExchange n) s = _
    simp [execSpdmRequest, fin, hblank, hunspent, hfw, hentropy]
  case keyExchangeRefused =>
    intro tr e n s hblank hunspent hfw hentropy
    change execSpdmRequest tr e (.keyExchange n) s = _
    simp [execSpdmRequest, fin, hblank, hunspent, hfw, hentropy]
  case ideKm =>
    intro tr e u k s hblank hunspent hfw hentropy
    change execSpdmRequest tr e (.ideKm u k) s = _
    simp [execSpdmRequest, fin, hblank, hunspent, hfw, hentropy]
  case endSession =>
    intro tr e s hblank hunspent hfw
    change execSpdmRequest tr e .endSession s = _
    simp [execSpdmRequest, fin, hblank, hunspent, hfw]

end Sys2Proof.Machine

/-! Boot, reset and images (20, 21). -/

namespace Sys2Proof.Machine

open Sys2Proof

/-- Settles O48: each reset and boot event by the branch that its hypotheses take. -/
theorem resetsAndBootAct : Obligations.ResetsAndBootAct := by
  unfold Obligations.ResetsAndBootAct
  refine ⟨?coldReset, ?coldReset2, ?warmReset, ?warmReset2, ?lifecycleReset, ?vaonLoss, ?vaonRestored, ?hbmReady,
    ?bootTimeWaitExpiry, ?persistedPlanCommit, ?exitComplete, ?exitComplete2⟩
  case coldReset =>
    intro b s hheld hpin
    change execColdReset .. = _
    simp [execColdReset, fin, hheld, hpin]
  case coldReset2 =>
    intro b s hheld hpin hresetDue hresetReady
    change execColdReset .. = _
    simp [execColdReset, fin, hheld, hpin, hresetDue, hresetReady]
  case warmReset =>
    intro b s hheld hresetDue hpin
    have hlive : ¬ (s.boot.held = true ∨ s.boot.resetDue = some 0) := by
      rw [hheld]
      exact not_or.mpr ⟨Bool.false_ne_true, hresetDue⟩
    change execWarmReset .. = _
    simp only [execWarmReset, fin, if_neg hlive, if_pos hpin]
  case warmReset2 =>
    intro b s hheld hpin hresetDue hresetReady
    change execWarmReset .. = _
    simp [execWarmReset, fin, hheld, hpin, hresetDue, hresetReady]
  case lifecycleReset =>
    intro b k s hlcReset hheld
    change execLifecycleReset .. = _
    simp [execLifecycleReset, fin, hlcReset, hheld]
  case vaonLoss =>
    rintro t s hheld rfl
    change execVaonLoss .. = _
    simp [execVaonLoss, fin, hheld]
  case vaonRestored =>
    intro b s hheld
    change execVaonRestored .. = _
    simp [execVaonRestored, fin, hheld]
  case hbmReady =>
    rintro m t l s hfw hstage rfl rfl
    change execHbmReady .. = _
    simp [execHbmReady, fin, hfw, hstage]
  case bootTimeWaitExpiry =>
    rintro k t s hwaitFrom htimeReady hstage rfl
    change execBootTimeWaitExpiry .. = _
    simp [execBootTimeWaitExpiry, fin, hwaitFrom, htimeReady, hstage]
  case persistedPlanCommit =>
    intro k env img d l t s hchain hfw hstage hshadow hwait hring ht
    have hgo : ¬ (s.mgmt.fw ≠ .running ∨ s.boot.stage.toNat < 5 ∨ s.plan.shadowState ≠ .empty ∨
        (timeReady s = false ∧ s.boot.waitFrom.isSome = true) ∨ s.sealu.ringFault = true) := by
      rintro (h | h | h | ⟨h1, h2⟩ | h)
      · exact h hfw
      · omega
      · exact h hshadow
      · rcases hwait with hready | hnone
        · exact absurd hready (by simp [h1])
        · simp [hnone] at h2
      · simp [hring] at h
    change execPersistedPlanCommit .. = _
    simp only [execPersistedPlanCommit, fin, hchain, if_neg hgo, ← ht]
    by_cases hplan : s.plan.hasPlan = false ∧ chainGood ((img, d) :: l) s = false
    · simp only [if_pos hplan, if_pos (Or.inl hplan)]
    · by_cases hsha : Config.sha384 img ≠ d
      · simp only [if_neg hplan, if_pos hsha, if_pos (Or.inr hsha)]
      · simp only [if_neg hplan, if_neg hsha, if_neg (not_or.mpr ⟨hplan, hsha⟩)]
        split <;> rfl
  case exitComplete =>
    intro b s hexiting hst hexitFront hrailsUp
    change execExitComplete .. = _
    simp [execExitComplete, fin, hexiting, hst, hexitFront, hrailsUp]
  case exitComplete2 =>
    intro b s hexiting hst
    change execExitComplete .. = _
    simp [execExitComplete, fin, hexiting, hst]

/-- A command of the recovery, while the boot ROM waits for an image: its body runs, and its reply leaves (R476). -/
theorem nib_recovery {op : Nat} {maker : Bool} {r : Req} {p : List Byte} {s t : State} {q : Reply}
    (hheld : s.boot.held = false) (hstage : s.boot.stage = 7) (hhears : romHears r s = true)
    (hin : inHand r op p s = true) (hop : romOp op = true) {body : State → Reply × State} (hbody : body s = (q, t)) :
    nib op maker r p body s = respond r op p q t := by
  have hlive : ¬ s.boot.held = true := by simp [hheld]
  rw [nib, if_neg hlive, if_pos hstage, nibRom, if_pos hhears, accept_inHand hin]
  simp only [hop, if_true, hbody]

/-- While firmware runs, the two regions of the flash can be written. -/
theorem regionOk_flash {s : State} {g : BitVec 8} (hstage : s.boot.stage ≠ 7) (hg : g.toNat < 2) :
    ¬ regionOk s g = false := by
  rw [regionOk, if_neg hstage, decide_eq_true hg]
  decide

/-- While the boot ROM waits, the recovery region can be written. -/
theorem regionOk_recovery {s : State} (hstage : s.boot.stage = 7) : ¬ regionOk s 2 = false := by
  rw [regionOk, if_pos hstage]
  decide

/-- Image data of an allowed length, at the start or where the bytes before end, and within its region. -/
theorem imageData_fits {d old : List Byte} {o : BitVec 32} {size : Nat} (hmin : 1 ≤ d.length) (hmax : d.length ≤ 4096)
    (hnext : o = 0 ∨ o.toNat = old.length) (hend : o.toNat + d.length ≤ size) :
    ¬ (d.length = 0 ∨ 4096 < d.length) ∧ ¬ ((o ≠ 0 ∧ o.toNat ≠ old.length) ∨ size < o.toNat + d.length) := by
  refine ⟨by omega, ?_⟩
  rintro (⟨hstart, hgap⟩ | hover)
  · exact hnext.elim hstart hgap
  · omega

/-- IMAGE_SELECT of a flash region that firmware carries out, whether the region's image can be chosen or not. -/
theorem exec_imageSelect {r : Req} {g : BitVec 8} {v : BitVec 24} {s : State}
    (h : serves 0x0F11 false r (wBytes 1 g ++ wBytes 3 v) s) (hg : g.toNat < 2) :
    exec (.imageSelect r g v) s = .next (settle (recoveryBoot (if selectOk s g.toNat then respond r 0x0F11
      (wBytes 1 g ++ wBytes 3 v) ok (nameActive g.toNat s) else respond r 0x0F11 (wBytes 1 g ++ wBytes 3 v) (rep
      0x0F11) s))) := by
  have hregion := regionOk_flash (stage_of_serves h) hg
  have hflash : ¬ g = 2 := by
    rintro rfl
    exact absurd hg (by decide)
  cases hselect : selectOk s g.toNat with
  | true =>
    have hgood : ¬ selectOk s g.toNat = false := by simp [hselect]
    exact congrArg (fun t => fin (recoveryBoot t))
      (nib_serves_fits h ((if_neg hregion).trans ((if_neg hgood).trans (if_neg hflash))) (by simp [ok]))
  | false =>
    exact congrArg (fun t => fin (recoveryBoot t))
      (nib_serves_fits h ((if_neg hregion).trans (if_pos hselect)) (by simp [rep]))

/-- Settles O49: each command by what firmware or the boot ROM answers, and a sample by its threshold. -/
theorem imagesAndTemperatureAct : Obligations.ImagesAndTemperatureAct := by
  unfold Obligations.ImagesAndTemperatureAct
  refine ⟨?imageWrite, ?imageWriteRecovery, ?imageSelect, ?imageSelectEither, ?imageSelectRecovery, ?thermalSample⟩
  case imageWrite =>
    intro r g o d s h hregion hmin hmax hnext hend
    obtain ⟨hroom, hplace⟩ := imageData_fits hmin hmax hnext hend
    exact command_serves h (by simp only [hregion, Bool.true_eq_false, if_false, if_neg hroom, if_neg hplace])
      (fits r (by simp [ok]))
  case imageWriteRecovery =>
    intro r o d s hheld hstage hhears hin hmin hmax hnext hend
    obtain ⟨hroom, hplace⟩ := imageData_fits hmin hmax hnext hend
    exact congrArg fin (nib_recovery hheld hstage hhears hin rfl
      ((if_neg (regionOk_recovery hstage)).trans ((if_neg hroom).trans (if_neg hplace))))
  case imageSelect =>
    intro r g v s h hg hselect
    rw [exec_imageSelect h hg, if_pos hselect]
  case imageSelectEither =>
    intro r g v s h hg
    exact exec_imageSelect h hg
  case imageSelectRecovery =>
    intro r v s hheld hstage hhears hin
    cases hselect : selectOk s 2 with
    | true =>
      have hgood : ¬ selectOk s 2 = false := by simp [hselect]
      exact congrArg (fun t => fin (recoveryBoot t)) (nib_recovery hheld hstage hhears hin rfl
        ((if_neg (regionOk_recovery hstage)).trans ((if_neg hgood).trans rfl)))
    | false =>
      exact congrArg (fun t => fin (recoveryBoot t)) (nib_recovery hheld hstage hhears hin rfl
        ((if_neg (regionOk_recovery hstage)).trans (if_pos hselect)))
  case thermalSample =>
    rintro c l a b v t s hheld hst rfl
    change execThermalSample .. = _
    simp [execThermalSample, fin, hheld, hst]

end Sys2Proof.Machine

/-! Fabric time, counters, dumps and heat (14). -/

namespace Sys2Proof.Machine

open Sys2Proof

/-- The period that the width of a pulse of TSYNC stands for (R340), while the pulse is one of the two. -/
theorem pulsePeriod_pos {h : Nat} (hh : 640000 ≤ h ∧ h ≤ 960000 ∨ 1920000 ≤ h ∧ h ≤ 2880000) :
    ¬ (if 640000 ≤ h ∧ h ≤ 960000 then secTicks else if 1920000 ≤ h ∧ h ≤ 2880000 then 2 ^ 33 else 0) = 0 := by
  by_cases hsecond : 640000 ≤ h ∧ h ≤ 960000
  · rw [if_pos hsecond]
    decide
  · rw [if_neg hsecond, if_pos (hh.resolve_left hsecond)]
    decide

/-- Settles O50: each event and command by the branch that its hypotheses take. -/
theorem timeSourcesAndCommandsAct : Obligations.TimeSourcesAndCommandsAct := by
  unfold Obligations.TimeSourcesAndCommandsAct
  refine ⟨?refSwitched, ?ref25Restored, ?ref25Lost, ?timeSourceChange, ?timeSourceRevert, ?timeOffsetMeasurement,
    ?tsyncInPulse, ?pulseCounted, ?pulseBad, ?tsyncOutPulse, ?timeStatus, ?timeConfig, ?timeSet⟩
  case refSwitched =>
    intro i s hbit
    change execRefSwitched .. = _
    simp [execRefSwitched, fin, hbit]
  case ref25Restored =>
    rintro i t s hbit rfl hpresent
    have hwas : ¬ bit s.tele.refPresent i.toNat = true := by simp [hbit]
    change execRef25Restored .. = _
    exact (if_neg hwas).trans (if_pos hpresent)
  case ref25Lost =>
    rintro i t s hbit rfl habsent
    have hwas : ¬ bit s.tele.refPresent i.toNat = true := by simp [hbit]
    change execRef25Restored .. = _
    exact (if_neg hwas).trans (if_neg (ne_true_of_eq_false habsent))
  case timeSourceChange =>
    rintro t s hsource rfl hother
    change execTimeSourceChange .. = _
    exact (if_neg hsource).trans (if_neg hother)
  case timeSourceRevert =>
    intro a s hbetterSince hbetter ha
    change execTimeSourceRevert .. = _
    simp [execTimeSourceRevert, fin, hbetterSince, hbetter, ha.not_gt]
  case timeOffsetMeasurement =>
    intro k f b s hsource hk hforward hback
    change execTimeOffsetMeasurement .. = _
    simp [execTimeOffsetMeasurement, fin, hsource, hk.not_ge, hforward, hback]
  case tsyncInPulse =>
    rintro h t s hmin hmax hsource rfl hstill
    change execTsyncInPulse .. = _
    have hperiod : (if 640000 ≤ h.toNat ∧ h.toNat ≤ 960000 then secTicks
        else if 1920000 ≤ h.toNat ∧ h.toNat ≤ 2880000 then 2 ^ 33 else 0) = secTicks := if_pos ⟨hmin, hmax⟩
    refine (if_neg (pulsePeriod_pos (.inl ⟨hmin, hmax⟩))).trans ((if_pos hsource).trans ?_)
    rw [hperiod]
    rfl
  case pulseCounted =>
    rintro h t s hwidth hsource rfl
    change execTsyncInPulse .. = _
    exact (if_neg (pulsePeriod_pos hwidth)).trans (if_neg hsource)
  case pulseBad =>
    rintro h t s hwidth rfl
    have hsecond : ¬ (640000 ≤ h.toNat ∧ h.toNat ≤ 960000) := by omega
    have hmark : ¬ (1920000 ≤ h.toNat ∧ h.toNat ≤ 2880000) := by omega
    change execTsyncInPulse .. = _
    exact if_pos ((if_neg hsecond).trans (if_neg hmark))
  case tsyncOutPulse =>
    rintro m k t s hout rfl rfl rfl
    change execTsyncOutPulse .. = _
    refine (if_neg hout).trans ?_
    simp only [decide_eq_true_eq]
    rfl
  case timeStatus =>
    rintro r d s h rfl
    exact command_serves h rfl (fits r (by simp [ok]))
  case timeConfig =>
    rintro r sources_ o ref rv as_ t u s h htimeConfigBad rfl rfl
    exact command_serves h (by simp [htimeConfigBad]) (fits r (by simp [ok]))
  case timeSet =>
    intro r x s h hfrozen
    exact command_serves h (by simp [hfrozen]) (fits r (by simp [ok]))

/-- A dump is taken while none is being written, or its edge has been cut, and its staging slot is not lost (R347). -/
theorem slot_free {α β : Type} {writing : Option α} {edge : Option β} {lost : Bool}
    (hfree : writing = none ∨ edge ≠ none) (hstays : lost = false) :
    ¬ ((writing.isSome = true ∧ edge = none) ∨ lost = true) := by
  rintro (⟨hwriting, hedge⟩ | hlost)
  · exact hfree.elim (fun hnone => by simp [hnone] at hwriting) (fun hsome => hsome hedge)
  · simp [hstays] at hlost

/-- Settles O51: each event by the branch that its hypotheses take, and what a dump and a halving write. -/
theorem counterAndDumpEventsAct : Obligations.CounterAndDumpEventsAct := by
  unfold Obligations.CounterAndDumpEventsAct
  refine ⟨?counterClear, ?counterWindowEnd, ?dumpLatch, ?dumpTaken, ?dumpWriteDone, ?dumpHostWrite,
    ?dumpHostWriteDone, ?heatAgeSweep, ?ageDue, ?heatAged, ?heatSweepDone, ?heatClearDone⟩
  case counterClear =>
    intro b s hb
    change execCounterClear .. = _
    exact if_neg hb.not_gt
  case counterWindowEnd =>
    rintro w t s hwindow rfl
    change execCounterWindowEnd .. = _
    simp [execCounterWindowEnd, fin, hwindow]
  case dumpLatch =>
    rintro k t u s hdump rfl rfl rfl hfree hstays
    change execDumpLatch .. = _
    exact (if_neg hdump).trans (if_neg (slot_free hfree hstays))
  case dumpTaken =>
    intro k s
    rfl
  case dumpWriteDone =>
    intro d s hdumpWriting
    change execDumpWriteDone .. = _
    simp [execDumpWriteDone, fin, hdumpWriting]
  case dumpHostWrite =>
    rintro q l d t s hdue hwriting hfind rfl
    have hidle : ¬ s.tele.hostWriting.isSome = true := by simp [hwriting]
    change execDumpHostWrite .ok s = _
    simp only [execDumpHostWrite, fin, hdue, if_neg hidle, hfind, memRead, eccBad, Bool.false_eq_true, if_false]
  case dumpHostWriteDone =>
    intro s
    change execDumpHostWriteDone .. = _
    simp [execDumpHostWriteDone, fin]
  case heatAgeSweep =>
    rintro t u s hperiod rfl rfl
    change execHeatAgeSweep .. = _
    refine (if_neg hperiod).trans ?_
    by_cases haged : (reach (ageInstant s) s).tele.aged = true
    · exact (if_pos haged).trans (congrArg fin (if_pos (Or.inl haged)).symm)
    · by_cases hsweeping : (reach (ageInstant s) s).tele.sweeping = true
      · exact (if_neg haged).trans ((if_pos hsweeping).trans (congrArg fin (if_pos (Or.inr hsweeping)).symm))
      · exact (if_neg haged).trans
          ((if_neg hsweeping).trans (congrArg fin (if_neg (not_or.mpr ⟨haged, hsweeping⟩)).symm))
  case ageDue =>
    intro s
    rfl
  case heatAged =>
    rintro s u rfl
    rfl
  case heatSweepDone =>
    intro s
    change execHeatSweepDone .. = _
    simp [execHeatSweepDone, fin]
  case heatClearDone =>
    intro k i n l s hheatClears
    change execHeatClearDone .. = _
    simp [execHeatClearDone, fin, hheatClears]

end Sys2Proof.Machine

/-! Telemetry (14): the 0x0A Nib family. -/

namespace Sys2Proof.Machine

open Sys2Proof

/-- The bytes of a counter set: its cycles and its eight counters. -/
theorem csBytes_length (c : CSet) : (csBytes c).length = 72 := by
  simp [csBytes]

/-- Settles O52: each command's body takes the branch that its hypotheses name. -/
theorem telemetryCommandsAct : Obligations.TelemetryCommandsAct := by
  unfold Obligations.TelemetryCommandsAct
  refine ⟨?csConfig, ?csRead, ?teleWindowArm, ?dumpConfig, ?dumpRead, ?heatConfig, ?heatRead, ?heatClear,
    ?traceConfig, ?traceRead⟩
  case csConfig =>
    intro r b ctl ev fs fa fc s h hb hall
    have hgood : (List.range 8).find? (fun k => !eventAllowed b.toNat (fnat (fld ev (64 * k) 64) 0 4)) = none :=
      List.find?_eq_none.mpr fun k hk => by simpa using List.all_eq_true.mp hall k hk
    exact command_serves h (by simp only [if_neg hb.not_gt, hgood]) (fits r (by simp [ok]))
  case csRead =>
    rintro r b t s h hb rfl
    have hread : csUe .ok b.toNat (min (0 : BitVec 4).toNat 8) (teleWake s) = teleWake s := rfl
    exact command_serves h (by simp only [if_neg hb.not_gt, hread]) (fits r (by simp [ok, csBytes_length]))
  case teleWindowArm =>
    intro r b n s h hnow hn hwindow hroom
    have hfree : ¬ s.tele.window.isSome = true := by simp [hwindow]
    refine command_serves h ?_ (fits r (by simp [rep]))
    exact (if_neg hnow.not_ge).trans ((if_neg hn.not_gt).trans ((if_neg hfree).trans (pend_room hroom _)))
  case dumpConfig =>
    intro r k f p sl a bm s h hdumpConfigBad
    exact command_serves h (by simp [hdumpConfigBad]) (fits r (by simp [ok]))
  case dumpRead =>
    intro r q o n d s h hmin hmax hfind hstays hend
    have hn := count_allowed hmin hmax
    refine command_serves h ?_ (fits r ?_)
    · simp only [if_neg hn, hfind, hstays, Bool.false_eq_true, if_false, if_neg hend.not_gt, memRead, eccBad]
    · have htake := List.length_take_le n.toNat (d.bytes.drop o.toNat)
      simp only [ok]
      omega
  case heatConfig =>
    intro r en a s h hen ha
    have hperiod : ¬ (a ≠ 0 ∧ (a.toNat < 1000 ∨ 3600000 < a.toNat)) := by
      rintro ⟨hne, hout⟩
      rcases ha with hzero | hin
      · exact hne hzero
      · omega
    exact command_serves h ((if_neg hen.not_gt).trans (if_neg hperiod)) (fits r (by simp [ok]))
  case heatRead =>
    intro r i n s h hend hmin hmax
    have hn := count_allowed hmin hmax
    have hread : heatUe .ok (0 : BitVec 32).toNat s = s := rfl
    refine command_serves h ?_ (fits r ?_)
    · simp only [if_neg hend.not_gt, if_neg hn, hread, ite_self]
    · simp [ok]
      omega
  case heatClear =>
    intro r i n s h hend hroom
    exact command_serves h ((if_neg hend.not_gt).trans (pend_room hroom _)) (fits r (by simp [rep]))
  case traceConfig =>
    intro r sz md pt cm xm b n sf pr s h hgood
    have hgood' : traceConfigBad s 1#8 sz md pt = none := hgood
    have hon : ¬ (1#8 : BitVec 8) = 0 := by decide
    exact command_serves h (by simp only [hgood', if_neg hon]) (fits r (by simp [ok]))
  case traceRead =>
    intro r i n s h hmin hmax hhas
    have hn := count_allowed hmin hmax
    refine command_serves h ?_ (fits r ?_)
    · simp only [if_neg hn, hhas, Bool.true_eq_false, if_false, memRead, eccBad, Bool.false_eq_true]
    · simp [ok]
      omega

end Sys2Proof.Machine

/-! Memory integrity and the fault collector (15, 16). -/

namespace Sys2Proof.Machine

open Sys2Proof

/-- The management SRAMs are no HBM stack. -/
theorem isHbm_of_sram {t : Nat} (h : t ≤ 7) : isHbm t = false :=
  decide_eq_false (by omega)

/-- Settles O53: each event by the branch that its hypotheses take. -/
theorem memoryIntegrityActs : Obligations.MemoryIntegrityActs := by
  unfold Obligations.MemoryIntegrityActs
  refine ⟨?patrolScrubStep, ?hbmWriteback, ?rowRemapped, ?remapLogAppend, ?remapLogBegins, ?ifetchUe, ?ifetchKept,
    ?dsramUe, ?channelRetrain, ?stackLost, ?stackKept⟩
  case patrolScrubStep =>
    rintro t check m w s ht rfl rfl hon hlit
    have hgo : ¬ (9 < t.toNat ∨ (memType s t.toNat).scrubOn = false ∨
        (isHbm t.toNat = true ∧ (stackOf s (t.toNat - 8)).st ≠ .up)) := by
      rw [hon, isHbm_of_sram ht]
      simp
      omega
    change execPatrolScrubStep .. = _
    exact (if_neg hgo).trans (if_neg (ne_true_of_eq_false hlit))
  case hbmWriteback =>
    intro stack w l s hwritebacks
    change execHbmWriteback .. = _
    simp [execHbmWriteback, fin, hwritebacks]
  case rowRemapped =>
    rintro stack x l m keep freed t s rfl hrowCopies hkeep hfreed rfl
    change execRowRemapped .. = _
    simp [execRowRemapped, fin, hrowCopies, hkeep, hfreed]
  case remapLogAppend =>
    intro x l s hdue hlog hroom
    change execRemapLogAppend .. = _
    simp only [execRemapLogAppend, fin, hdue, if_neg hlog, remapHalf, if_pos hroom]
  case remapLogBegins =>
    intro x l s hdue hlog
    have hroom : [remapHeader s s.boot.flash.remapGen].length < remapHalf := by simp [remapHalf]
    change execRemapLogAppend .. = _
    simp only [execRemapLogAppend, fin, hdue, if_pos hlog, if_pos hroom]
    rfl
  case ifetchUe =>
    rintro page a addr w t m s hfw hentry rfl rfl rfl
    change execIfetchUe .. = _
    simp [execIfetchUe, fin, hfw, hentry]
  case ifetchKept =>
    rintro page a addr w n s hfw hentry rfl
    change execIfetchUe .. = _
    simp [execIfetchUe, fin, hfw, hentry]
  case dsramUe =>
    intro a addr s
    change execDsramUe .. = _
    simp [execDsramUe, fin]
  case channelRetrain =>
    rintro stack ch restored t s hst rfl
    change execChannelRetrain stack ch restored s = _
    refine (if_neg (not_not.mpr hst)).trans ?_
    cases restored <;> rfl
  case stackLost =>
    intro stack s
    change execStackLost stack true s = _
    simp [execStackLost, fin]
  case stackKept =>
    intro stack s hstack
    change execStackLost stack false s = _
    simp [execStackLost, fin, hstack.not_gt]

/-- Only the collector's own block has the codes of its rewritten records. -/
theorem recKey_ne_recordUe {b : BitVec 5} (c : BitVec 8) (h : b ≠ 15) : recKey b.toNat c.toNat ≠ 0x0F10 := by
  intro hkey
  have hb : b.toNat = 15 := by
    rw [recKey] at hkey
    omega
  exact h (BitVec.eq_of_toNat_eq hb)

/-- An automatic exit is due of a record that is isolated, whose configuration exits by itself and whose sources it can
release, outside safe-stop (R383). -/
theorem autoExit_due {isolated auto releases stopped : Bool} (hisolated : isolated = true) (hauto : auto = true)
    (hreleases : releases = true) (hrunning : stopped = false) :
    ¬ (isolated = false ∨ auto = false ∨ releases = false ∨ stopped = true) := by
  simp [hisolated, hauto, hreleases, hrunning]

/-- Settles O54: each event by the branch that its hypotheses take, and what an acknowledgement leaves. -/
theorem faultEventsAct : Obligations.FaultEventsAct := by
  unfold Obligations.FaultEventsAct
  refine ⟨?faultOccurrence, ?faultLogAppend, ?autoExit, ?autoExitExhausted, ?faultAckWrite, ?acked,
    ?ackedAtOccurrence, ?ackIsolated, ?injectedWrite, ?injectedWriteMissed, ?injectExpired⟩
  case faultOccurrence =>
    intro b c src detail s hdefined hb
    have hother : ¬ (recKey b.toNat c.toNat = 0x0F10 ∧ detail.toNat < 5120) := fun h => recKey_ne_recordUe c hb h.1
    change execFaultOccurrence .. = _
    exact (if_pos hdefined).trans
      (congrArg (fun t => fin (raise b.toNat c.toNat (srcOf16 src) detail t)) (if_neg hother))
  case faultLogAppend =>
    intro x l s hdue hroom hloss
    have hkept : ¬ logCap ≤ s.fault.log.length := hroom.not_ge
    change execFaultLogAppend .. = _
    simp only [execFaultLogAppend, fin, hdue, if_neg hkept, hloss]
  case autoExit =>
    rintro b c k t s rfl hisolated hauto hreleases hsafe hleft rfl
    change execAutoExit .. = _
    exact (if_neg (autoExit_due hisolated hauto hreleases hsafe)).trans (if_neg hleft.not_ge)
  case autoExitExhausted =>
    rintro b c k t s rfl hisolated hauto hreleases hsafe hspent hfirst rfl
    change execAutoExit .. = _
    exact (if_neg (autoExit_due hisolated hauto hreleases hsafe)).trans
      ((if_pos hspent).trans (if_neg (ne_true_of_eq_false hfirst)))
  case faultAckWrite =>
    intro b c s hb hc
    change execFaultAckWrite .. = _
    exact if_pos ⟨hb, hc⟩
  case acked =>
    rintro k x s rfl hfree hnone
    rw [ackRec_free hfree, ackedRec_of_no_occurrence_now hnone]
  case ackedAtOccurrence =>
    rintro k x s rfl hfree hvalid hnow hcount
    rw [ackRec_free hfree, ackedRec]
    have hagain : (faultRec s.fault k).valid = true ∧ (faultRec s.fault k).lastFull = s.tele.time ∧
        (faultRec s.fault k).clkCount ≠ 0 := ⟨hvalid, hnow, hcount⟩
    simp only [if_pos hagain]
  case ackIsolated =>
    intro k s hisolated
    exact ackRec_isolated hisolated
  case injectedWrite =>
    rintro t m w n s hinj hnow rfl rfl rfl rfl
    change execInjectedWrite .. = _
    simp [execInjectedWrite, fin, hinj, hnow.not_ge]
  case injectedWriteMissed =>
    intro s hinj hinjUntil
    change execInjectedWrite .. = _
    simp [execInjectedWrite, fin, hinj, hinjUntil.not_gt]
  case injectExpired =>
    rintro t s hinj rfl
    change execInjectExpired .. = _
    simp [execInjectExpired, fin, hinj]

/-- FAULT_LIST examines as many valid records as it is asked for, at most. -/
theorem listFrom_length_le (s : State) (n k : Nat) : (listFrom s n k).1.length ≤ n :=
  List.length_take_le _ _

/-- Settles O55: `recCommand_exists`, then each command's own branch. -/
theorem faultCommandsAct : Obligations.FaultCommandsAct := by
  unfold Obligations.FaultCommandsAct
  refine ⟨?faultRead, ?faultList, ?faultAck, ?faultRelease, ?faultConfig, ?faultLogRead, ?injectMem, ?injectRaise,
    ?injectStatus⟩
  case faultRead =>
    rintro r b c x s h hb hc rfl
    exact command_serves h (recCommand_exists (Nat.lt_succ_of_le hb) hc _ s) (fits r (by simp [ok]))
  case faultList =>
    rintro r f n l s h hmin hmax rfl
    refine command_serves h (if_neg (count_allowed hmin hmax)) (fits r ?_)
    have hlen := listFrom_length_le s n.toNat f.toNat
    simp [ok]
    omega
  case faultAck =>
    intro r b c s h hb hc hfree
    exact command_serves h ((recCommand_exists (Nat.lt_succ_of_le hb) hc _ s).trans
      (if_neg (ne_true_of_eq_false hfree))) (fits r (by simp [ok]))
  case faultRelease =>
    intro r b c s h hb hc hisolated
    exact command_serves h ((recCommand_exists (Nat.lt_succ_of_le hb) hc _ s).trans (if_pos hisolated))
      (fits r (by simp [ok]))
  case faultConfig =>
    intro r b c w s h hb hc hlevel hceiling
    have hrange : ¬ (4 < w.toNat % 8 ∨ 4 < w.toNat / 8 % 8) := by omega
    exact command_serves h ((recCommand_exists (Nat.lt_succ_of_le hb) hc _ s).trans (if_neg hrange))
      (fits r (by simp [ok]))
  case faultLogRead =>
    intro r i n s h hend hmin hmax
    have hstart : ¬ s.fault.log.length ≤ i.toNat := by omega
    have hn : ¬ (n = 0 ∨ 64 < n.toNat ∨ s.fault.log.length < i.toNat + n.toNat) := by
      rw [← or_assoc]
      exact not_or.mpr ⟨count_allowed hmin hmax, hend.not_gt⟩
    refine command_serves h ((if_neg hstart).trans (if_neg hn)) (fits r ?_)
    simp [ok]
    omega
  case injectMem =>
    intro r type mask unit timeout addr s h htype hunit haddr hinj
    have hidle : ¬ (s.mem.inj = .armed ∧ now s < s.mem.injUntil.toNat) := fun harmed => hinj harmed.1
    refine command_serves h ?_ (fits r (by split <;> simp [ok, rep]))
    refine (if_neg htype.not_gt).trans ?_
    cases hholds : Config.memHolds type.toNat unit addr with
    | true =>
      simp only [hunit, haddr, decide_true, Bool.and_self, Bool.not_true, Bool.true_eq_false, Bool.false_eq_true,
        if_neg hidle, if_false, if_true]
    | false => simp only [Bool.and_false, Bool.not_false, Bool.false_eq_true, if_false, if_true]
  case injectRaise =>
    intro r b c src detail s h hb hc
    exact command_serves h (recCommand_exists (Nat.lt_succ_of_le hb) hc _ s) (fits r (by simp [ok]))
  case injectStatus =>
    intro r s h
    exact command_serves h rfl (fits r (by simp [ok]))

end Sys2Proof.Machine

/-! Register writes through the Device Control Window (00 R9, 13 R312). -/

namespace Sys2Proof.Machine

open Sys2Proof

/-- A register write of another size than 4 and 8 is a write into a buffer, aligned to its size, or nothing. -/
theorem execRegisterWrite_buffer {o : BitVec 26} {k : BitVec 7} (v : BitVec 512) (s : State) (h4 : k ≠ 4) (h8 : k ≠ 8) :
    execRegisterWrite o k v s =
      if bufferArea o.toNat = true ∧ (k.toNat = 1 ∨ k.toNat = 2 ∨ k.toNat = 16 ∨ k.toNat = 32 ∨ k.toNat = 64) ∧
        o.toNat % k.toNat = 0 then fin (bufferWrite o.toNat k.toNat v s) else fin s := by
  have hnot4 : ¬ k.toNat = 4 := fun h => h4 (BitVec.eq_of_toNat_eq h)
  have hnot8 : ¬ k.toNat = 8 := fun h => h8 (BitVec.eq_of_toNat_eq h)
  exact (if_neg hnot8).trans (if_neg hnot4)

/-- Settles O56: an access by its size and alignment, and each register by its offset. -/
theorem registersAreWritten : Obligations.RegistersAreWritten := by
  unfold Obligations.RegistersAreWritten
  refine ⟨?registerWrite, ?misaligned8, ?lowHalf, ?highHalf, ?misaligned4, ?buffer, ?outside, ?readOnly, ?alarm,
    ?interrupts, ?scrub, ?warning⟩
  case registerWrite =>
    intro o v s ho
    change execRegisterWrite o 8#7 v s = _
    exact if_pos ho
  case misaligned8 =>
    intro o v s ho
    change execRegisterWrite o 4#7 v s = _
    simp [execRegisterWrite, fin, ho]
  case lowHalf =>
    intro o v s ho
    change execRegisterWrite o 4#7 v s = _
    simp [execRegisterWrite, fin, ho]
  case highHalf =>
    intro o v s ho
    change execRegisterWrite o 8#7 v s = _
    simp [execRegisterWrite, fin, ho]
  case misaligned4 =>
    intro o v s ho
    have hlow : ¬ o.toNat % 8 = 0 := by omega
    have hhigh : ¬ o.toNat % 8 = 4 := by omega
    change execRegisterWrite o 4#7 v s = _
    exact (if_neg hlow).trans (if_neg hhigh)
  case buffer =>
    intro o k v s harea hk ho
    have hsize : k.toNat = 1 ∨ k.toNat = 2 ∨ k.toNat = 16 ∨ k.toNat = 32 ∨ k.toNat = 64 := by
      rcases hk with rfl | rfl | rfl | rfl | rfl <;> decide
    have h4 : k ≠ 4 := by
      rintro rfl
      exact absurd hk (by decide)
    have h8 : k ≠ 8 := by
      rintro rfl
      exact absurd hk (by decide)
    change execRegisterWrite .. = _
    exact (execRegisterWrite_buffer v s h4 h8).trans (if_pos ⟨harea, hsize, ho⟩)
  case outside =>
    intro o k v s houtside h4 h8
    have hnone : ¬ (bufferArea o.toNat = true ∧
        (k.toNat = 1 ∨ k.toNat = 2 ∨ k.toNat = 16 ∨ k.toNat = 32 ∨ k.toNat = 64) ∧ o.toNat % k.toNat = 0) := by
      rintro ⟨harea, -, haligned⟩
      exact houtside.elim (ne_false_of_eq_true harea) (fun h => h haligned)
    change execRegisterWrite .. = _
    exact (execRegisterWrite_buffer v s h4 h8).trans (if_neg hnone)
  case readOnly =>
    intro v m s
    simp [regWrite, globalWrite, teleWrite]
  case alarm =>
    intro v s
    simp [regWrite, pmuWrite]
  case interrupts =>
    intro v s
    simp [regWrite, globalWrite]
  case scrub =>
    intro v s
    simp [regWrite, faultWrite]
  case warning =>
    intro v s
    simp [regWrite, globalWrite]

end Sys2Proof.Machine

/-! Power states, domains, entries and wakes, and rails (17). -/

namespace Sys2Proof.Machine

open Sys2Proof

/-- Settles O57: each event by the branch that its hypotheses take, and the start of a restore. -/
theorem domainsAct : Obligations.DomainsAct := by
  unfold Obligations.DomainsAct
  refine ⟨?domainIdleEntry, ?domainIdleRefused, ?domainWake, ?restoreStarts, ?bankWake, ?domainRestoreStep,
    ?domainRestoreStep2, ?domainRestoreStep3, ?domainRestoreStep4, ?domainRestoreStep5, ?domainRestoreStep6,
    ?retentionReloadDone, ?wakeTimeout, ?wakeTimeoutAgain, ?retentionReloadDone2⟩
  case domainIdleEntry =>
    rintro d n t s rfl hd hrunning hst hstep hauto hlowestOf hmayIdle rfl
    change execDomainIdleEntry d false s = _
    simp [execDomainIdleEntry, fin, hd.not_gt, hrunning, hst, hstep, hauto, hlowestOf, hmayIdle]
  case domainIdleRefused =>
    rintro d n t u s rfl hd hrunning hst hstep hauto hlowest hidle rfl rfl
    have hleaves : ¬ (219 < d.toNat ∨ running s = false ∨ (domain s d.toNat).st ≠ .on ∨ (domain s d.toNat).step ≠ 0 ∨
        (domain s d.toNat).auto = false ∨ lowestOf s d.toNat = 0 ∨ mayIdle s d.toNat = false) := by
      simp [hd.not_gt, hrunning, hst, hstep, hauto, hlowest, hidle]
    change execDomainIdleEntry d true s = _
    exact if_neg hleaves
  case domainWake =>
    intro d s hd hrunning
    have hgo : ¬ (219 < d.toNat ∨ running s = false) := by simp [hd.not_gt, hrunning]
    change execDomainWake .. = _
    exact if_neg hgo
  case restoreStarts =>
    intro d s hst hstep hdead hmemory hplane
    have hgo : ¬ ((domain s d).st = .on ∨ (domain s d).step ≠ 0 ∨ (domain s d).dead = true) := by
      simp [hst, hstep, hdead]
    exact (if_neg hgo).trans ((if_neg fun h => hmemory h.1).trans (if_neg hplane))
  case bankWake =>
    intro b s hrunning hfreeIn hst
    change execBankWake false s = _
    simp [execBankWake, fin, hrunning, hfreeIn.not_ge, hst]
  case domainRestoreStep =>
    intro d bad s hd hstep
    change execDomainRestoreStep .. = _
    simp [execDomainRestoreStep, fin, hd.not_gt, hstep]
  case domainRestoreStep2 =>
    intro d bad s hd hstep
    change execDomainRestoreStep .. = _
    simp [execDomainRestoreStep, fin, hd.not_gt, hstep]
  case domainRestoreStep3 =>
    intro d bad t s hd hstep hgroupOf ht
    change execDomainRestoreStep .. = _
    simp [execDomainRestoreStep, fin, hd.not_gt, hstep, hgroupOf, ht]
  case domainRestoreStep4 =>
    intro d bad s hd hstep hgroupOf
    change execDomainRestoreStep .. = _
    simp [execDomainRestoreStep, fin, hd.not_gt, hstep, hgroupOf]
  case domainRestoreStep5 =>
    rintro d bad t u s hd hstep hgroupOf ht rfl
    change execDomainRestoreStep .. = _
    simp [execDomainRestoreStep, fin, hd.not_gt, hstep, hgroupOf, ht]
  case domainRestoreStep6 =>
    intro d bad s hd hstep
    change execDomainRestoreStep .. = _
    simp [execDomainRestoreStep, fin, hd.not_gt, hstep]
  case retentionReloadDone =>
    rintro d t s hreload hst hd rfl
    change execRetentionReloadDone .. = _
    simp [execRetentionReloadDone, fin, hreload, hst, hd]
  case wakeTimeout =>
    rintro d n v s rfl hd rfl hstep hfirst
    have hwaits : ¬ (219 < d.toNat ∨ (domain s d.toNat).step = 0) := not_or.mpr ⟨hd.not_gt, hstep⟩
    change execWakeTimeout .. = _
    exact (if_neg hwaits).trans (if_pos hfirst)
  case wakeTimeoutAgain =>
    intro d s hd hstep hagain
    have hwaits : ¬ (219 < d.toNat ∨ (domain s d.toNat).step = 0) := not_or.mpr ⟨hd.not_gt, hstep⟩
    change execWakeTimeout .. = _
    exact (if_neg hwaits).trans (if_neg hagain)
  case retentionReloadDone2 =>
    rintro d t u s rfl hreload hst rfl rfl
    change execRetentionReloadDone .. = _
    simp [execRetentionReloadDone, fin, hreload, hst]

/-- Settles O58: each event by the branch that its hypotheses take, and what a stage and a wake do. -/
theorem entriesAndWakesAct : Obligations.EntriesAndWakesAct := by
  unfold Obligations.EntriesAndWakesAct
  refine ⟨?dozeAutoAttempt, ?entryStage, ?railStage, ?departStage, ?stageRefused, ?stageRuns, ?standbyFinalStage,
    ?wakeSource, ?wakeDetect, ?gpioEdge, ?alarm, ?wakeMasked, ?wakeAborts, ?wakeExits⟩
  case dozeAutoAttempt =>
    intro s hrunning hdozeAuto
    change execDozeAutoAttempt .. = _
    simp [execDozeAutoAttempt, fin, hrunning, hdozeAuto]
  case entryStage =>
    rintro n s hentering rfl h4 h12 h13
    change execEntryStage .. = _
    -- `h4`, `h12` and `h13` rule out the stages that have branches of their own
    simp [execEntryStage, fin, hentering]
  case railStage =>
    intro s hentering hstage
    change execEntryStage .. = _
    simp [execEntryStage, fin, hentering, hstage]
  case departStage =>
    intro s hentering hstage
    change execEntryStage .. = _
    simp only [execEntryStage, hentering, hstage, Bool.true_eq_false, if_false]
    cases s.pmu.toStandby <;> rfl
  case stageRefused =>
    intro n d s hrefused
    simp only [runStage, hrefused]
  case stageRuns =>
    rintro n s t hnone hn rfl
    have hreport : ¬ (n = 11 ∧ s.pmu.toStandby = true) := fun h => hn h.1
    simp only [runStage, hnone, if_neg hreport]
  case standbyFinalStage =>
    rintro e t s hstage12 hentering hstage rfl
    change execStandbyFinalStage .. = _
    simp [execStandbyFinalStage, fin, hstage12, hentering, hstage]
  case wakeSource =>
    intro src i s hgpio hdetect hwake
    have h2 : src.toNat ≠ 2 := fun h => hgpio (BitVec.eq_of_toNat_eq h)
    have h3 : src.toNat ≠ 3 := fun h => hdetect (BitVec.eq_of_toNat_eq h)
    change execWakeSource .. = _
    -- `h2` and `h3` rule out the sources that have masks of their own
    simp [execWakeSource, fin, hwake]
  case wakeDetect =>
    intro i s hbit hwakeState
    change execWakeSource 3 i s = _
    simp [execWakeSource, fin, hbit, hwakeState]
  case gpioEdge =>
    rintro pin level t s hedge rfl
    change execGpioEdge .. = _
    refine (if_neg hedge).trans ?_
    simp only [Bool.and_eq_true, Bool.not_eq_true', decide_eq_true_eq, and_assoc]
    split <;> rfl
  case alarm =>
    intro s halarm hnow
    have hdue : ¬ (s.pmu.alarm = 0 ∨ s.pmu.alarm.toNat < now s) := not_or.mpr ⟨halarm, hnow.not_gt⟩
    change execAlarm s = _
    exact if_neg hdue
  case wakeMasked =>
    intro src i s hmasked
    exact if_pos hmasked
  case wakeAborts =>
    intro src i s hbit hentering
    exact (if_neg (ne_false_of_eq_true hbit)).trans (if_pos hentering)
  case wakeExits =>
    intro src i s hbit hentering hst hexiting
    exact (if_neg (ne_false_of_eq_true hbit)).trans
      ((if_neg (ne_true_of_eq_false hentering)).trans (if_pos ⟨hst, hexiting⟩))

/-- Settles O59: each event by the branch that its hypotheses take. -/
theorem railsAct : Obligations.RailsAct := by
  unfold Obligations.RailsAct
  refine ⟨?avsPoll, ?avsPollBad, ?railDone, ?avsTimeout, ?avsExitRetry, ?railMonitor, ?railMonitorThird⟩
  case avsPoll =>
    intro rail s hchange hfailed
    change execAvsPoll rail true true s = _
    simp [execAvsPoll, fin, hchange, hfailed]
  case avsPollBad =>
    intro rail v s hchange hfailed
    change execAvsPoll rail v false s = _
    simp [execAvsPoll, fin, hchange, hfailed]
  case railDone =>
    intro k s hexiting
    have hstays : ¬ (s.pmu.exiting = true ∧ s.pmu.st = .doze) := by simp [hexiting]
    exact if_neg hstays
  case avsTimeout =>
    intro rail e n s hchange hfailed
    change execAvsTimeout .. = _
    simp [execAvsTimeout, fin, hchange, hfailed]
  case avsExitRetry =>
    rintro rail e n t s hchange hfailed hexiting rfl
    change execAvsExitRetry .. = _
    simp [execAvsExitRetry, fin, hchange, hfailed, hexiting]
  case railMonitor =>
    rintro rail vo io v s hst rfl htarget hnear
    have hwatched : ¬ (s.pmu.st ≠ .run ∨ (railOf s rail.toNat).target = 0) := not_or.mpr ⟨not_not.mpr hst, htarget⟩
    change execRailMonitor .. = _
    refine (if_neg hwatched).trans ?_
    simp [fin, hnear.not_gt]
  case railMonitorThird =>
    rintro rail vo io v s hst rfl htarget hfar hthird
    have hwatched : ¬ (s.pmu.st ≠ .run ∨ (railOf s rail.toNat).target = 0) := not_or.mpr ⟨not_not.mpr hst, htarget⟩
    change execRailMonitor .. = _
    refine (if_neg hwatched).trans ?_
    simp [fin, hfar, hthird]

/-- An entry into a lower state begins from RUN while nothing enters or rolls back and a ticket is free (R401). -/
theorem stateSet_begins {r : Req} {standby : Bool} {s : State} (hst : s.pmu.st = .run)
    (hentering : s.pmu.entering = false) (hrolling : s.pmu.rolling = false) (hroom : s.mgmt.tickets.length < 256) :
    stateSet r standby s = (rep 1 (nextTicketNum s).toNat,
      beginEntry standby (some (nextTicketNum s)) (holdTicket 0x0C02 r s)) := by
  have hidle : ¬ (s.pmu.entering = true ∨ s.pmu.rolling = true) := by simp [hentering, hrolling]
  have hrun : ¬ s.pmu.st = .doze := by simp [hst]
  rw [stateSet, if_neg hidle, if_neg hrun, pend_room hroom]

/-- Settles O60: each command's body takes the branch that its hypotheses name. -/
theorem powerCommandsAct : Obligations.PowerCommandsAct := by
  unfold Obligations.PowerCommandsAct
  refine ⟨?powerStatus, ?powerStateSet, ?powerStateRun, ?powerDomainRead, ?powerTimerSet, ?powerWakeCfg⟩
  case powerStatus =>
    intro r s h
    exact command_serves h rfl (fits r (by simp [ok]))
  case powerStateSet =>
    intro r t s h ht hsafe hroom hrolling
    obtain ⟨-, -, -, hst, hentering, -⟩ := id h
    have hstopped : ¬ s.fault.safeStop = true := ne_true_of_eq_false hsafe
    refine command_serves h ?_ (fits r (by simp [rep]))
    rcases ht with rfl | rfl
    · exact (if_neg hstopped).trans (stateSet_begins hst hentering hrolling hroom)
    · exact (if_neg hstopped).trans (stateSet_begins hst hentering hrolling hroom)
  case powerStateRun =>
    intro r s h hsafe
    obtain ⟨-, -, -, hst, -⟩ := id h
    exact command_serves h ((if_neg (ne_true_of_eq_false hsafe)).trans (if_pos hst)) (fits r (by simp [ok]))
  case powerDomainRead =>
    intro r d s h hd
    exact command_serves h (by simp [hd.not_gt]) (fits r (by simp [ok]))
  case powerTimerSet =>
    rintro r d g lowest auto us l t s h hdomains hany hauto hmin hmax rfl
    have hus := count_allowed hmin hmax
    refine command_serves h ?_ (fits r (by simp [ok]))
    simp only [hdomains, hany, Bool.false_eq_true, if_neg hauto.not_gt, if_neg hus, if_false]
  case powerWakeCfg =>
    intro r wm dm al da av s h hda
    exact command_serves h (if_neg hda.not_gt) (fits r (by simp [ok]))

end Sys2Proof.Machine
